-- ==== Sys2Proof/Word.lean ====
section
/-!
DEFINITION. The word types of the CM4 and the one container for sparse storage.
-/
namespace Sys2Proof

/-- A byte of memory. -/
abbrev Byte := BitVec 8
/-- A 64-bit register or control register (R114, R118). -/
abbrev Word := BitVec 64
/-- A 2,048-bit vector register (R115, R299). -/
abbrev VecReg := BitVec 2048
/-- A 32-bit syllable (R239). -/
abbrev Syllable := BitVec 32

/-- Sparse storage: keys strictly rising, and no entry equal to what an unlisted key reads as. -/
abbrev SMap (α : Type) := List (Nat × α)

/-- The value at key `k`; an unlisted key reads as `dflt`. -/
def SMap.get {α : Type} (dflt : α) (m : SMap α) (k : Nat) : α :=
  match m with
  | [] => dflt
  | c :: r => if c.1 = k then c.2 else SMap.get dflt r k

/-- Puts `v` at key `k` in rising order, replacing an entry of that key. -/
def SMap.put {α : Type} (m : SMap α) (k : Nat) (v : α) : SMap α :=
  match m with
  | [] => [(k, v)]
  | c :: r =>
    if k < c.1 then (k, v) :: c :: r
    else if k = c.1 then (k, v) :: r
    else c :: SMap.put r k v

/-- Every entry but those of key `k`. -/
def SMap.drop {α : Type} (m : SMap α) (k : Nat) : SMap α :=
  m.filter (fun c => c.1 != k)

/-- Writes `v` at key `k`; writing the value an unlisted key reads as removes the entry. -/
def SMap.set {α : Type} [DecidableEq α] (dflt : α) (m : SMap α) (k : Nat) (v : α) : SMap α :=
  if v = dflt then SMap.drop m k else SMap.put m k v

/-- The canonical form: keys strictly rising from above `lo`, no entry at the default value. -/
def SMap.wfFrom {α : Type} [DecidableEq α] (dflt : α) (lo : Nat) (m : SMap α) : Bool :=
  match m with
  | [] => true
  | c :: r => decide (lo ≤ c.1) && decide (c.2 ≠ dflt) && SMap.wfFrom dflt (c.1 + 1) r

/-- The canonical form of sparse storage. -/
def SMap.wf {α : Type} [DecidableEq α] (dflt : α) (m : SMap α) : Bool :=
  SMap.wfFrom dflt 0 m

end Sys2Proof
end

