-- ==== Sys2Proof/Config.lean ====
section
/-!
DEFINITION. What the part fixes, and the free values: constants without a body, so that no proof can see a
value of theirs (R8).
-/
namespace Sys2Proof.Config

/-- The undefined bits of the n-th undefined result of a run (R8, log 4). -/
opaque freeBits : Nat → BitVec 2048

/-- The n-th choice that the spec leaves open: which agent moves, which of several values or positions (log 1). -/
opaque choice : Nat → Nat

/-- Byte `i` of the fused serial number (R67, R69, log 9). -/
opaque serial : Nat → Byte

/-- Byte `i` of the public identity key, X then Y (R69, log 9). -/
opaque publicKey : Nat → Byte

/-- Byte `i` of SIGR then SIGS, 66 bytes each, of the device identity key over a byte string (R67, R69, log 9). -/
opaque sign : List Byte → Nat → Byte

/-- Byte `i` of the ROM part's signature record under Henulrath's product key (R69, log 9). -/
opaque romSignature : Nat → Byte

/-- Byte `i` of the resident emulation library (R237, log 9). -/
opaque libraryByte : Nat → Byte

/-- Version of the resident emulation library (R69 record 0x0040, log 9). -/
opaque libraryVersion : BitVec 32

/-- Bytes of the resident emulation library behind the last dispatch table that R407 places (log 9). -/
opaque libraryExtra : BitVec 31

/-- The package power in mW, as the n-th report gives it (R64, log 3). -/
opaque powerMW : Nat → Nat

/-- The SHA-512 of component `k` of the device's own firmware: 0 the Monitor, 1 service firmware (R66, log 9). -/
opaque firmwareDigest : Nat → BitVec 512

/-- The tuning passes that service firmware holds pending at the n-th TUNE, by number (R63, R234, log 104). -/
opaque pendingPasses : Nat → List Nat

/-- An errata bundle bears Henulrath's signature (R65, log 105). -/
opaque errataGenuine : List Byte → List Byte → Bool

/-- Byte `i` of the log entry of an event, by the entry's code: R63 gives LOG's output no format (log 9). -/
opaque logByte : Nat → Nat → Byte

/-- Where the Granary's spill region of a job lies in physical memory, by the number of the job's root task: the spec gives it a size and no place
(R56, R105, log 111). -/
opaque spillBase : Nat → Nat

/-- The errata bundles that service firmware submits at its n-th load (R65, R69, log 105): their records' values, and their signatures. -/
opaque firmwareErrata : Nat → List (List (List Byte) × List Byte)

/-- Bytes of one log entry (log 9). -/
def logEntryBytes : Nat := 64
/-- Base of the system window (R69, R88). -/
def window : Nat := 0xF000000000
/-- Bytes of the system window (R88). -/
def windowSize : Nat := 0x100000000
/-- Bytes of the capability page (R69). -/
def capPageSize : Nat := 0x10000
/-- Entry of the resident emulation library (R69 record 0x0040). -/
def libraryEntry : Nat := 0xF000010000
/-- Where the listing of emu_bf16 stands in the resident emulation library: R408 gives its bundles and no address (DESIGN CHOICE, log 9). -/
def emuEntry : Nat := 0xF000020000
/-- Bytes of the resident emulation library (R69 record 0x0040): at least those up to the end of its dispatch tables (R407, log 9). -/
def librarySize : BitVec 32 := 0x170500 + libraryExtra.zeroExtend 32
/-- The model's place for function `f`'s window: above the 48-bit physical space (R69, log 8). -/
def windowPA (f : Nat) : Nat := 2 ^ 48 + f * windowSize
/-- Bytes of one pantry (R144). -/
def pantryBytes : Nat := 0xC0000
/-- Bytes of one pantry bank (R144). -/
def bankBytes : Nat := 0xC000
/-- Accumulator tiles (R117). -/
def tiles : Nat := 768
/-- Entries of one engine queue (R166). -/
def queueEntries : Nat := 32
/-- Records a Granary slice holds on chip (R104). -/
def sliceRecords : Nat := 65536
/-- Lines of 128 bytes that a Larder slice of 16 MiB holds (R10). -/
def sliceLines : Nat := 131072
/-- Lines a slice may hold in REDUCE: 512 on chip and 2,048 spilled (R159). -/
def reduceLines : Nat := 2560
/-- Lines in REDUCE that a slice holds with their shadows on chip (R159). -/
def reduceOnChip : Nat := 512
/-- Entries of a core's L1 TLB (R162). -/
def l1TlbEntries : Nat := 64
/-- Entries of a cluster's L2 TLB (R162). -/
def l2TlbEntries : Nat := 2048

end Sys2Proof.Config
end

