-- ==== Sys2Proof/Syntax.lean ====
section
/-!
DEFINITION. The operations and steps of the CM4: one constructor of `Instr` per row of spec/opcode_table.json.
Operand fields have the widths of their format families (R251 to R254); an absent optional extension is `none`.
-/
namespace Sys2Proof

/-- The two vector slots (R114). -/
inductive VSlot where
  | v0
  | v1
  deriving DecidableEq, Repr

/-- The two copy slots (R114). -/
inductive CSlot where
  | c0
  | c1
  deriving DecidableEq, Repr

/-- Operand fields: three s-registers, x = 0 (R251 SR). -/
structure SR3 where
  d : BitVec 6
  a : BitVec 6
  b : BitVec 6
  deriving DecidableEq, Repr

/-- Operand fields: one source (R251 SR, b = x = 0). -/
structure SR2 where
  d : BitVec 6
  a : BitVec 6
  deriving DecidableEq, Repr

/-- Operand fields: sext, zext: x codes the source width (R251 SR). -/
structure SRX where
  d : BitVec 6
  a : BitVec 6
  x : BitVec 2
  deriving DecidableEq, Repr

/-- Operand fields: lea: x is the shift of b (R251 SR). -/
structure SR4 where
  d : BitVec 6
  a : BitVec 6
  b : BitVec 6
  x : BitVec 2
  deriving DecidableEq, Repr

/-- Operand fields: ldisc: address and length (R251 SR, d = 0). -/
structure SRD where
  a : BitVec 6
  b : BitVec 6
  deriving DecidableEq, Repr

/-- Operand fields: sel, with the selecting predicate of its group (R251 SX). -/
structure SX where
  d : BitVec 6
  a : BitVec 6
  b : BitVec 6
  k : BitVec 4
  deriving DecidableEq, Repr

/-- Operand fields: bfx and bfi: low position and width minus 1 (R251 SX). -/
structure SXB where
  d : BitVec 6
  a : BitVec 6
  p : BitVec 6
  w : BitVec 6
  deriving DecidableEq, Repr

/-- Operand fields: 8-bit immediate, 36 with the extension (R251 SI). -/
structure SI where
  d : BitVec 6
  a : BitVec 6
  i : BitVec 8
  e : Option (BitVec 28)
  deriving DecidableEq, Repr

/-- Operand fields: 14-bit immediate, 42 with the extension (R251 SM). -/
structure SM where
  d : BitVec 6
  i : BitVec 14
  e : Option (BitVec 28)
  deriving DecidableEq, Repr

/-- Operand fields: compare of registers (R251 SK). -/
structure SK where
  k : BitVec 4
  a : BitVec 6
  b : BitVec 6
  deriving DecidableEq, Repr

/-- Operand fields: compare with an immediate (R251 SJ). -/
structure SJ where
  k : BitVec 4
  a : BitVec 6
  i : BitVec 10
  e : Option (BitVec 28)
  deriving DecidableEq, Repr

/-- Operand fields: predicate operation (R251 SP). -/
structure SP where
  k : BitVec 4
  ka : BitVec 4
  kb : BitVec 4
  deriving DecidableEq, Repr

/-- Operand fields: pnot (R251 SP, kb = 0). -/
structure SP1 where
  k : BitVec 4
  ka : BitVec 4
  deriving DecidableEq, Repr

/-- Operand fields: direct branch (R251 SB). -/
structure SB where
  o : BitVec 20
  e : Option (BitVec 28)
  deriving DecidableEq, Repr

/-- Operand fields: conditional branch (R251 SC). -/
structure SC where
  n : BitVec 1
  k : BitVec 4
  o : BitVec 15
  e : Option (BitVec 28)
  deriving DecidableEq, Repr

/-- Operand fields: one register (R251 S1). -/
structure S1 where
  r : BitVec 6
  deriving DecidableEq, Repr

/-- Operand fields: loop nest: counts from a, n levels, length minus 1, increment table (R251 SL). -/
structure SL where
  a : BitVec 6
  n : BitVec 3
  b : BitVec 6
  p : Option (BitVec 20)
  deriving DecidableEq, Repr

/-- Operand fields: acq: block masks and an optional k mask (R251 SQ). -/
structure SQ where
  s : BitVec 8
  v : BitVec 4
  w : BitVec 4
  c : BitVec 2
  d : BitVec 2
  k : Option (BitVec 2)
  deriving DecidableEq, Repr

/-- Operand fields: acq.f: block masks, k mask and kp (R251 SQ). -/
structure SQF where
  s : BitVec 8
  v : BitVec 4
  w : BitVec 4
  c : BitVec 2
  d : BitVec 2
  k : BitVec 2
  kp : BitVec 4
  deriving DecidableEq, Repr

/-- Operand fields: global load or store (R251 SG). -/
structure SG where
  r : BitVec 6
  a : BitVec 6
  cl : BitVec 4
  o : BitVec 4
  e : Option (BitVec 28)
  deriving DecidableEq, Repr

/-- Operand fields: pantry load or store (R251 SY). -/
structure SY where
  r : BitVec 6
  a : BitVec 6
  o : BitVec 8
  e : Option (BitVec 28)
  deriving DecidableEq, Repr

/-- Operand fields: acquire load or release store (R251 SO). -/
structure SO where
  r : BitVec 6
  a : BitVec 6
  cl : BitVec 4
  sco : BitVec 2
  m : BitVec 16
  deriving DecidableEq, Repr

/-- Operand fields: the group of the atomics (R251 SA). -/
structure SAG where
  cl : BitVec 4
  sco : BitVec 2
  w : BitVec 1
  fo : BitVec 1
  m : BitVec 16
  deriving DecidableEq, Repr

/-- Operand fields: atomic (R251 SA). -/
structure SA where
  d : BitVec 6
  a : BitVec 6
  b : BitVec 6
  o : BitVec 2
  g : Option SAG
  deriving DecidableEq, Repr

/-- Operand fields: redx (R251 SA, d = ORD = 0). -/
structure SAR where
  a : BitVec 6
  b : BitVec 6
  g : Option SAG
  deriving DecidableEq, Repr

/-- Operand fields: update-only atomic (R251 SU). -/
structure SU where
  cl : BitVec 4
  a : BitVec 6
  b : BitVec 6
  u : BitVec 1
  w : BitVec 1
  deriving DecidableEq, Repr

/-- Operand fields: fence (R251 SF). -/
structure SF where
  sco : BitVec 2
  mb : BitVec 16
  ma : BitVec 16
  deriving DecidableEq, Repr

/-- Operand fields: tclr: file and number (R251 ST). -/
structure STC where
  f : BitVec 3
  n : BitVec 6
  deriving DecidableEq, Repr

/-- Operand fields: tquery: result, file and number (R251 ST). -/
structure ST where
  r : BitVec 6
  f : BitVec 3
  n : BitVec 6
  deriving DecidableEq, Repr

/-- Operand fields: Granary pop: quad, code register, predicate pair (R251 S2). -/
structure S2 where
  r : BitVec 6
  a : BitVec 6
  k : BitVec 4
  deriving DecidableEq, Repr

/-- Operand fields: Granary push: quad and code register (R251 S2, k = 0). -/
structure S2P where
  r : BitVec 6
  a : BitVec 6
  deriving DecidableEq, Repr

/-- Operand fields: control register access (R251 SW). -/
structure SW where
  r : BitVec 6
  n : BitVec 12
  deriving DecidableEq, Repr

/-- Operand fields: write of one named control register (R251 SW). -/
structure SWF where
  r : BitVec 6
  deriving DecidableEq, Repr

/-- Operand fields: capr (R251 SZ). -/
structure SZ where
  r : BitVec 6
  a : BitVec 6
  t : BitVec 8
  deriving DecidableEq, Repr

/-- Operand fields: 16-bit immediate (R251 SH). -/
structure SH where
  i : BitVec 16
  deriving DecidableEq, Repr

/-- Operand fields: vector op without operands (R252 VN). -/
structure VN where
  v : VSlot
  deriving DecidableEq, Repr

/-- Operand fields: the group of VR: third source, rounding mode, formats, immediate (R252). -/
structure VRG where
  c : BitVec 5
  rm : BitVec 2
  fi : BitVec 4
  fo : BitVec 4
  i : BitVec 12
  deriving DecidableEq, Repr

/-- Operand fields: vector register form (R252 VR). -/
structure VR where
  v : VSlot
  d : BitVec 5
  a : BitVec 5
  b : BitVec 5
  m : BitVec 3
  t : BitVec 2
  g : Option VRG
  deriving DecidableEq, Repr

/-- Operand fields: the group of VM: displacement and class (R252). -/
structure VMG where
  disp : BitVec 24
  cl : BitVec 4
  deriving DecidableEq, Repr

/-- Operand fields: vector memory form (R252 VM). -/
structure VM where
  v : VSlot
  d : BitVec 5
  a : BitVec 5
  b : BitVec 5
  m : BitVec 3
  g : Option VMG
  deriving DecidableEq, Repr

/-- Operand fields: dense MMA (R253 MA). -/
structure MA where
  z : BitVec 10
  ga : BitVec 4
  gb : BitVec 4
  p : BitVec 2
  deriving DecidableEq, Repr

/-- Operand fields: sparse MMA with its metadata address and core (R253 MA). -/
structure MAS where
  z : BitVec 10
  ga : BitVec 4
  gb : BitVec 4
  p : BitVec 2
  md : BitVec 20
  mc : BitVec 3
  deriving DecidableEq, Repr

/-- Operand fields: mzero (R253 MT, y = 0). -/
structure MZ where
  z : BitVec 10
  deriving DecidableEq, Repr

/-- Operand fields: tile to tile (R253 MT). -/
structure MT where
  z : BitVec 10
  y : BitVec 10
  deriving DecidableEq, Repr

/-- Operand fields: mload (R253 MG, p = 0). -/
structure MLD where
  z : BitVec 10
  g : BitVec 4
  deriving DecidableEq, Repr

/-- Operand fields: mrot and mdrain (R253 MG). -/
structure MG where
  z : BitVec 10
  g : BitVec 4
  p : BitVec 2
  deriving DecidableEq, Repr

/-- Operand fields: mdrainx with its parameter block (R253 MG). -/
structure MGX where
  z : BitVec 10
  g : BitVec 4
  p : BitVec 2
  pa : BitVec 20
  deriving DecidableEq, Repr

/-- Operand fields: descriptor move (R253 MD). -/
structure MD where
  g : BitVec 4
  f : BitVec 1
  c : BitVec 4
  deriving DecidableEq, Repr

/-- Operand fields: mcap (R253 MK). -/
structure MK where
  k : BitVec 4
  deriving DecidableEq, Repr

/-- Operand fields: copy op without operands (R254 CN). -/
structure CN where
  v : CSlot
  deriving DecidableEq, Repr

/-- Operand fields: cross-file move with a lane (R254 CX). -/
structure CX where
  v : CSlot
  d : BitVec 6
  a : BitVec 6
  l : BitVec 6
  deriving DecidableEq, Repr

/-- Operand fields: cross-file move of a whole register (R254 CX, l = 0). -/
structure CX0 where
  v : CSlot
  d : BitVec 6
  a : BitVec 6
  deriving DecidableEq, Repr

/-- Operand fields: predicate image to a vector lane (R254 CX, a = 0). -/
structure CXK where
  v : CSlot
  d : BitVec 6
  l : BitVec 6
  deriving DecidableEq, Repr

/-- Operand fields: tile row pair and vector register (R254 CZ). -/
structure CZ where
  v : CSlot
  r : BitVec 5
  z : BitVec 10
  h : BitVec 5
  deriving DecidableEq, Repr

/-- Operand fields: cadd (R254 CA). -/
structure CA where
  v : CSlot
  d : BitVec 4
  a : BitVec 4
  i : BitVec 12
  e : Option (BitVec 28)
  deriving DecidableEq, Repr

/-- Operand fields: cmovi (R254 CM). -/
structure CM where
  v : CSlot
  d : BitVec 4
  i : BitVec 16
  e : Option (BitVec 28)
  deriving DecidableEq, Repr

/-- Operand fields: clea (R254 CE). -/
structure CE where
  v : CSlot
  d : BitVec 4
  a : BitVec 4
  b : BitVec 4
  sh : BitVec 2
  deriving DecidableEq, Repr

/-- Operand fields: engine command (R254 CQ). -/
structure CQ where
  v : CSlot
  r : BitVec 4
  nj : BitVec 1
  ev : BitVec 1
  m : Option (BitVec 16)
  deriving DecidableEq, Repr

/-- Operand fields: qfence (R254 CW). -/
structure CWF where
  v : CSlot
  qm : BitVec 4
  deriving DecidableEq, Repr

/-- Operand fields: queue control of queue q (R254 CW). -/
structure CW where
  v : CSlot
  r : BitVec 4
  q : BitVec 2
  deriving DecidableEq, Repr

/-- Operand fields: qack (R254 CW, q = 2). -/
structure CWA where
  v : CSlot
  r : BitVec 4
  q : BitVec 2
  deriving DecidableEq, Repr

/-- Operand fields: tag-table lookup (R254 CT). -/
structure CT2 where
  v : CSlot
  r : BitVec 4
  a : BitVec 4
  deriving DecidableEq, Repr

/-- Operand fields: tag-table insert (R254 CT). -/
structure CTI where
  v : CSlot
  a : BitVec 4
  b : BitVec 4
  deriving DecidableEq, Repr

/-- Operand fields: tag-table delete (R254 CT). -/
structure CTD where
  v : CSlot
  a : BitVec 4
  deriving DecidableEq, Repr

/-- Operand fields: bank format (R254 CT). -/
structure CTB where
  v : CSlot
  r : BitVec 4
  b : BitVec 4
  deriving DecidableEq, Repr

/-- A tree: shape, tests minus 1, predicates, polarity and the offsets of leaves 1 to n (R246, R247). -/
structure Tree where
  shape : BitVec 2
  nt : BitVec 2
  p0 : BitVec 4
  p1 : BitVec 4
  p2 : BitVec 4
  p3 : BitVec 4
  pol : BitVec 4
  offs : List (BitVec 24)
  deriving DecidableEq, Repr

/-- A fabric packet: the header fields of R27 and the payload bytes. `group` also keys a multicast connection. -/
structure Packet where
  hchk : BitVec 16
  tag : BitVec 16
  pchk : BitVec 32
  aux : BitVec 16
  cnode : BitVec 32
  group : BitVec 16
  rsv1 : BitVec 7
  phys : BitVec 1
  addr : BitVec 56
  rsv2 : BitVec 3
  len : BitVec 9
  seq : BitVec 16
  op : BitVec 6
  ord : BitVec 1
  cls : BitVec 2
  lane : BitVec 3
  src : BitVec 12
  dst : BitVec 12
  payload : List Byte
  deriving DecidableEq, Repr

/-- A connection: the peer device, or the group of a multicast connection, and the lane (R29). -/
structure Conn where
  mcast : Bool
  peer : Nat
  lane : Nat
  deriving DecidableEq, Repr

/-- What a tuning pass tested (R234): an engine or bank of a core, or a memory channel. -/
inductive TuneRes where
  | engine (core : Nat)
  | bank (core bank : Nat)
  | channel (idx : Nat)
  | rotation (core : Nat)
  | drain (core : Nat)
  deriving DecidableEq, Repr

/-- One constructor per row of spec/opcode_table.json, in the order of the table. -/
inductive Instr where

  /-- DEVICE_RESET (R69) -/
  | deviceReset
  /-- FUNCTION_LEVEL_RESET (R60) -/
  | functionLevelReset (fn : Fin 9)
  /-- JOBGO_START (R57) -/
  | jobgoStart (fn : Fin 9) (token : BitVec 32)
  /-- JOBGO_CANCEL (R60) -/
  | jobgoCancel (fn : Fin 9)
  /-- JOBGO_SUSPEND (R86) -/
  | jobgoSuspend (fn : Fin 9)
  /-- JOBGO_RESUME (R86) -/
  | jobgoResume (fn : Fin 9)
  /-- JOBGO_REFUSED (R55) -/
  | jobgoRefused (fn : Fin 9)
  /-- REGISTER_WRITE (R55) -/
  | registerWrite (fn : Fin 9) (off size : Nat) (val : BitVec 64)
  /-- MSIX_UNMASK (R62) -/
  | msixUnmask (fn : Fin 9) (vec : Fin 16)
  /-- BAR2_WRITE (R54) -/
  | bar2Write (fn : Fin 9) (off : Nat) (data : List Byte)
  /-- BAR2_READ (R54) -/
  | bar2Read (fn : Fin 9) (off n : Nat)
  /-- QUOTE (R67) -/
  | quote (fn : Fin 9) (inlen : Nat)
  /-- ASSIGN (R53) -/
  | assign (fn : Fin 9) (inlen : Nat)
  /-- CKPTAUTH (R47) -/
  | ckptauth (fn : Fin 9) (inlen : Nat)
  /-- DEVNUM (R25) -/
  | devnum (fn : Fin 9) (inlen : Nat)
  /-- GFORM (R26) -/
  | gform (fn : Fin 9) (inlen : Nat)
  /-- GDISSOLVE (R63) -/
  | gdissolve (fn : Fin 9) (inlen : Nat)
  /-- CKPTSEND (R17) -/
  | ckptsend (fn : Fin 9) (inlen : Nat)
  /-- TUNE (R234) -/
  | tune (inlen : Nat)
  /-- CLKCAP (R63) -/
  | clkcap (inlen : Nat)
  /-- LOG (R223) -/
  | log (inlen : Nat)
  /-- UNKNOWN_COMMAND (R63) -/
  | unknownCommand (fn : Fin 9) (service : Bool) (cmd : BitVec 16)
  /-- MAILBOX_COMPLETE (R63) -/
  | mailboxComplete (fn : Fin 9) (service : Bool)
  /-- JOB_VALIDATION (R57) -/
  | jobValidation (fn : Fin 9)
  /-- THERMAL_STEP (R23) -/
  | thermalStep (die : Fin 4) (milliDeg : Nat)
  /-- THERMAL_TRIP (R23) -/
  | thermalTrip (die : Fin 4)
  /-- MACHINE_CHECK (R223) -/
  | machineCheck (fn : Fin 9)
  /-- TUNING_PASS_COMPLETE (R21) -/
  | tuningPassComplete (res : TuneRes) (rung : BitVec 2)
  /-- GANG_HOLD (R82) -/
  | gangHold (launch gang pos : Nat)
  /-- COMMIT (R82) -/
  | commit (launch gang : Nat)
  /-- HOLD_REFUSED (R82) -/
  | holdRefused (launch gang : Nat)
  /-- BACKOFF_ELAPSED (R82) -/
  | backoffElapsed (launch gang : Nat)
  /-- FREE_CORE_REPORT (R81) -/
  | freeCoreReport (die : Fin 4)
  /-- DIVERT (R136) -/
  | divert
  /-- FULL_SAVE (R138) -/
  | fullSave
  /-- PBUDGET_EXPIRY (R85) -/
  | pbudgetExpiry
  /-- TASK_RESUME (R139) -/
  | taskResume (task core : Nat)
  /-- EVENT_HANDLER_ENTRY (R132) -/
  | eventHandlerEntry
  /-- DEFERRED_PRECISE_FAULT (R222) -/
  | deferredPreciseFault
  /-- EMULATION_TRAP (R237) -/
  | emulationTrap
  /-- STEERED_COMPLETE (R236) -/
  | steeredComplete (id : Nat)
  /-- LOAD_RETURN (R178) -/
  | loadReturn (id : Nat)
  /-- SPECIAL_FUNCTION_RESULT (R310) -/
  | specialFunctionResult (id : Nat)
  /-- STORE_PERFORMED (R171) -/
  | storePerformed (id : Nat)
  /-- PCARVE_DRAIN_END (R91) -/
  | pcarveDrainEnd
  /-- QUEUE_ENTRY_START (R190) -/
  | queueEntryStart (q : Fin 4)
  /-- QUEUE_ENTRY_COMPLETE (R190) -/
  | queueEntryComplete (q : Fin 4) (num : Nat)
  /-- DECOMP_BLOCK (R358) -/
  | decompBlock
  /-- PUT (R44) -/
  | put (p : Packet)
  /-- PUTSIG (R45) -/
  | putsig (p : Packet)
  /-- GET (R44) -/
  | get (p : Packet)
  /-- GETRESP (R36) -/
  | getresp (p : Packet)
  /-- PUTMC (R46) -/
  | putmc (p : Packet)
  /-- ACK (R36) -/
  | ack (p : Packet)
  /-- NACK (R51) -/
  | nack (p : Packet)
  /-- RED (R368) -/
  | red (p : Packet)
  /-- FETCH_AND_OP (R48) -/
  | fetchAndOp (p : Packet)
  /-- COMPARE_AND_SWAP (R48) -/
  | compareAndSwap (p : Packet)
  /-- LIST_ENQUEUE (R48) -/
  | listEnqueue (p : Packet)
  /-- LIST_DEQUEUE (R48) -/
  | listDequeue (p : Packet)
  /-- POINTER_CHASE (R48) -/
  | pointerChase (p : Packet)
  /-- EXACT_REDUCE (R48) -/
  | exactReduce (p : Packet)
  /-- SIGNAL_ADD (R48) -/
  | signalAdd (p : Packet)
  /-- BOUNDED_COPY (R48) -/
  | boundedCopy (p : Packet)
  /-- CELRESP (R36) -/
  | celresp (p : Packet)
  /-- CKPT (R47) -/
  | ckpt (p : Packet)
  /-- E2E_TIMEOUT (R34) -/
  | e2eTimeout (conn : Conn) (seq : BitVec 16)
  /-- RESPONSE_TIMEOUT (R36) -/
  | responseTimeout (conn : Conn) (seq : BitVec 16)
  /-- LINK_CRC_ERROR (R33) -/
  | linkCrcError (port : Fin 12) (failed : Nat) (retrained : Bool)
  /-- REDUCTION_TIMEOUT (R43) -/
  | reductionTimeout (idx : Nat)
  /-- GWAVE_START (R108) -/
  | gwaveStart (session : Nat)
  /-- GXFER (R109) -/
  | gxfer (p : Packet)
  /-- GBREQ (R109) -/
  | gbreq (p : Packet)
  /-- GWAVE (R108) -/
  | gwave (p : Packet)
  /-- GWREP (R108) -/
  | gwrep (p : Packet)
  /-- GTERM (R110) -/
  | gterm (p : Packet)
  /-- GCANCEL (R111) -/
  | gcancel (p : Packet)
  /-- GRANARY_REFILL (R105) -/
  | granaryRefill (session : Nat)
  /-- NOP (R271) -/
  | nop
  /-- ADD (R271) -/
  | add (o : SR3)
  /-- SUB (R271) -/
  | sub (o : SR3)
  /-- MUL (R271) -/
  | mul (o : SR3)
  /-- MULH (R271) -/
  | mulh (o : SR3)
  /-- MULHU (R271) -/
  | mulhu (o : SR3)
  /-- DIV (R272) -/
  | div (o : SR3)
  /-- DIVU (R272) -/
  | divu (o : SR3)
  /-- REM (R272) -/
  | rem (o : SR3)
  /-- REMU (R272) -/
  | remu (o : SR3)
  /-- AND (R271) -/
  | and (o : SR3)
  /-- OR (R271) -/
  | or (o : SR3)
  /-- XOR (R271) -/
  | xor (o : SR3)
  /-- ANDN (R271) -/
  | andn (o : SR3)
  /-- SHL (R271) -/
  | shl (o : SR3)
  /-- SHR (R271) -/
  | shr (o : SR3)
  /-- SRA (R271) -/
  | sra (o : SR3)
  /-- ROTL (R271) -/
  | rotl (o : SR3)
  /-- MIN (R271) -/
  | min (o : SR3)
  /-- MAX (R271) -/
  | max (o : SR3)
  /-- MINU (R271) -/
  | minu (o : SR3)
  /-- MAXU (R271) -/
  | maxu (o : SR3)
  /-- CLZ (R271) -/
  | clz (o : SR2)
  /-- CTZ (R271) -/
  | ctz (o : SR2)
  /-- POPC (R271) -/
  | popc (o : SR2)
  /-- SEXT (R271) -/
  | sext (o : SRX)
  /-- ZEXT (R271) -/
  | zext (o : SRX)
  /-- LEA (R271) -/
  | lea (o : SR4)
  /-- SEL (R271) -/
  | sel (o : SX)
  /-- BFX (R271) -/
  | bfx (o : SXB)
  /-- BFI (R271) -/
  | bfi (o : SXB)
  /-- ADDI (R271) -/
  | addi (o : SI)
  /-- ANDI (R271) -/
  | andi (o : SI)
  /-- ORI (R271) -/
  | ori (o : SI)
  /-- XORI (R271) -/
  | xori (o : SI)
  /-- SHLI (R271) -/
  | shli (o : SI)
  /-- SHRI (R271) -/
  | shri (o : SI)
  /-- SRAI (R271) -/
  | srai (o : SI)
  /-- MOVI (R271) -/
  | movi (o : SM)
  /-- CMP_EQ (R273) -/
  | cmpEq (o : SK)
  /-- CMP_NE (R273) -/
  | cmpNe (o : SK)
  /-- CMP_LT (R273) -/
  | cmpLt (o : SK)
  /-- CMP_LTU (R273) -/
  | cmpLtu (o : SK)
  /-- CMP_GE (R273) -/
  | cmpGe (o : SK)
  /-- CMP_GEU (R273) -/
  | cmpGeu (o : SK)
  /-- CMPI_EQ (R273) -/
  | cmpiEq (o : SJ)
  /-- CMPI_NE (R273) -/
  | cmpiNe (o : SJ)
  /-- CMPI_LT (R273) -/
  | cmpiLt (o : SJ)
  /-- CMPI_LTU (R273) -/
  | cmpiLtu (o : SJ)
  /-- CMPI_GE (R273) -/
  | cmpiGe (o : SJ)
  /-- CMPI_GEU (R273) -/
  | cmpiGeu (o : SJ)
  /-- PAND (R273) -/
  | pand (o : SP)
  /-- POR (R273) -/
  | por (o : SP)
  /-- PXOR (R273) -/
  | pxor (o : SP)
  /-- PNOT (R273) -/
  | pnot (o : SP1)
  /-- BR (R274) -/
  | br (o : SB)
  /-- BRK (R274) -/
  | brk (o : SC)
  /-- JMP (R274) -/
  | jmp (o : S1)
  /-- CALL (R274) -/
  | call (o : SB)
  /-- CALLR (R274) -/
  | callr (o : S1)
  /-- RET (R128) -/
  | ret
  /-- LNEST (R275) -/
  | lnest (o : SL)
  /-- LEXIT (R276) -/
  | lexit
  /-- ACQ (R277) -/
  | acq (o : SQ)
  /-- ACQ_F (R277) -/
  | acqF (o : SQF)
  /-- REL (R277) -/
  | rel
  /-- LD_B (R278) -/
  | ldB (o : SG)
  /-- LD_B_U (R278) -/
  | ldBU (o : SG)
  /-- LD_H (R278) -/
  | ldH (o : SG)
  /-- LD_H_U (R278) -/
  | ldHU (o : SG)
  /-- LD_W (R278) -/
  | ldW (o : SG)
  /-- LD_W_U (R278) -/
  | ldWU (o : SG)
  /-- LD_D (R278) -/
  | ldD (o : SG)
  /-- ST_B (R278) -/
  | stB (o : SG)
  /-- ST_H (R278) -/
  | stH (o : SG)
  /-- ST_W (R278) -/
  | stW (o : SG)
  /-- ST_D (R278) -/
  | stD (o : SG)
  /-- LDA_W (R279) -/
  | ldaW (o : SO)
  /-- LDA_D (R279) -/
  | ldaD (o : SO)
  /-- STL_W (R279) -/
  | stlW (o : SO)
  /-- STL_D (R279) -/
  | stlD (o : SO)
  /-- LDP_B (R280) -/
  | ldpB (o : SY)
  /-- LDP_B_U (R280) -/
  | ldpBU (o : SY)
  /-- LDP_H (R280) -/
  | ldpH (o : SY)
  /-- LDP_H_U (R280) -/
  | ldpHU (o : SY)
  /-- LDP_W (R280) -/
  | ldpW (o : SY)
  /-- LDP_W_U (R280) -/
  | ldpWU (o : SY)
  /-- LDP_D (R280) -/
  | ldpD (o : SY)
  /-- STP_B (R280) -/
  | stpB (o : SY)
  /-- STP_H (R280) -/
  | stpH (o : SY)
  /-- STP_W (R280) -/
  | stpW (o : SY)
  /-- STP_D (R280) -/
  | stpD (o : SY)
  /-- AMO_ADD (R281) -/
  | amoAdd (o : SA)
  /-- AMO_AND (R281) -/
  | amoAnd (o : SA)
  /-- AMO_OR (R281) -/
  | amoOr (o : SA)
  /-- AMO_XOR (R281) -/
  | amoXor (o : SA)
  /-- AMO_MIN (R281) -/
  | amoMin (o : SA)
  /-- AMO_MAX (R281) -/
  | amoMax (o : SA)
  /-- AMO_MINU (R281) -/
  | amoMinu (o : SA)
  /-- AMO_MAXU (R281) -/
  | amoMaxu (o : SA)
  /-- AMO_SWAP (R281) -/
  | amoSwap (o : SA)
  /-- CAS (R281) -/
  | cas (o : SA)
  /-- CAS2 (R281) -/
  | cas2 (o : SA)
  /-- REDX (R282) -/
  | redx (o : SAR)
  /-- UADD (R283) -/
  | uadd (o : SU)
  /-- UMIN (R283) -/
  | umin (o : SU)
  /-- UMAX (R283) -/
  | umax (o : SU)
  /-- UAND (R283) -/
  | uand (o : SU)
  /-- UOR (R283) -/
  | uor (o : SU)
  /-- UXOR (R283) -/
  | uxor (o : SU)
  /-- UMIN_F (R283) -/
  | uminF (o : SU)
  /-- UMAX_F (R283) -/
  | umaxF (o : SU)
  /-- FENCE (R182) -/
  | fence (o : SF)
  /-- TCLR (R181) -/
  | tclr (o : STC)
  /-- TSYNC (R181) -/
  | tsync (o : SH)
  /-- TQUERY (R181) -/
  | tquery (o : ST)
  /-- WFE (R134) -/
  | wfe
  /-- SEV (R285) -/
  | sev (o : S1)
  /-- WATCH (R285) -/
  | watch (o : S1)
  /-- TRAP (R285) -/
  | trap (o : SH)
  /-- RETU (R285) -/
  | retu
  /-- CREAD (R286) -/
  | cread (o : SW)
  /-- CWRITE (R286) -/
  | cwrite (o : SW)
  /-- MAPREQ (R164) -/
  | mapreq (o : SWF)
  /-- PGRANT (R234) -/
  | pgrant (o : SWF)
  /-- WATCH_REGISTER (R286) -/
  | watchRegister (o : SWF)
  /-- EVLATCH_WRITE (R286) -/
  | evlatchWrite (o : SWF)
  /-- TRAPBASE_WRITE (R226) -/
  | trapbaseWrite (o : SWF)
  /-- LNCTL_WRITE (R276) -/
  | lnctlWrite (o : SWF)
  /-- CAPR (R287) -/
  | capr (o : SZ)
  /-- WPUSH (R98) -/
  | wpush (o : S2P)
  /-- WPUSH_F (R98) -/
  | wpushF (o : S2P)
  /-- WPOP (R99) -/
  | wpop (o : S2)
  /-- WPOP_W (R99) -/
  | wpopW (o : S2)
  /-- WDONE (R101) -/
  | wdone
  /-- WDONE_Y (R101) -/
  | wdoneY (o : S1)
  /-- WHOLD (R102) -/
  | whold (o : SH)
  /-- WFLOOR (R102) -/
  | wfloor (o : S1)
  /-- WJOIN (R94) -/
  | wjoin (o : S1)
  /-- WLEAVE (R95) -/
  | wleave
  /-- LAUNCH (R289) -/
  | launch (o : S1)
  /-- PHASE (R290) -/
  | phase (o : SH)
  /-- CANCEL_L (R291) -/
  | cancelL (o : SH)
  /-- CANCEL_G (R291) -/
  | cancelG (o : SH)
  /-- CANCEL_P (R291) -/
  | cancelP (o : SH)
  /-- CANCEL_J (R291) -/
  | cancelJ (o : SH)
  /-- CWAIT (R292) -/
  | cwait (o : SH)
  /-- GBAR (R293) -/
  | gbar
  /-- TEND (R294) -/
  | tend
  /-- PDONE (R137) -/
  | pdone
  /-- LDISC (R295) -/
  | ldisc (o : SRD)
  /-- TLBINV (R296) -/
  | tlbinv (o : S1)
  /-- VADD (R303) -/
  | vadd (o : VR)
  /-- VSUB (R303) -/
  | vsub (o : VR)
  /-- VMUL (R303) -/
  | vmul (o : VR)
  /-- VMULH (R303) -/
  | vmulh (o : VR)
  /-- VMAD (R303) -/
  | vmad (o : VR)
  /-- VMIN (R303) -/
  | vmin (o : VR)
  /-- VMAX (R303) -/
  | vmax (o : VR)
  /-- VABS (R303) -/
  | vabs (o : VR)
  /-- VNEG (R303) -/
  | vneg (o : VR)
  /-- VAND (R303) -/
  | vand (o : VR)
  /-- VOR (R303) -/
  | vor (o : VR)
  /-- VXOR (R303) -/
  | vxor (o : VR)
  /-- VSHL (R303) -/
  | vshl (o : VR)
  /-- VSHR (R303) -/
  | vshr (o : VR)
  /-- VSRA (R303) -/
  | vsra (o : VR)
  /-- VADDS (R304) -/
  | vadds (o : VR)
  /-- VSUBS (R304) -/
  | vsubs (o : VR)
  /-- VQSHR (R304) -/
  | vqshr (o : VR)
  /-- VDOT2 (R305) -/
  | vdot2 (o : VR)
  /-- VPACK (R304) -/
  | vpack (o : VR)
  /-- VUNPK (R304) -/
  | vunpk (o : VR)
  /-- VSEL (R306) -/
  | vsel (o : VR)
  /-- VCMP_EQ (R306) -/
  | vcmpEq (o : VR)
  /-- VCMP_NE (R306) -/
  | vcmpNe (o : VR)
  /-- VCMP_LT (R306) -/
  | vcmpLt (o : VR)
  /-- VCMP_LTU (R306) -/
  | vcmpLtu (o : VR)
  /-- VCMP_GE (R306) -/
  | vcmpGe (o : VR)
  /-- VCMP_GEU (R306) -/
  | vcmpGeu (o : VR)
  /-- VRED_ADD (R307) -/
  | vredAdd (o : VR)
  /-- VRED_MIN (R307) -/
  | vredMin (o : VR)
  /-- VRED_MAX (R307) -/
  | vredMax (o : VR)
  /-- VNOP (R255) -/
  | vnop (o : VN)
  /-- FADD (R308) -/
  | fadd (o : VR)
  /-- FSUB (R308) -/
  | fsub (o : VR)
  /-- FMUL (R308) -/
  | fmul (o : VR)
  /-- FFMA (R308) -/
  | ffma (o : VR)
  /-- FMIN (R308) -/
  | fmin (o : VR)
  /-- FMAX (R308) -/
  | fmax (o : VR)
  /-- FABS (R308) -/
  | fabs (o : VR)
  /-- FNEG (R308) -/
  | fneg (o : VR)
  /-- FCMP_EQ (R308) -/
  | fcmpEq (o : VR)
  /-- FCMP_NE (R308) -/
  | fcmpNe (o : VR)
  /-- FCMP_LT (R308) -/
  | fcmpLt (o : VR)
  /-- FCMP_LE (R308) -/
  | fcmpLe (o : VR)
  /-- FCMP_UN (R308) -/
  | fcmpUn (o : VR)
  /-- FCVT (R309) -/
  | fcvt (o : VR)
  /-- FDIV (R310) -/
  | fdiv (o : VR)
  /-- FRED (R311) -/
  | fred (o : VR)
  /-- FEXP (R310) -/
  | fexp (o : VR)
  /-- FEXP2 (R310) -/
  | fexp2 (o : VR)
  /-- FLOG (R310) -/
  | flog (o : VR)
  /-- FLOG2 (R310) -/
  | flog2 (o : VR)
  /-- FSIN (R310) -/
  | fsin (o : VR)
  /-- FCOS (R310) -/
  | fcos (o : VR)
  /-- FTANH (R310) -/
  | ftanh (o : VR)
  /-- FSIGM (R310) -/
  | fsigm (o : VR)
  /-- FERF (R310) -/
  | ferf (o : VR)
  /-- FRCP (R310) -/
  | frcp (o : VR)
  /-- FRSQ (R310) -/
  | frsq (o : VR)
  /-- FSQRT (R310) -/
  | fsqrt (o : VR)
  /-- XSADD (R312) -/
  | xsadd (o : VR)
  /-- XSFOLD (R312) -/
  | xsfold (o : VR)
  /-- XSROUND (R312) -/
  | xsround (o : VR)
  /-- XPMUL (R313) -/
  | xpmul (o : VR)
  /-- XPADD (R313) -/
  | xpadd (o : VR)
  /-- XPROUND (R313) -/
  | xpround (o : VR)
  /-- VMXQ (R314) -/
  | vmxq (o : VR)
  /-- VMXD (R314) -/
  | vmxd (o : VR)
  /-- VSHUF (R316) -/
  | vshuf (o : VR)
  /-- VPLD (R316) -/
  | vpld (o : VR)
  /-- VPSW (R316) -/
  | vpsw (o : VN)
  /-- VBCST (R316) -/
  | vbcst (o : VR)
  /-- MAND (R317) -/
  | mand (o : VR)
  /-- MOR (R317) -/
  | mor (o : VR)
  /-- MNOT (R317) -/
  | mnot (o : VR)
  /-- MPOP (R317) -/
  | mpop (o : VR)
  /-- VLDP (R319) -/
  | vldp (o : VM)
  /-- VLDP_DEC (R320) -/
  | vldpDec (o : VM)
  /-- VSTP (R319) -/
  | vstp (o : VM)
  /-- VLD (R321) -/
  | vld (o : VM)
  /-- VST (R321) -/
  | vst (o : VM)
  /-- VGATH (R322) -/
  | vgath (o : VM)
  /-- VSCAT (R322) -/
  | vscat (o : VM)
  /-- MMA_BF16 (R330) -/
  | mmaBf16 (o : MA)
  /-- MMA_F8 (R330) -/
  | mmaF8 (o : MA)
  /-- MMA_E2M1 (R330) -/
  | mmaE2m1 (o : MA)
  /-- MMA_I8 (R330) -/
  | mmaI8 (o : MA)
  /-- MMA_I6 (R330) -/
  | mmaI6 (o : MA)
  /-- MMA_I4 (R330) -/
  | mmaI4 (o : MA)
  /-- MMAS_BF16 (R331) -/
  | mmasBf16 (o : MAS)
  /-- MMAS_F8 (R331) -/
  | mmasF8 (o : MAS)
  /-- MMAS_E2M1 (R331) -/
  | mmasE2m1 (o : MAS)
  /-- MMAS_I8 (R331) -/
  | mmasI8 (o : MAS)
  /-- MMAS_I4 (R331) -/
  | mmasI4 (o : MAS)
  /-- MZERO (R333) -/
  | mzero (o : MZ)
  /-- MLOAD (R334) -/
  | mload (o : MLD)
  /-- MADD (R333) -/
  | madd (o : MT)
  /-- MCOPY (R333) -/
  | mcopy (o : MT)
  /-- MTRN (R333) -/
  | mtrn (o : MT)
  /-- MROT (R335) -/
  | mrot (o : MG)
  /-- MDRAIN (R336) -/
  | mdrain (o : MG)
  /-- MDRAINX (R338) -/
  | mdrainx (o : MGX)
  /-- GSET (R326) -/
  | gset (o : MD)
  /-- GGET (R326) -/
  | gget (o : MD)
  /-- MCAP (R339) -/
  | mcap (o : MK)
  /-- MWAIT (R340) -/
  | mwait
  /-- XMOV_SV (R345) -/
  | xmovSv (o : CX)
  /-- XMOV_VS (R345) -/
  | xmovVs (o : CX)
  /-- XMOV_VW (R345) -/
  | xmovVw (o : CX0)
  /-- XMOV_WV (R345) -/
  | xmovWv (o : CX0)
  /-- XMOV_SC (R345) -/
  | xmovSc (o : CX0)
  /-- XMOV_CS (R345) -/
  | xmovCs (o : CX0)
  /-- XMOV_SD (R345) -/
  | xmovSd (o : CX0)
  /-- XMOV_DS (R345) -/
  | xmovDs (o : CX0)
  /-- XMOV_ZV (R346) -/
  | xmovZv (o : CZ)
  /-- XMOV_VZ (R346) -/
  | xmovVz (o : CZ)
  /-- XMOV_KV (R345) -/
  | xmovKv (o : CXK)
  /-- CADD (R347) -/
  | cadd (o : CA)
  /-- CMOVI (R347) -/
  | cmovi (o : CM)
  /-- CLEA (R347) -/
  | clea (o : CE)
  /-- TLOOK (R151) -/
  | tlook (o : CT2)
  /-- TINS (R152) -/
  | tins (o : CTI)
  /-- TDEL (R152) -/
  | tdel (o : CTD)
  /-- TSCAN (R373) -/
  | tscan (o : CT2)
  /-- BFMT_READ (R374) -/
  | bfmtRead (o : CTB)
  /-- BFMT_WRITE (R374) -/
  | bfmtWrite (o : CTB)
  /-- PCARVE (R375) -/
  | pcarve (o : CN)
  /-- CNOP (R344) -/
  | cnop (o : CN)
  /-- QCOPY (R353) -/
  | qcopy (o : CQ)
  /-- QGATH (R354) -/
  | qgath (o : CQ)
  /-- QSCAT (R354) -/
  | qscat (o : CQ)
  /-- QDEC (R358) -/
  | qdec (o : CQ)
  /-- QACK (R359) -/
  | qack (o : CWA)
  /-- QCOLL_CONTRIBUTE (R367) -/
  | qcollContribute (o : CQ)
  /-- QCOLL_DESTINATION (R368) -/
  | qcollDestination (o : CQ)
  /-- QPUT (R361) -/
  | qput (o : CQ)
  /-- QPUTS (R362) -/
  | qputs (o : CQ)
  /-- QPUTM (R363) -/
  | qputm (o : CQ)
  /-- QGET (R361) -/
  | qget (o : CQ)
  /-- QCEL (R364) -/
  | qcel (o : CQ)
  /-- QFENCE (R192) -/
  | qfence (o : CWF)
  /-- QWAIT (R370) -/
  | qwait (o : CW)
  /-- QSTAT (R371) -/
  | qstat (o : CW)
  /-- QIRQ_RESTART (R372) -/
  | qirqRestart (o : CW)
  /-- QIRQ_DISCARD (R372) -/
  | qirqDiscard (o : CW)
  /-- QIRQ_MARK (R372) -/
  | qirqMark (o : CW)
  /-- BTREE (R247) -/
  | btree (t : Tree)
  /-- UNASSIGNED_OPCODE (R256) -/
  | unassignedOpcode (w : Syllable)
  /-- BAR2_RESIZE (R54) -/
  | bar2Resize (fn : Fin 9) (log : Nat)
  /-- BOUNDED_RESULT_WRITE (R120) -/
  | boundedResultWrite
  deriving DecidableEq, Repr

end Sys2Proof
end

