-- ==== Sys2Proof/WellFormed.lean ====
section
/-!
DEFINITION. Which operations are well formed: `formOk` is what R250 answers with ILLEGAL_INSTR, `operandOk` what it
answers with ILLEGAL_OPERAND at decode.
-/
namespace Sys2Proof

/-- Joins an immediate field with its extension's 28 bits above it, sign-extended to 64 bits (R249). -/
def joinImm {n : Nat} (i : BitVec n) (e : Option (BitVec 28)) : Word :=
  match e with
  | none => i.signExtend 64
  | some x => (x ++ i).signExtend 64

/-- Which fields a vector register form uses (R252, R298, R303 to R317). -/
structure VUse where
  d : Bool
  b : Bool
  m : Bool
  t : Bool
  c : Bool
  rm : Bool
  fi : Bool
  fo : Bool
  i : BitVec 12
  need : Bool
  deriving DecidableEq, Repr

/-- The operands of a vector register form and the fields its form uses. -/
def Instr.vr? (i : Instr) : Option (VR × VUse) :=
  match i with
  | .vadd o | .vsub o | .vmul o | .vand o | .vor o | .vxor o | .vshl o | .vshr o | .vsra o | .vpack o | .vsel o | .vcmpEq o | .vcmpNe o | .vcmpLt o | .vcmpLtu o | .vcmpGe o | .vcmpGeu o | .fmin o | .fmax o | .fcmpEq o | .fcmpNe o | .fcmpLt o | .fcmpLe o | .fcmpUn o =>
    some (o, ⟨true, true, true, true, false, false, false, false, 0x000, false⟩)
  | .vmulh o | .vmin o | .vmax o | .vadds o | .vsubs o =>
    some (o, ⟨true, true, true, true, false, false, false, false, 0x800, false⟩)
  | .vabs o | .vneg o | .vredAdd o | .fabs o | .fneg o =>
    some (o, ⟨true, false, true, true, false, false, false, false, 0x000, false⟩)
  | .vqshr o =>
    some (o, ⟨true, true, true, true, false, false, false, false, 0x83F, false⟩)
  | .vdot2 o =>
    some (o, ⟨true, true, true, false, true, false, false, false, 0x001, false⟩)
  | .vunpk o =>
    some (o, ⟨true, false, true, true, false, false, false, false, 0x801, false⟩)
  | .vredMin o | .vredMax o =>
    some (o, ⟨true, false, true, true, false, false, false, false, 0x800, false⟩)
  | .fadd o | .fsub o | .fmul o =>
    some (o, ⟨true, true, true, true, false, true, false, false, 0x000, false⟩)
  | .fdiv o =>
    some (o, ⟨true, true, true, true, false, true, false, true, 0x000, false⟩)
  | .fred o =>
    some (o, ⟨true, false, true, false, false, true, false, true, 0x000, false⟩)
  | .fexp o | .fexp2 o | .flog o | .flog2 o | .fsin o | .fcos o | .ftanh o | .fsigm o | .ferf o | .frcp o | .frsq o | .fsqrt o =>
    some (o, ⟨true, false, true, true, false, true, false, true, 0x000, false⟩)
  | .xsadd o | .xpmul o =>
    some (o, ⟨true, true, true, false, false, false, false, false, 0x000, false⟩)
  | .xsfold o =>
    some (o, ⟨true, true, false, false, false, false, false, false, 0x7FF, false⟩)
  | .xsround o | .xpround o =>
    some (o, ⟨true, false, false, false, false, true, false, true, 0x000, false⟩)
  | .xpadd o | .vshuf o =>
    some (o, ⟨true, true, true, false, false, false, false, false, 0x7FF, false⟩)
  | .vmxq o =>
    some (o, ⟨true, false, false, false, false, false, false, true, 0x000, false⟩)
  | .vmxd o =>
    some (o, ⟨true, false, true, false, false, true, true, false, 0x000, false⟩)
  | .vpld o =>
    some (o, ⟨false, false, false, false, false, false, false, false, 0x7FF, false⟩)
  | .vbcst o =>
    some (o, ⟨true, false, true, true, false, false, false, false, 0x7FF, false⟩)
  | .mand o | .mor o =>
    some (o, ⟨true, true, false, false, false, false, false, false, 0x000, false⟩)
  | .mnot o =>
    some (o, ⟨true, false, false, false, false, false, false, false, 0x000, false⟩)
  | .mpop o =>
    some (o, ⟨true, false, false, true, false, false, false, false, 0x000, false⟩)
  | .vmad o =>
    some (o, ⟨true, true, true, true, true, false, false, false, 0x000, true⟩)
  | .ffma o =>
    some (o, ⟨true, true, true, true, true, true, false, false, 0x000, true⟩)
  | .fcvt o =>
    some (o, ⟨true, false, true, false, false, true, true, true, 0x000, true⟩)
  | _ => none

/-- The vector slot an operation names (R114). -/
def Instr.slotV (i : Instr) : Option VSlot :=
  match i.vr? with
  | some (o, _) => some o.v
  | none =>
    match i with
    | .vnop o | .vpsw o => some o.v
    | .vldp o | .vldpDec o | .vstp o | .vld o | .vst o | .vgath o | .vscat o => some o.v
    | _ => none

/-- The copy slot an operation names (R114). -/
def Instr.slotC (i : Instr) : Option CSlot :=
  match i with
  | .cnop o | .pcarve o => some o.v
  | .xmovSv o | .xmovVs o => some o.v
  | .xmovVw o | .xmovWv o | .xmovSc o | .xmovCs o | .xmovSd o | .xmovDs o => some o.v
  | .xmovKv o => some o.v
  | .xmovZv o | .xmovVz o => some o.v
  | .cadd o => some o.v
  | .cmovi o => some o.v
  | .clea o => some o.v
  | .qcopy o | .qgath o | .qscat o | .qdec o | .qcollContribute o | .qcollDestination o | .qput o | .qputs o | .qputm o | .qget o | .qcel o => some o.v
  | .qfence o => some o.v
  | .qwait o | .qstat o | .qirqRestart o | .qirqDiscard o | .qirqMark o => some o.v
  | .qack o => some o.v
  | .tlook o | .tscan o => some o.v
  | .tins o => some o.v
  | .tdel o => some o.v
  | .bfmtRead o | .bfmtWrite o => some o.v
  | _ => none

/-- A vector register form leaves the fields it does not use zero, and has its group where it is required (R250, R298). -/
def VR.formOk (o : VR) (u : VUse) : Bool :=
  (u.d || o.d == 0) && (u.b || o.b == 0) && (u.m || o.m == 0) && (u.t || o.t == 0) &&
  (match o.g with
   | none => !u.need
   | some g =>
     (u.c || g.c == 0) && (u.rm || g.rm == 0) && (u.fi || g.fi == 0) && (u.fo || g.fo == 0) &&
     (g.i &&& ~~~ u.i) == 0)

/-- The immediate I of a vector form; zero when the group is absent (R252). -/
def VR.imm (o : VR) : BitVec 12 := match o.g with | none => 0 | some g => g.i
/-- The third source C (R252). -/
def VR.third (o : VR) : BitVec 5 := match o.g with | none => 0 | some g => g.c
/-- The rounding mode RM (R202, R252). -/
def VR.rm (o : VR) : BitVec 2 := match o.g with | none => 0 | some g => g.rm
/-- The input format IF (R252). -/
def VR.fin (o : VR) : BitVec 4 := match o.g with | none => 0 | some g => g.fi
/-- The output format OF (R252). -/
def VR.fout (o : VR) : BitVec 4 := match o.g with | none => 0 | some g => g.fo
/-- The U bit I[11] (R298). -/
def VR.unsig (o : VR) : Bool := o.imm.getLsbD 11

/-- The tests of a tree (R246). -/
def Tree.tests (t : Tree) : Nat := t.nt.toNat + 1

/-- A tree's shape is legal, its unused fields are zero and it has one offset per leaf (R241, R246, R247). -/
def Tree.formOk (t : Tree) : Bool :=
  decide (t.shape.toNat ≤ 1) && !(t.shape == 1 && t.nt == 0) &&
  (decide (1 < t.tests) || t.p1 == 0) && (decide (2 < t.tests) || t.p2 == 0) && (decide (3 < t.tests) || t.p3 == 0) &&
  decide (t.pol.toNat < 2 ^ t.tests) && decide (t.offs.length = t.tests)

/-- The numbers of the assigned control registers that a program may read (R118, R229, R234). -/
def crReadable (n : Nat) : Bool :=
  n ≤ 3 || n == 8 || n == 9 || (0x10 ≤ n && n ≤ 0x14) || (0x18 ≤ n && n ≤ 0x1D) || (0x20 ≤ n && n ≤ 0x27) ||
  (0x30 ≤ n && n ≤ 0x36) || n == 0x38 || n == 0x39 || (0x40 ≤ n && n ≤ 0x45) || (0x48 ≤ n && n ≤ 0x4D) ||
  (0x80 ≤ n && n ≤ 0xAF) || (0x100 ≤ n && n ≤ 0x107)

/-- The numbers of the control registers a program may write: those not marked RO (R118, R229, R234). -/
def crWritable (n : Nat) : Bool :=
  n == 0x20 || n == 0x21 || n == 0x22 || n == 0x25 || n == 0x26 || n == 0x27 || n == 0x38 || n == 0x39 ||
  (0x40 ≤ n && n ≤ 0x45) || (0x48 ≤ n && n ≤ 0x4D) || (0x80 ≤ n && n ≤ 0xAF) ||
  n == 0x100 || n == 0x101 || n == 0x102 || n == 0x105 || n == 0x106

/-- The control registers whose write is a row of its own (log 7). -/
def crNamed (n : Nat) : Bool :=
  n == 0x106 || n == 0x105 || n == 0x27 || n == 0x26 || n == 0x20 || n == 0x38

/-- What R250 answers with ILLEGAL_INSTR: placement (R255), unused fields not zero, a missing or superfluous group. An I that selects no form of an
xsfold or xpadd leaves no field of it unused: it is ILLEGAL_OPERAND whatever they hold (R313). -/
def Instr.formOk (i : Instr) : Bool :=
  match i.vr? with
  | some (o, u) =>
    o.formOk u &&
    (match i with
     | .fexp o | .fexp2 o | .flog o | .flog2 o | .fsin o | .fcos o | .ftanh o | .fsigm o | .ferf o | .frcp o | .frsq o | .fsqrt o | .fdiv o => o.v == .v0
     | .xsfold o => o.imm != 1 || o.b == 0
     | .xpadd o => (o.imm != 2 || o.b == 0) && (!(o.imm == 0 || o.imm == 2) || o.m == 0)
     | .vdot2 o => o.imm == 1 || o.third == 0
     | _ => true)
  | none =>
    match i with
    | .xmovSc o | .xmovCs o => o.v == .c0
    | .xmovSd o | .xmovDs o => o.v == .c1
    | .btree t => t.formOk
    | .mmaBf16 o | .mmaE2m1 o | .mmaI8 o | .mmaI6 o => o.p == 0
    | .mmasBf16 o | .mmasE2m1 o | .mmasI8 o => o.p == 0
    | .vldp o | .vldpDec o | .vstp o =>
      o.b == 0 && (match o.g with | none => true | some g => g.cl == 0)
    | .vld o | .vst o => o.b == 0
    | .vgath o | .vscat o => (match o.g with | none => true | some g => g.cl == 0)
    | .tclr o => !(o.f == 6) || o.n == 0
    | .tquery o => !(o.f == 6) || o.n == 0
    | .cwait o => o.i.toNat < 2 ^ 14
    | .cwrite o => !crNamed o.n.toNat
    | _ => true

/-- A taint file code and number that exist (R251 ST, R284). -/
def taintNameOk (f : BitVec 3) (n : BitVec 6) : Bool :=
  match f.toNat with
  | 0 => true
  | 1 => n.toNat < 16
  | 2 => n.toNat < 32
  | 3 => n.toNat < 32
  | 4 => n.toNat < 16
  | 5 => n.toNat < 16
  | 6 => true
  | _ => false

/-- The group of an atomic names device or fabric scope; FO only where the form has a failure order (R281). -/
def SAG.ok (g : Option SAG) (cas : Bool) : Bool :=
  match g with
  | none => true
  | some g => decide (2 ≤ g.sco.toNat) && (cas || g.fo == 0)

/-- A floating-point lane type: FP32 or BF16 (R252). -/
def VR.fpT (o : VR) : Bool := o.t.toNat ≤ 1
/-- An output format of the functions and roundings: 0 to 4 (R310, R311, R312). -/
def VR.outOk (o : VR) : Bool := o.fout.toNat ≤ 4
/-- Formats fcvt accepts (R309). -/
def cvtOk (f : BitVec 4) : Bool := f.toNat ≤ 4 || f.toNat == 9 || f.toNat == 10
/-- An MX format code (R314). -/
def mxOk (f : BitVec 4) : Bool := 5 ≤ f.toNat && f.toNat ≤ 8
/-- A command group of `n` registers from `r` ends in its file (R349). -/
def CQ.fits (o : CQ) (n : Nat) : Bool := o.r.toNat + n ≤ 16
/-- A register number is even. -/
def even {n : Nat} (r : BitVec n) : Bool := r.toNat % 2 == 0
/-- A register number is a multiple of 4. -/
def quad {n : Nat} (r : BitVec n) : Bool := r.toNat % 4 == 0

/-- Tiles that mrot of size code p writes (R335). -/
def rotTiles (p : BitVec 2) : Nat := match p.toNat with | 2 => 8 | 1 => 2 | _ => 1

/-- What R250 and the instruction chapters answer with ILLEGAL_OPERAND at decode. -/
def Instr.operandOk (i : Instr) : Bool :=
  match i with
  | .sext o | .zext o => o.x != 3
  | .bfx o | .bfi o => o.p.toNat + o.w.toNat + 1 ≤ 64
  | .shli o | .shri o | .srai o => (joinImm o.i o.e).toNat ≤ 63
  | .lnest o => 1 ≤ o.n.toNat && o.n.toNat ≤ 6 && o.a.toNat + o.n.toNat ≤ 64
  | .acq o => !(o.s == 0 && o.v == 0 && o.w == 0 && o.c == 0 && o.d == 0 && (o.k.getD 0) == 0)
  | .acqF o => !(o.s == 0 && o.v == 0 && o.w == 0 && o.c == 0 && o.d == 0 && o.k == 0)
  | .ldaW o | .ldaD o | .stlW o | .stlD o => 2 ≤ o.sco.toNat
  | .amoAdd o | .amoAnd o | .amoOr o | .amoXor o | .amoMin o | .amoMax o | .amoMinu o | .amoMaxu o | .amoSwap o => SAG.ok o.g false
  | .cas o => SAG.ok o.g true
  | .cas2 o => SAG.ok o.g true && even o.d && even o.b && (match o.g with | none => true | some g => g.w == 0)
  | .redx o => SAG.ok o.g false
  | .uadd o | .uand o | .uor o | .uxor o => o.u == 0
  | .uminF o | .umaxF o => o.u == 0 && o.w == 0
  | .tclr o => taintNameOk o.f o.n
  | .tquery o => taintNameOk o.f o.n
  | .cread o => crReadable o.n.toNat
  | .cwrite o => crWritable o.n.toNat
  | .wpush o | .wpushF o => quad o.r
  | .wpop o | .wpopW o => quad o.r && even o.k
  | .wdoneY o => quad o.r
  | .whold o => o.i.toNat ≤ 1
  | .phase o | .cancelP o => o.i.toNat ≤ 63
  | .cancelL o => o.i.toNat ≤ 4095
  | .cancelG o => o.i.toNat ≤ 255
  | .cancelJ o => o.i == 0
  | .cwait o =>
    (match (o.i.toNat / 4096) % 4 with
     | 0 => true
     | 1 => o.i.toNat % 4096 ≤ 255
     | 2 => o.i.toNat % 4096 ≤ 63
     | _ => o.i.toNat % 4096 == 0)
  | .vqshr o => o.t != 2 && (o.imm.toNat % 64 < (match o.t.toNat with | 0 => 32 | 1 => 16 | _ => 64))
  | .vpack o | .vunpk o => o.t != 2
  | .vcmpEq o | .vcmpNe o | .vcmpLt o | .vcmpLtu o | .vcmpGe o | .vcmpGeu o => o.d.toNat < 8
  | .fcmpEq o | .fcmpNe o | .fcmpLt o | .fcmpLe o | .fcmpUn o => o.d.toNat < 8 && o.fpT
  | .fadd o | .fsub o | .fmul o | .ffma o | .fmin o | .fmax o | .fabs o | .fneg o => o.fpT
  | .fexp o | .fexp2 o | .flog o | .flog2 o | .fsin o | .fcos o | .ftanh o | .fsigm o | .ferf o | .frcp o | .frsq o | .fsqrt o | .fdiv o => o.fpT && o.outOk
  | .fcvt o => cvtOk o.fin && cvtOk o.fout
  | .fred o => o.outOk
  | .xsadd o => even o.d && even o.a
  | .xsfold o => even o.d && even o.a && even o.b && o.imm.toNat ≤ 1
  | .xsround o => even o.a && o.outOk
  | .xpmul o => quad o.d
  | .xpadd o => quad o.d && quad o.a && (o.imm == 1 || quad o.b) && o.imm.toNat ≤ 2
  | .xpround o => quad o.a && o.outOk
  | .vmxq o => mxOk o.fout
  | .vmxd o => mxOk o.fin
  | .vshuf o | .vpld o => o.imm.toNat ≤ 63
  | .vbcst o => o.imm.toNat < (match o.t.toNat with | 0 => 64 | 1 => 128 | 2 => 256 | _ => 32)
  | .mand o | .mor o => o.d.toNat < 8 && o.a.toNat < 8 && o.b.toNat < 8
  | .mnot o => o.d.toNat < 8 && o.a.toNat < 8
  | .mpop o => o.a.toNat < 8
  | .mmaBf16 o | .mmaF8 o | .mmaE2m1 o | .mmaI8 o | .mmaI6 o | .mmaI4 o => o.z.toNat < Config.tiles
  | .mmasBf16 o | .mmasF8 o | .mmasE2m1 o | .mmasI8 o | .mmasI4 o => o.z.toNat < Config.tiles
  | .mzero o => o.z.toNat < Config.tiles
  | .madd o | .mcopy o | .mtrn o => o.z.toNat < Config.tiles && o.y.toNat < Config.tiles
  | .mload o => o.z.toNat < Config.tiles
  | .mrot o => o.p != 3 && o.z.toNat + rotTiles o.p ≤ Config.tiles
  | .mdrain o => o.z.toNat < Config.tiles
  | .mdrainx o => o.z.toNat < Config.tiles
  | .gset o | .gget o => even o.c
  | .mcap o => o.k.toNat ≤ 10
  | .xmovSv o => o.d.toNat < 32 && o.l.toNat < 32
  | .xmovVs o => o.a.toNat < 32 && o.l.toNat < 32
  | .xmovVw o | .xmovWv o => o.d.toNat < 32 && o.a.toNat < 32
  | .xmovSc o | .xmovSd o => o.d.toNat < 16
  | .xmovCs o | .xmovDs o => o.a.toNat < 16
  | .xmovKv o => o.d.toNat < 32 && o.l.toNat < 32
  | .xmovZv o | .xmovVz o => o.z.toNat < Config.tiles && o.h.toNat < 16
  | .qcopy o | .qdec o => o.fits 3
  | .qgath o | .qscat o | .qput o | .qget o | .qcel o => o.fits 4
  | .qcollContribute o | .qcollDestination o | .qputs o => o.fits 5
  | .qputm o => o.fits 6
  | .qfence o => o.qm != 0
  | .qack o => o.q == 2
  | _ => true

/-- An operation is well formed: the decoder accepts its encoding (R250). -/
def Instr.wf (i : Instr) : Bool := i.formOk && i.operandOk

end Sys2Proof
end

