-- ==== Sys2Proof/Decode.lean ====
section
/-!
DEFINITION. The decoder of operation syllables, total and refusing by name, and the encoder (R239, R249 to R259).
A payload's fields are read once, here; the machine never sees an encoding.
The compiler has no code for constructors past the 245th of one type, so the definitions that build an `Instr` are
marked noncomputable; the kernel evaluates them.
-/
namespace Sys2Proof

/-- Why a syllable is no operation (R250): the two decode faults. -/
inductive DecodeFault where
  | illegalInstr
  | illegalOperand
  deriving DecidableEq, Repr

/-- The position an operation takes in its bundle (R114, R240). -/
inductive SlotPos where
  | s
  | v0
  | v1
  | m
  | c0
  | c1
  deriving DecidableEq, Repr

/-- `len` bits of `w` from bit `lo` upward. -/
def field {n : Nat} (w : BitVec n) (lo len : Nat) : BitVec len := BitVec.ofNat len (w.toNat / 2 ^ lo)

/-- The `len` bits of `w` from bit `lo` upward are zero. -/
def zeroAt {n : Nat} (w : BitVec n) (lo len : Nat) : Bool := field w lo len == 0

/-- The op syllable of an opcode and its 20 payload bits, stop bit clear (R239). -/
def opWord (kind opc pay : Nat) : Syllable := BitVec.ofNat 32 (kind * 2 ^ 28 + opc * 2 ^ 20 + pay)

/-- An extension syllable, stop bit clear (R239, R249). -/
def extWord (e : BitVec 28) : Syllable := BitVec.ofNat 32 (5 * 2 ^ 28 + e.toNat)

/-- The stop bit of a syllable (R239). -/
def stopBit : Syllable := BitVec.ofNat 32 (2 ^ 31)

/-- Reads the group `SAG` (R251, R252). -/
def parseSAG (e : BitVec 28) : Except DecodeFault SAG :=
  if zeroAt e 8 4 then .ok { cl := field e 0 4, sco := field e 4 2, w := field e 6 1, fo := field e 7 1, m := field e 12 16 } else .error .illegalInstr

/-- The extension bits of the group `SAG`. -/
def packSAG (g : SAG) : BitVec 28 :=
  BitVec.ofNat 28 (g.cl.toNat * 2 ^ 0 + g.sco.toNat * 2 ^ 4 + g.w.toNat * 2 ^ 6 + g.fo.toNat * 2 ^ 7 + g.m.toNat * 2 ^ 12)

/-- Reads the group `VRG` (R251, R252). -/
def parseVRG (e : BitVec 28) : Except DecodeFault VRG :=
  if zeroAt e 5 1 then .ok { c := field e 0 5, rm := field e 6 2, fi := field e 8 4, fo := field e 12 4, i := field e 16 12 } else .error .illegalInstr

/-- The extension bits of the group `VRG`. -/
def packVRG (g : VRG) : BitVec 28 :=
  BitVec.ofNat 28 (g.c.toNat * 2 ^ 0 + g.rm.toNat * 2 ^ 6 + g.fi.toNat * 2 ^ 8 + g.fo.toNat * 2 ^ 12 + g.i.toNat * 2 ^ 16)

/-- Reads the group `VMG` (R251, R252). -/
def parseVMG (e : BitVec 28) : Except DecodeFault VMG :=
  .ok { disp := field e 0 24, cl := field e 24 4 }

/-- The extension bits of the group `VMG`. -/
def packVMG (g : VMG) : BitVec 28 :=
  BitVec.ofNat 28 (g.disp.toNat * 2 ^ 0 + g.cl.toNat * 2 ^ 24)

/-- Reads the operands of family `SR3` (R251 to R254). -/
def parseSR3 (w : Syllable) (e : Option (BitVec 28)) : Except DecodeFault SR3 :=
  match e with
  | none =>
    if zeroAt w 0 2 then
      .ok { d := field w 14 6, a := field w 8 6, b := field w 2 6 }
    else .error .illegalInstr
  | some _ => .error .illegalInstr

/-- The payload bits of family `SR3`. -/
def paySR3 (o : SR3) : Nat := o.d.toNat * 2 ^ 14 + o.a.toNat * 2 ^ 8 + o.b.toNat * 2 ^ 2

/-- The extension bits of family `SR3`. -/
def extSR3 (_o : SR3) : Option (BitVec 28) := none

/-- Reads the operands of family `SR2` (R251 to R254). -/
def parseSR2 (w : Syllable) (e : Option (BitVec 28)) : Except DecodeFault SR2 :=
  match e with
  | none =>
    if zeroAt w 0 8 then
      .ok { d := field w 14 6, a := field w 8 6 }
    else .error .illegalInstr
  | some _ => .error .illegalInstr

/-- The payload bits of family `SR2`. -/
def paySR2 (o : SR2) : Nat := o.d.toNat * 2 ^ 14 + o.a.toNat * 2 ^ 8

/-- The extension bits of family `SR2`. -/
def extSR2 (_o : SR2) : Option (BitVec 28) := none

/-- Reads the operands of family `SRX` (R251 to R254). -/
def parseSRX (w : Syllable) (e : Option (BitVec 28)) : Except DecodeFault SRX :=
  match e with
  | none =>
    if zeroAt w 2 6 then
      .ok { d := field w 14 6, a := field w 8 6, x := field w 0 2 }
    else .error .illegalInstr
  | some _ => .error .illegalInstr

/-- The payload bits of family `SRX`. -/
def paySRX (o : SRX) : Nat := o.d.toNat * 2 ^ 14 + o.a.toNat * 2 ^ 8 + o.x.toNat * 2 ^ 0

/-- The extension bits of family `SRX`. -/
def extSRX (_o : SRX) : Option (BitVec 28) := none

/-- Reads the operands of family `SR4` (R251 to R254). -/
def parseSR4 (w : Syllable) (e : Option (BitVec 28)) : Except DecodeFault SR4 :=
  match e with
  | none =>
    .ok { d := field w 14 6, a := field w 8 6, b := field w 2 6, x := field w 0 2 }
  | some _ => .error .illegalInstr

/-- The payload bits of family `SR4`. -/
def paySR4 (o : SR4) : Nat := o.d.toNat * 2 ^ 14 + o.a.toNat * 2 ^ 8 + o.b.toNat * 2 ^ 2 + o.x.toNat * 2 ^ 0

/-- The extension bits of family `SR4`. -/
def extSR4 (_o : SR4) : Option (BitVec 28) := none

/-- Reads the operands of family `SRD` (R251 to R254). -/
def parseSRD (w : Syllable) (e : Option (BitVec 28)) : Except DecodeFault SRD :=
  match e with
  | none =>
    if zeroAt w 0 2 && zeroAt w 14 6 then
      .ok { a := field w 8 6, b := field w 2 6 }
    else .error .illegalInstr
  | some _ => .error .illegalInstr

/-- The payload bits of family `SRD`. -/
def paySRD (o : SRD) : Nat := o.a.toNat * 2 ^ 8 + o.b.toNat * 2 ^ 2

/-- The extension bits of family `SRD`. -/
def extSRD (_o : SRD) : Option (BitVec 28) := none

/-- Reads the operands of family `SX` (R251 to R254). -/
def parseSX (w : Syllable) (e : Option (BitVec 28)) : Except DecodeFault SX :=
  match e with
  | some x =>
    if zeroAt w 0 2 && zeroAt x 4 24 then .ok { d := field w 14 6, a := field w 8 6, b := field w 2 6, k := field x 0 4 }
    else .error .illegalInstr
  | none => .error .illegalInstr

/-- The payload bits of family `SX`. -/
def paySX (o : SX) : Nat := o.d.toNat * 2 ^ 14 + o.a.toNat * 2 ^ 8 + o.b.toNat * 2 ^ 2

/-- The extension bits of family `SX`. -/
def extSX (o : SX) : Option (BitVec 28) := some (BitVec.ofNat 28 (o.k.toNat * 2 ^ 0))

/-- Reads the operands of family `SXB` (R251 to R254). -/
def parseSXB (w : Syllable) (e : Option (BitVec 28)) : Except DecodeFault SXB :=
  match e with
  | some x =>
    if zeroAt w 0 2 && zeroAt x 6 22 then .ok { d := field w 14 6, a := field w 8 6, p := field w 2 6, w := field x 0 6 }
    else .error .illegalInstr
  | none => .error .illegalInstr

/-- The payload bits of family `SXB`. -/
def paySXB (o : SXB) : Nat := o.d.toNat * 2 ^ 14 + o.a.toNat * 2 ^ 8 + o.p.toNat * 2 ^ 2

/-- The extension bits of family `SXB`. -/
def extSXB (o : SXB) : Option (BitVec 28) := some (BitVec.ofNat 28 (o.w.toNat * 2 ^ 0))

/-- Reads the operands of family `SI` (R251 to R254). -/
def parseSI (w : Syllable) (e : Option (BitVec 28)) : Except DecodeFault SI :=
  .ok { d := field w 14 6, a := field w 8 6, i := field w 0 8, e := e }

/-- The payload bits of family `SI`. -/
def paySI (o : SI) : Nat := o.d.toNat * 2 ^ 14 + o.a.toNat * 2 ^ 8 + o.i.toNat * 2 ^ 0

/-- The extension bits of family `SI`. -/
def extSI (o : SI) : Option (BitVec 28) := o.e

/-- Reads the operands of family `SM` (R251 to R254). -/
def parseSM (w : Syllable) (e : Option (BitVec 28)) : Except DecodeFault SM :=
  .ok { d := field w 14 6, i := field w 0 14, e := e }

/-- The payload bits of family `SM`. -/
def paySM (o : SM) : Nat := o.d.toNat * 2 ^ 14 + o.i.toNat * 2 ^ 0

/-- The extension bits of family `SM`. -/
def extSM (o : SM) : Option (BitVec 28) := o.e

/-- Reads the operands of family `SK` (R251 to R254). -/
def parseSK (w : Syllable) (e : Option (BitVec 28)) : Except DecodeFault SK :=
  match e with
  | none =>
    if zeroAt w 0 2 && zeroAt w 14 2 then
      .ok { k := field w 16 4, a := field w 8 6, b := field w 2 6 }
    else .error .illegalInstr
  | some _ => .error .illegalInstr

/-- The payload bits of family `SK`. -/
def paySK (o : SK) : Nat := o.k.toNat * 2 ^ 16 + o.a.toNat * 2 ^ 8 + o.b.toNat * 2 ^ 2

/-- The extension bits of family `SK`. -/
def extSK (_o : SK) : Option (BitVec 28) := none

/-- Reads the operands of family `SJ` (R251 to R254). -/
def parseSJ (w : Syllable) (e : Option (BitVec 28)) : Except DecodeFault SJ :=
  .ok { k := field w 16 4, a := field w 10 6, i := field w 0 10, e := e }

/-- The payload bits of family `SJ`. -/
def paySJ (o : SJ) : Nat := o.k.toNat * 2 ^ 16 + o.a.toNat * 2 ^ 10 + o.i.toNat * 2 ^ 0

/-- The extension bits of family `SJ`. -/
def extSJ (o : SJ) : Option (BitVec 28) := o.e

/-- Reads the operands of family `SP` (R251 to R254). -/
def parseSP (w : Syllable) (e : Option (BitVec 28)) : Except DecodeFault SP :=
  match e with
  | none =>
    if zeroAt w 0 8 then
      .ok { k := field w 16 4, ka := field w 12 4, kb := field w 8 4 }
    else .error .illegalInstr
  | some _ => .error .illegalInstr

/-- The payload bits of family `SP`. -/
def paySP (o : SP) : Nat := o.k.toNat * 2 ^ 16 + o.ka.toNat * 2 ^ 12 + o.kb.toNat * 2 ^ 8

/-- The extension bits of family `SP`. -/
def extSP (_o : SP) : Option (BitVec 28) := none

/-- Reads the operands of family `SP1` (R251 to R254). -/
def parseSP1 (w : Syllable) (e : Option (BitVec 28)) : Except DecodeFault SP1 :=
  match e with
  | none =>
    if zeroAt w 0 12 then
      .ok { k := field w 16 4, ka := field w 12 4 }
    else .error .illegalInstr
  | some _ => .error .illegalInstr

/-- The payload bits of family `SP1`. -/
def paySP1 (o : SP1) : Nat := o.k.toNat * 2 ^ 16 + o.ka.toNat * 2 ^ 12

/-- The extension bits of family `SP1`. -/
def extSP1 (_o : SP1) : Option (BitVec 28) := none

/-- Reads the operands of family `SB` (R251 to R254). -/
def parseSB (w : Syllable) (e : Option (BitVec 28)) : Except DecodeFault SB :=
  .ok { o := field w 0 20, e := e }

/-- The payload bits of family `SB`. -/
def paySB (o : SB) : Nat := o.o.toNat * 2 ^ 0

/-- The extension bits of family `SB`. -/
def extSB (o : SB) : Option (BitVec 28) := o.e

/-- Reads the operands of family `SC` (R251 to R254). -/
def parseSC (w : Syllable) (e : Option (BitVec 28)) : Except DecodeFault SC :=
  .ok { n := field w 19 1, k := field w 15 4, o := field w 0 15, e := e }

/-- The payload bits of family `SC`. -/
def paySC (o : SC) : Nat := o.n.toNat * 2 ^ 19 + o.k.toNat * 2 ^ 15 + o.o.toNat * 2 ^ 0

/-- The extension bits of family `SC`. -/
def extSC (o : SC) : Option (BitVec 28) := o.e

/-- Reads the operands of family `S1` (R251 to R254). -/
def parseS1 (w : Syllable) (e : Option (BitVec 28)) : Except DecodeFault S1 :=
  match e with
  | none =>
    if zeroAt w 0 14 then
      .ok { r := field w 14 6 }
    else .error .illegalInstr
  | some _ => .error .illegalInstr

/-- The payload bits of family `S1`. -/
def payS1 (o : S1) : Nat := o.r.toNat * 2 ^ 14

/-- The extension bits of family `S1`. -/
def extS1 (_o : S1) : Option (BitVec 28) := none

/-- Reads the operands of family `SL` (R251 to R254). -/
def parseSL (w : Syllable) (e : Option (BitVec 28)) : Except DecodeFault SL :=
  match e with
  | none =>
    if zeroAt w 0 5 then
      .ok { a := field w 14 6, n := field w 11 3, b := field w 5 6, p := none }
    else .error .illegalInstr
  | some x =>
    if zeroAt w 0 5 && zeroAt x 20 8 then .ok { a := field w 14 6, n := field w 11 3, b := field w 5 6, p := some (field x 0 20) }
    else .error .illegalInstr

/-- The payload bits of family `SL`. -/
def paySL (o : SL) : Nat := o.a.toNat * 2 ^ 14 + o.n.toNat * 2 ^ 11 + o.b.toNat * 2 ^ 5

/-- The extension bits of family `SL`. -/
def extSL (o : SL) : Option (BitVec 28) := o.p.map (fun x => BitVec.ofNat 28 (x.toNat * 2 ^ 0))

/-- Reads the operands of family `SQ` (R251 to R254). -/
def parseSQ (w : Syllable) (e : Option (BitVec 28)) : Except DecodeFault SQ :=
  match e with
  | none =>
    .ok { s := field w 12 8, v := field w 8 4, w := field w 4 4, c := field w 2 2, d := field w 0 2, k := none }
  | some x =>
    if zeroAt x 2 26 then .ok { s := field w 12 8, v := field w 8 4, w := field w 4 4, c := field w 2 2, d := field w 0 2, k := some (field x 0 2) }
    else .error .illegalInstr

/-- The payload bits of family `SQ`. -/
def paySQ (o : SQ) : Nat := o.s.toNat * 2 ^ 12 + o.v.toNat * 2 ^ 8 + o.w.toNat * 2 ^ 4 + o.c.toNat * 2 ^ 2 + o.d.toNat * 2 ^ 0

/-- The extension bits of family `SQ`. -/
def extSQ (o : SQ) : Option (BitVec 28) := o.k.map (fun x => BitVec.ofNat 28 (x.toNat * 2 ^ 0))

/-- Reads the operands of family `SQF` (R251 to R254). -/
def parseSQF (w : Syllable) (e : Option (BitVec 28)) : Except DecodeFault SQF :=
  match e with
  | some x =>
    if zeroAt x 2 2 && zeroAt x 8 20 then .ok { s := field w 12 8, v := field w 8 4, w := field w 4 4, c := field w 2 2, d := field w 0 2, k := field x 0 2, kp := field x 4 4 }
    else .error .illegalInstr
  | none => .error .illegalInstr

/-- The payload bits of family `SQF`. -/
def paySQF (o : SQF) : Nat := o.s.toNat * 2 ^ 12 + o.v.toNat * 2 ^ 8 + o.w.toNat * 2 ^ 4 + o.c.toNat * 2 ^ 2 + o.d.toNat * 2 ^ 0

/-- The extension bits of family `SQF`. -/
def extSQF (o : SQF) : Option (BitVec 28) := some (BitVec.ofNat 28 (o.k.toNat * 2 ^ 0 + o.kp.toNat * 2 ^ 4))

/-- Reads the operands of family `SG` (R251 to R254). -/
def parseSG (w : Syllable) (e : Option (BitVec 28)) : Except DecodeFault SG :=
  .ok { r := field w 14 6, a := field w 8 6, cl := field w 4 4, o := field w 0 4, e := e }

/-- The payload bits of family `SG`. -/
def paySG (o : SG) : Nat := o.r.toNat * 2 ^ 14 + o.a.toNat * 2 ^ 8 + o.cl.toNat * 2 ^ 4 + o.o.toNat * 2 ^ 0

/-- The extension bits of family `SG`. -/
def extSG (o : SG) : Option (BitVec 28) := o.e

/-- Reads the operands of family `SY` (R251 to R254). -/
def parseSY (w : Syllable) (e : Option (BitVec 28)) : Except DecodeFault SY :=
  .ok { r := field w 14 6, a := field w 8 6, o := field w 0 8, e := e }

/-- The payload bits of family `SY`. -/
def paySY (o : SY) : Nat := o.r.toNat * 2 ^ 14 + o.a.toNat * 2 ^ 8 + o.o.toNat * 2 ^ 0

/-- The extension bits of family `SY`. -/
def extSY (o : SY) : Option (BitVec 28) := o.e

/-- Reads the operands of family `SO` (R251 to R254). -/
def parseSO (w : Syllable) (e : Option (BitVec 28)) : Except DecodeFault SO :=
  match e with
  | some x =>
    if zeroAt w 2 2 && zeroAt x 16 12 then .ok { r := field w 14 6, a := field w 8 6, cl := field w 4 4, sco := field w 0 2, m := field x 0 16 }
    else .error .illegalInstr
  | none => .error .illegalInstr

/-- The payload bits of family `SO`. -/
def paySO (o : SO) : Nat := o.r.toNat * 2 ^ 14 + o.a.toNat * 2 ^ 8 + o.cl.toNat * 2 ^ 4 + o.sco.toNat * 2 ^ 0

/-- The extension bits of family `SO`. -/
def extSO (o : SO) : Option (BitVec 28) := some (BitVec.ofNat 28 (o.m.toNat * 2 ^ 0))

/-- Reads the operands of family `SA` (R251 to R254). -/
def parseSA (w : Syllable) (e : Option (BitVec 28)) : Except DecodeFault SA :=
  match e with
  | none =>
    .ok { d := field w 14 6, a := field w 8 6, b := field w 2 6, o := field w 0 2, g := none }
  | some x =>
    match parseSAG x with
    | .error r => .error r
    | .ok g =>
      .ok { d := field w 14 6, a := field w 8 6, b := field w 2 6, o := field w 0 2, g := some g }

/-- The payload bits of family `SA`. -/
def paySA (o : SA) : Nat := o.d.toNat * 2 ^ 14 + o.a.toNat * 2 ^ 8 + o.b.toNat * 2 ^ 2 + o.o.toNat * 2 ^ 0

/-- The extension bits of family `SA`. -/
def extSA (o : SA) : Option (BitVec 28) := o.g.map packSAG

/-- Reads the operands of family `SAR` (R251 to R254). -/
def parseSAR (w : Syllable) (e : Option (BitVec 28)) : Except DecodeFault SAR :=
  match e with
  | none =>
    if zeroAt w 0 2 && zeroAt w 14 6 then
      .ok { a := field w 8 6, b := field w 2 6, g := none }
    else .error .illegalInstr
  | some x =>
    match parseSAG x with
    | .error r => .error r
    | .ok g =>
      if zeroAt w 0 2 && zeroAt w 14 6 then
        .ok { a := field w 8 6, b := field w 2 6, g := some g }
      else .error .illegalInstr

/-- The payload bits of family `SAR`. -/
def paySAR (o : SAR) : Nat := o.a.toNat * 2 ^ 8 + o.b.toNat * 2 ^ 2

/-- The extension bits of family `SAR`. -/
def extSAR (o : SAR) : Option (BitVec 28) := o.g.map packSAG

/-- Reads the operands of family `SU` (R251 to R254). -/
def parseSU (w : Syllable) (e : Option (BitVec 28)) : Except DecodeFault SU :=
  match e with
  | none =>
    if zeroAt w 14 2 then
      .ok { cl := field w 16 4, a := field w 8 6, b := field w 2 6, u := field w 1 1, w := field w 0 1 }
    else .error .illegalInstr
  | some _ => .error .illegalInstr

/-- The payload bits of family `SU`. -/
def paySU (o : SU) : Nat := o.cl.toNat * 2 ^ 16 + o.a.toNat * 2 ^ 8 + o.b.toNat * 2 ^ 2 + o.u.toNat * 2 ^ 1 + o.w.toNat * 2 ^ 0

/-- The extension bits of family `SU`. -/
def extSU (_o : SU) : Option (BitVec 28) := none

/-- Reads the operands of family `SF` (R251 to R254). -/
def parseSF (w : Syllable) (e : Option (BitVec 28)) : Except DecodeFault SF :=
  match e with
  | some x =>
    if zeroAt w 18 2 && zeroAt x 16 12 then .ok { sco := field w 16 2, mb := field w 0 16, ma := field x 0 16 }
    else .error .illegalInstr
  | none => .error .illegalInstr

/-- The payload bits of family `SF`. -/
def paySF (o : SF) : Nat := o.sco.toNat * 2 ^ 16 + o.mb.toNat * 2 ^ 0

/-- The extension bits of family `SF`. -/
def extSF (o : SF) : Option (BitVec 28) := some (BitVec.ofNat 28 (o.ma.toNat * 2 ^ 0))

/-- Reads the operands of family `STC` (R251 to R254). -/
def parseSTC (w : Syllable) (e : Option (BitVec 28)) : Except DecodeFault STC :=
  match e with
  | none =>
    if zeroAt w 0 5 && zeroAt w 14 6 then
      .ok { f := field w 11 3, n := field w 5 6 }
    else .error .illegalInstr
  | some _ => .error .illegalInstr

/-- The payload bits of family `STC`. -/
def paySTC (o : STC) : Nat := o.f.toNat * 2 ^ 11 + o.n.toNat * 2 ^ 5

/-- The extension bits of family `STC`. -/
def extSTC (_o : STC) : Option (BitVec 28) := none

/-- Reads the operands of family `ST` (R251 to R254). -/
def parseST (w : Syllable) (e : Option (BitVec 28)) : Except DecodeFault ST :=
  match e with
  | none =>
    if zeroAt w 0 5 then
      .ok { r := field w 14 6, f := field w 11 3, n := field w 5 6 }
    else .error .illegalInstr
  | some _ => .error .illegalInstr

/-- The payload bits of family `ST`. -/
def payST (o : ST) : Nat := o.r.toNat * 2 ^ 14 + o.f.toNat * 2 ^ 11 + o.n.toNat * 2 ^ 5

/-- The extension bits of family `ST`. -/
def extST (_o : ST) : Option (BitVec 28) := none

/-- Reads the operands of family `S2` (R251 to R254). -/
def parseS2 (w : Syllable) (e : Option (BitVec 28)) : Except DecodeFault S2 :=
  match e with
  | none =>
    if zeroAt w 0 4 then
      .ok { r := field w 14 6, a := field w 8 6, k := field w 4 4 }
    else .error .illegalInstr
  | some _ => .error .illegalInstr

/-- The payload bits of family `S2`. -/
def payS2 (o : S2) : Nat := o.r.toNat * 2 ^ 14 + o.a.toNat * 2 ^ 8 + o.k.toNat * 2 ^ 4

/-- The extension bits of family `S2`. -/
def extS2 (_o : S2) : Option (BitVec 28) := none

/-- Reads the operands of family `S2P` (R251 to R254). -/
def parseS2P (w : Syllable) (e : Option (BitVec 28)) : Except DecodeFault S2P :=
  match e with
  | none =>
    if zeroAt w 0 8 then
      .ok { r := field w 14 6, a := field w 8 6 }
    else .error .illegalInstr
  | some _ => .error .illegalInstr

/-- The payload bits of family `S2P`. -/
def payS2P (o : S2P) : Nat := o.r.toNat * 2 ^ 14 + o.a.toNat * 2 ^ 8

/-- The extension bits of family `S2P`. -/
def extS2P (_o : S2P) : Option (BitVec 28) := none

/-- Reads the operands of family `SW` (R251 to R254). -/
def parseSW (w : Syllable) (e : Option (BitVec 28)) : Except DecodeFault SW :=
  match e with
  | none =>
    if zeroAt w 12 2 then
      .ok { r := field w 14 6, n := field w 0 12 }
    else .error .illegalInstr
  | some _ => .error .illegalInstr

/-- The payload bits of family `SW`. -/
def paySW (o : SW) : Nat := o.r.toNat * 2 ^ 14 + o.n.toNat * 2 ^ 0

/-- The extension bits of family `SW`. -/
def extSW (_o : SW) : Option (BitVec 28) := none

/-- Reads the operands of family `SWF` (R251 to R254). -/
def parseSWF (fx : Nat) (w : Syllable) (e : Option (BitVec 28)) : Except DecodeFault SWF :=
  match e with
  | none =>
    if field w 0 14 == BitVec.ofNat 14 (fx / 2 ^ 0) then
      .ok { r := field w 14 6 }
    else .error .illegalInstr
  | some _ => .error .illegalInstr

/-- The payload bits of family `SWF`. -/
def paySWF (o : SWF) : Nat := o.r.toNat * 2 ^ 14

/-- The extension bits of family `SWF`. -/
def extSWF (_o : SWF) : Option (BitVec 28) := none

/-- Reads the operands of family `SZ` (R251 to R254). -/
def parseSZ (w : Syllable) (e : Option (BitVec 28)) : Except DecodeFault SZ :=
  match e with
  | none =>
    .ok { r := field w 14 6, a := field w 8 6, t := field w 0 8 }
  | some _ => .error .illegalInstr

/-- The payload bits of family `SZ`. -/
def paySZ (o : SZ) : Nat := o.r.toNat * 2 ^ 14 + o.a.toNat * 2 ^ 8 + o.t.toNat * 2 ^ 0

/-- The extension bits of family `SZ`. -/
def extSZ (_o : SZ) : Option (BitVec 28) := none

/-- Reads the operands of family `SH` (R251 to R254). -/
def parseSH (w : Syllable) (e : Option (BitVec 28)) : Except DecodeFault SH :=
  match e with
  | none =>
    if zeroAt w 16 4 then
      .ok { i := field w 0 16 }
    else .error .illegalInstr
  | some _ => .error .illegalInstr

/-- The payload bits of family `SH`. -/
def paySH (o : SH) : Nat := o.i.toNat * 2 ^ 0

/-- The extension bits of family `SH`. -/
def extSH (_o : SH) : Option (BitVec 28) := none

/-- Reads the operands of family `VN` (R251 to R254). -/
def parseVN (v : VSlot) (w : Syllable) (e : Option (BitVec 28)) : Except DecodeFault VN :=
  match e with
  | none => if zeroAt w 0 20 then .ok { v := v } else .error .illegalInstr
  | some _ => .error .illegalInstr

/-- The payload bits of family `VN`. -/
def payVN (_o : VN) : Nat := 0

/-- The extension bits of family `VN`. -/
def extVN (_o : VN) : Option (BitVec 28) := none

/-- Reads the operands of family `VR` (R251 to R254). -/
def parseVR (v : VSlot) (w : Syllable) (e : Option (BitVec 28)) : Except DecodeFault VR :=
  match e with
  | none =>
    .ok { v := v, d := field w 15 5, a := field w 10 5, b := field w 5 5, m := field w 2 3, t := field w 0 2, g := none }
  | some x =>
    match parseVRG x with
    | .error r => .error r
    | .ok g =>
      .ok { v := v, d := field w 15 5, a := field w 10 5, b := field w 5 5, m := field w 2 3, t := field w 0 2, g := some g }

/-- The payload bits of family `VR`. -/
def payVR (o : VR) : Nat := o.d.toNat * 2 ^ 15 + o.a.toNat * 2 ^ 10 + o.b.toNat * 2 ^ 5 + o.m.toNat * 2 ^ 2 + o.t.toNat * 2 ^ 0

/-- The extension bits of family `VR`. -/
def extVR (o : VR) : Option (BitVec 28) := o.g.map packVRG

/-- Reads the operands of family `VM` (R251 to R254). -/
def parseVM (v : VSlot) (fx : Nat) (w : Syllable) (e : Option (BitVec 28)) : Except DecodeFault VM :=
  match e with
  | none =>
    if field w 0 2 == BitVec.ofNat 2 (fx / 2 ^ 0) then
      .ok { v := v, d := field w 15 5, a := field w 10 5, b := field w 5 5, m := field w 2 3, g := none }
    else .error .illegalInstr
  | some x =>
    match parseVMG x with
    | .error r => .error r
    | .ok g =>
      if field w 0 2 == BitVec.ofNat 2 (fx / 2 ^ 0) then
        .ok { v := v, d := field w 15 5, a := field w 10 5, b := field w 5 5, m := field w 2 3, g := some g }
      else .error .illegalInstr

/-- The payload bits of family `VM`. -/
def payVM (o : VM) : Nat := o.d.toNat * 2 ^ 15 + o.a.toNat * 2 ^ 10 + o.b.toNat * 2 ^ 5 + o.m.toNat * 2 ^ 2

/-- The extension bits of family `VM`. -/
def extVM (o : VM) : Option (BitVec 28) := o.g.map packVMG

/-- Reads the operands of family `MA` (R251 to R254). -/
def parseMA (w : Syllable) (e : Option (BitVec 28)) : Except DecodeFault MA :=
  match e with
  | none =>
    .ok { z := field w 10 10, ga := field w 6 4, gb := field w 2 4, p := field w 0 2 }
  | some _ => .error .illegalInstr

/-- The payload bits of family `MA`. -/
def payMA (o : MA) : Nat := o.z.toNat * 2 ^ 10 + o.ga.toNat * 2 ^ 6 + o.gb.toNat * 2 ^ 2 + o.p.toNat * 2 ^ 0

/-- The extension bits of family `MA`. -/
def extMA (_o : MA) : Option (BitVec 28) := none

/-- Reads the operands of family `MAS` (R251 to R254). -/
def parseMAS (w : Syllable) (e : Option (BitVec 28)) : Except DecodeFault MAS :=
  match e with
  | some x =>
    if zeroAt x 23 5 then .ok { z := field w 10 10, ga := field w 6 4, gb := field w 2 4, p := field w 0 2, md := field x 0 20, mc := field x 20 3 }
    else .error .illegalInstr
  | none => .error .illegalInstr

/-- The payload bits of family `MAS`. -/
def payMAS (o : MAS) : Nat := o.z.toNat * 2 ^ 10 + o.ga.toNat * 2 ^ 6 + o.gb.toNat * 2 ^ 2 + o.p.toNat * 2 ^ 0

/-- The extension bits of family `MAS`. -/
def extMAS (o : MAS) : Option (BitVec 28) := some (BitVec.ofNat 28 (o.md.toNat * 2 ^ 0 + o.mc.toNat * 2 ^ 20))

/-- Reads the operands of family `MZ` (R251 to R254). -/
def parseMZ (w : Syllable) (e : Option (BitVec 28)) : Except DecodeFault MZ :=
  match e with
  | none =>
    if zeroAt w 0 10 then
      .ok { z := field w 10 10 }
    else .error .illegalInstr
  | some _ => .error .illegalInstr

/-- The payload bits of family `MZ`. -/
def payMZ (o : MZ) : Nat := o.z.toNat * 2 ^ 10

/-- The extension bits of family `MZ`. -/
def extMZ (_o : MZ) : Option (BitVec 28) := none

/-- Reads the operands of family `MT` (R251 to R254). -/
def parseMT (w : Syllable) (e : Option (BitVec 28)) : Except DecodeFault MT :=
  match e with
  | none =>
    .ok { z := field w 10 10, y := field w 0 10 }
  | some _ => .error .illegalInstr

/-- The payload bits of family `MT`. -/
def payMT (o : MT) : Nat := o.z.toNat * 2 ^ 10 + o.y.toNat * 2 ^ 0

/-- The extension bits of family `MT`. -/
def extMT (_o : MT) : Option (BitVec 28) := none

/-- Reads the operands of family `MLD` (R251 to R254). -/
def parseMLD (w : Syllable) (e : Option (BitVec 28)) : Except DecodeFault MLD :=
  match e with
  | none =>
    if zeroAt w 0 6 then
      .ok { z := field w 10 10, g := field w 6 4 }
    else .error .illegalInstr
  | some _ => .error .illegalInstr

/-- The payload bits of family `MLD`. -/
def payMLD (o : MLD) : Nat := o.z.toNat * 2 ^ 10 + o.g.toNat * 2 ^ 6

/-- The extension bits of family `MLD`. -/
def extMLD (_o : MLD) : Option (BitVec 28) := none

/-- Reads the operands of family `MG` (R251 to R254). -/
def parseMG (w : Syllable) (e : Option (BitVec 28)) : Except DecodeFault MG :=
  match e with
  | none =>
    if zeroAt w 2 4 then
      .ok { z := field w 10 10, g := field w 6 4, p := field w 0 2 }
    else .error .illegalInstr
  | some _ => .error .illegalInstr

/-- The payload bits of family `MG`. -/
def payMG (o : MG) : Nat := o.z.toNat * 2 ^ 10 + o.g.toNat * 2 ^ 6 + o.p.toNat * 2 ^ 0

/-- The extension bits of family `MG`. -/
def extMG (_o : MG) : Option (BitVec 28) := none

/-- Reads the operands of family `MGX` (R251 to R254). -/
def parseMGX (w : Syllable) (e : Option (BitVec 28)) : Except DecodeFault MGX :=
  match e with
  | some x =>
    if zeroAt w 2 4 && zeroAt x 20 8 then .ok { z := field w 10 10, g := field w 6 4, p := field w 0 2, pa := field x 0 20 }
    else .error .illegalInstr
  | none => .error .illegalInstr

/-- The payload bits of family `MGX`. -/
def payMGX (o : MGX) : Nat := o.z.toNat * 2 ^ 10 + o.g.toNat * 2 ^ 6 + o.p.toNat * 2 ^ 0

/-- The extension bits of family `MGX`. -/
def extMGX (o : MGX) : Option (BitVec 28) := some (BitVec.ofNat 28 (o.pa.toNat * 2 ^ 0))

/-- Reads the operands of family `MD` (R251 to R254). -/
def parseMD (w : Syllable) (e : Option (BitVec 28)) : Except DecodeFault MD :=
  match e with
  | none =>
    if zeroAt w 0 11 then
      .ok { g := field w 16 4, f := field w 15 1, c := field w 11 4 }
    else .error .illegalInstr
  | some _ => .error .illegalInstr

/-- The payload bits of family `MD`. -/
def payMD (o : MD) : Nat := o.g.toNat * 2 ^ 16 + o.f.toNat * 2 ^ 15 + o.c.toNat * 2 ^ 11

/-- The extension bits of family `MD`. -/
def extMD (_o : MD) : Option (BitVec 28) := none

/-- Reads the operands of family `MK` (R251 to R254). -/
def parseMK (w : Syllable) (e : Option (BitVec 28)) : Except DecodeFault MK :=
  match e with
  | none =>
    if zeroAt w 0 16 then
      .ok { k := field w 16 4 }
    else .error .illegalInstr
  | some _ => .error .illegalInstr

/-- The payload bits of family `MK`. -/
def payMK (o : MK) : Nat := o.k.toNat * 2 ^ 16

/-- The extension bits of family `MK`. -/
def extMK (_o : MK) : Option (BitVec 28) := none

/-- Reads the operands of family `CN` (R251 to R254). -/
def parseCN (v : CSlot) (w : Syllable) (e : Option (BitVec 28)) : Except DecodeFault CN :=
  match e with
  | none => if zeroAt w 0 20 then .ok { v := v } else .error .illegalInstr
  | some _ => .error .illegalInstr

/-- The payload bits of family `CN`. -/
def payCN (_o : CN) : Nat := 0

/-- The extension bits of family `CN`. -/
def extCN (_o : CN) : Option (BitVec 28) := none

/-- Reads the operands of family `CX` (R251 to R254). -/
def parseCX (v : CSlot) (w : Syllable) (e : Option (BitVec 28)) : Except DecodeFault CX :=
  match e with
  | none =>
    if zeroAt w 0 2 then
      .ok { v := v, d := field w 14 6, a := field w 8 6, l := field w 2 6 }
    else .error .illegalInstr
  | some _ => .error .illegalInstr

/-- The payload bits of family `CX`. -/
def payCX (o : CX) : Nat := o.d.toNat * 2 ^ 14 + o.a.toNat * 2 ^ 8 + o.l.toNat * 2 ^ 2

/-- The extension bits of family `CX`. -/
def extCX (_o : CX) : Option (BitVec 28) := none

/-- Reads the operands of family `CX0` (R251 to R254). -/
def parseCX0 (v : CSlot) (w : Syllable) (e : Option (BitVec 28)) : Except DecodeFault CX0 :=
  match e with
  | none =>
    if zeroAt w 0 8 then
      .ok { v := v, d := field w 14 6, a := field w 8 6 }
    else .error .illegalInstr
  | some _ => .error .illegalInstr

/-- The payload bits of family `CX0`. -/
def payCX0 (o : CX0) : Nat := o.d.toNat * 2 ^ 14 + o.a.toNat * 2 ^ 8

/-- The extension bits of family `CX0`. -/
def extCX0 (_o : CX0) : Option (BitVec 28) := none

/-- Reads the operands of family `CXK` (R251 to R254). -/
def parseCXK (v : CSlot) (w : Syllable) (e : Option (BitVec 28)) : Except DecodeFault CXK :=
  match e with
  | none =>
    if zeroAt w 0 2 && zeroAt w 8 6 then
      .ok { v := v, d := field w 14 6, l := field w 2 6 }
    else .error .illegalInstr
  | some _ => .error .illegalInstr

/-- The payload bits of family `CXK`. -/
def payCXK (o : CXK) : Nat := o.d.toNat * 2 ^ 14 + o.l.toNat * 2 ^ 2

/-- The extension bits of family `CXK`. -/
def extCXK (_o : CXK) : Option (BitVec 28) := none

/-- Reads the operands of family `CZ` (R251 to R254). -/
def parseCZ (v : CSlot) (w : Syllable) (e : Option (BitVec 28)) : Except DecodeFault CZ :=
  match e with
  | none =>
    .ok { v := v, r := field w 15 5, z := field w 5 10, h := field w 0 5 }
  | some _ => .error .illegalInstr

/-- The payload bits of family `CZ`. -/
def payCZ (o : CZ) : Nat := o.r.toNat * 2 ^ 15 + o.z.toNat * 2 ^ 5 + o.h.toNat * 2 ^ 0

/-- The extension bits of family `CZ`. -/
def extCZ (_o : CZ) : Option (BitVec 28) := none

/-- Reads the operands of family `CA` (R251 to R254). -/
def parseCA (v : CSlot) (w : Syllable) (e : Option (BitVec 28)) : Except DecodeFault CA :=
  .ok { v := v, d := field w 16 4, a := field w 12 4, i := field w 0 12, e := e }

/-- The payload bits of family `CA`. -/
def payCA (o : CA) : Nat := o.d.toNat * 2 ^ 16 + o.a.toNat * 2 ^ 12 + o.i.toNat * 2 ^ 0

/-- The extension bits of family `CA`. -/
def extCA (o : CA) : Option (BitVec 28) := o.e

/-- Reads the operands of family `CM` (R251 to R254). -/
def parseCM (v : CSlot) (w : Syllable) (e : Option (BitVec 28)) : Except DecodeFault CM :=
  .ok { v := v, d := field w 16 4, i := field w 0 16, e := e }

/-- The payload bits of family `CM`. -/
def payCM (o : CM) : Nat := o.d.toNat * 2 ^ 16 + o.i.toNat * 2 ^ 0

/-- The extension bits of family `CM`. -/
def extCM (o : CM) : Option (BitVec 28) := o.e

/-- Reads the operands of family `CE` (R251 to R254). -/
def parseCE (v : CSlot) (w : Syllable) (e : Option (BitVec 28)) : Except DecodeFault CE :=
  match e with
  | none =>
    if zeroAt w 0 6 then
      .ok { v := v, d := field w 16 4, a := field w 12 4, b := field w 8 4, sh := field w 6 2 }
    else .error .illegalInstr
  | some _ => .error .illegalInstr

/-- The payload bits of family `CE`. -/
def payCE (o : CE) : Nat := o.d.toNat * 2 ^ 16 + o.a.toNat * 2 ^ 12 + o.b.toNat * 2 ^ 8 + o.sh.toNat * 2 ^ 6

/-- The extension bits of family `CE`. -/
def extCE (_o : CE) : Option (BitVec 28) := none

/-- Reads the operands of family `CQ` (R251 to R254). -/
def parseCQ (v : CSlot) (w : Syllable) (e : Option (BitVec 28)) : Except DecodeFault CQ :=
  match e with
  | none =>
    if zeroAt w 0 14 then
      .ok { v := v, r := field w 16 4, nj := field w 15 1, ev := field w 14 1, m := none }
    else .error .illegalInstr
  | some x =>
    if zeroAt w 0 14 && zeroAt x 16 12 then .ok { v := v, r := field w 16 4, nj := field w 15 1, ev := field w 14 1, m := some (field x 0 16) }
    else .error .illegalInstr

/-- The payload bits of family `CQ`. -/
def payCQ (o : CQ) : Nat := o.r.toNat * 2 ^ 16 + o.nj.toNat * 2 ^ 15 + o.ev.toNat * 2 ^ 14

/-- The extension bits of family `CQ`. -/
def extCQ (o : CQ) : Option (BitVec 28) := o.m.map (fun x => BitVec.ofNat 28 (x.toNat * 2 ^ 0))

/-- Reads the operands of family `CWF` (R251 to R254). -/
def parseCWF (v : CSlot) (w : Syllable) (e : Option (BitVec 28)) : Except DecodeFault CWF :=
  match e with
  | none =>
    if zeroAt w 0 10 && zeroAt w 14 6 then
      .ok { v := v, qm := field w 10 4 }
    else .error .illegalInstr
  | some _ => .error .illegalInstr

/-- The payload bits of family `CWF`. -/
def payCWF (o : CWF) : Nat := o.qm.toNat * 2 ^ 10

/-- The extension bits of family `CWF`. -/
def extCWF (_o : CWF) : Option (BitVec 28) := none

/-- Reads the operands of family `CW` (R251 to R254). -/
def parseCW (v : CSlot) (w : Syllable) (e : Option (BitVec 28)) : Except DecodeFault CW :=
  match e with
  | none =>
    if zeroAt w 0 14 then
      .ok { v := v, r := field w 16 4, q := field w 14 2 }
    else .error .illegalInstr
  | some _ => .error .illegalInstr

/-- The payload bits of family `CW`. -/
def payCW (o : CW) : Nat := o.r.toNat * 2 ^ 16 + o.q.toNat * 2 ^ 14

/-- The extension bits of family `CW`. -/
def extCW (_o : CW) : Option (BitVec 28) := none

/-- Reads the operands of family `CWA` (R251 to R254). -/
def parseCWA (v : CSlot) (w : Syllable) (e : Option (BitVec 28)) : Except DecodeFault CWA :=
  match e with
  | none =>
    if zeroAt w 0 14 then
      .ok { v := v, r := field w 16 4, q := field w 14 2 }
    else .error .illegalInstr
  | some _ => .error .illegalInstr

/-- The payload bits of family `CWA`. -/
def payCWA (o : CWA) : Nat := o.r.toNat * 2 ^ 16 + o.q.toNat * 2 ^ 14

/-- The extension bits of family `CWA`. -/
def extCWA (_o : CWA) : Option (BitVec 28) := none

/-- Reads the operands of family `CT2` (R251 to R254). -/
def parseCT2 (v : CSlot) (w : Syllable) (e : Option (BitVec 28)) : Except DecodeFault CT2 :=
  match e with
  | none =>
    if zeroAt w 0 12 then
      .ok { v := v, r := field w 16 4, a := field w 12 4 }
    else .error .illegalInstr
  | some _ => .error .illegalInstr

/-- The payload bits of family `CT2`. -/
def payCT2 (o : CT2) : Nat := o.r.toNat * 2 ^ 16 + o.a.toNat * 2 ^ 12

/-- The extension bits of family `CT2`. -/
def extCT2 (_o : CT2) : Option (BitVec 28) := none

/-- Reads the operands of family `CTI` (R251 to R254). -/
def parseCTI (v : CSlot) (w : Syllable) (e : Option (BitVec 28)) : Except DecodeFault CTI :=
  match e with
  | none =>
    if zeroAt w 0 8 && zeroAt w 16 4 then
      .ok { v := v, a := field w 12 4, b := field w 8 4 }
    else .error .illegalInstr
  | some _ => .error .illegalInstr

/-- The payload bits of family `CTI`. -/
def payCTI (o : CTI) : Nat := o.a.toNat * 2 ^ 12 + o.b.toNat * 2 ^ 8

/-- The extension bits of family `CTI`. -/
def extCTI (_o : CTI) : Option (BitVec 28) := none

/-- Reads the operands of family `CTD` (R251 to R254). -/
def parseCTD (v : CSlot) (w : Syllable) (e : Option (BitVec 28)) : Except DecodeFault CTD :=
  match e with
  | none =>
    if zeroAt w 0 12 && zeroAt w 16 4 then
      .ok { v := v, a := field w 12 4 }
    else .error .illegalInstr
  | some _ => .error .illegalInstr

/-- The payload bits of family `CTD`. -/
def payCTD (o : CTD) : Nat := o.a.toNat * 2 ^ 12

/-- The extension bits of family `CTD`. -/
def extCTD (_o : CTD) : Option (BitVec 28) := none

/-- Reads the operands of family `CTB` (R251 to R254). -/
def parseCTB (v : CSlot) (fx : Nat) (w : Syllable) (e : Option (BitVec 28)) : Except DecodeFault CTB :=
  match e with
  | none =>
    if field w 0 8 == BitVec.ofNat 8 (fx / 2 ^ 0) && field w 12 4 == BitVec.ofNat 4 (fx / 2 ^ 12) then
      .ok { v := v, r := field w 16 4, b := field w 8 4 }
    else .error .illegalInstr
  | some _ => .error .illegalInstr

/-- The payload bits of family `CTB`. -/
def payCTB (o : CTB) : Nat := o.r.toNat * 2 ^ 16 + o.b.toNat * 2 ^ 8

/-- The extension bits of family `CTB`. -/
def extCTB (_o : CTB) : Option (BitVec 28) := none

/-- No operand bits and no extension (R251 SN, R253 MN). -/
def parseNone (i : Instr) (w : Syllable) (e : Option (BitVec 28)) : Except DecodeFault Instr :=
  match e with
  | none => if zeroAt w 0 20 then .ok i else .error .illegalInstr
  | some _ => .error .illegalInstr

/-- Reads the scalar ops (R256); a code without a row is unassigned and faults ILLEGAL_INSTR. -/
def decodeS (w : Syllable) (e : Option (BitVec 28)) : Except DecodeFault Instr :=
  match (field w 20 8).toNat with
  | 0x00 => parseNone .nop w e
  | 0x01 => (parseSR3 w e).map .add
  | 0x02 => (parseSR3 w e).map .sub
  | 0x03 => (parseSR3 w e).map .mul
  | 0x04 => (parseSR3 w e).map .mulh
  | 0x05 => (parseSR3 w e).map .mulhu
  | 0x06 => (parseSR3 w e).map .div
  | 0x07 => (parseSR3 w e).map .divu
  | 0x08 => (parseSR3 w e).map .rem
  | 0x09 => (parseSR3 w e).map .remu
  | 0x0a => (parseSR3 w e).map .and
  | 0x0b => (parseSR3 w e).map .or
  | 0x0c => (parseSR3 w e).map .xor
  | 0x0d => (parseSR3 w e).map .andn
  | 0x0e => (parseSR3 w e).map .shl
  | 0x0f => (parseSR3 w e).map .shr
  | 0x10 => (parseSR3 w e).map .sra
  | 0x11 => (parseSR3 w e).map .rotl
  | 0x12 => (parseSR3 w e).map .min
  | 0x13 => (parseSR3 w e).map .max
  | 0x14 => (parseSR3 w e).map .minu
  | 0x15 => (parseSR3 w e).map .maxu
  | 0x16 => (parseSR2 w e).map .clz
  | 0x17 => (parseSR2 w e).map .ctz
  | 0x18 => (parseSR2 w e).map .popc
  | 0x19 => (parseSRX w e).map .sext
  | 0x1a => (parseSRX w e).map .zext
  | 0x1b => (parseSR4 w e).map .lea
  | 0x1c => (parseSX w e).map .sel
  | 0x1d => (parseSXB w e).map .bfx
  | 0x1e => (parseSXB w e).map .bfi
  | 0x20 => (parseSI w e).map .addi
  | 0x21 => (parseSI w e).map .andi
  | 0x22 => (parseSI w e).map .ori
  | 0x23 => (parseSI w e).map .xori
  | 0x24 => (parseSI w e).map .shli
  | 0x25 => (parseSI w e).map .shri
  | 0x26 => (parseSI w e).map .srai
  | 0x27 => (parseSM w e).map .movi
  | 0x28 => (parseSK w e).map .cmpEq
  | 0x29 => (parseSK w e).map .cmpNe
  | 0x2a => (parseSK w e).map .cmpLt
  | 0x2b => (parseSK w e).map .cmpLtu
  | 0x2c => (parseSK w e).map .cmpGe
  | 0x2d => (parseSK w e).map .cmpGeu
  | 0x30 => (parseSJ w e).map .cmpiEq
  | 0x31 => (parseSJ w e).map .cmpiNe
  | 0x32 => (parseSJ w e).map .cmpiLt
  | 0x33 => (parseSJ w e).map .cmpiLtu
  | 0x34 => (parseSJ w e).map .cmpiGe
  | 0x35 => (parseSJ w e).map .cmpiGeu
  | 0x36 => (parseSP w e).map .pand
  | 0x37 => (parseSP w e).map .por
  | 0x38 => (parseSP w e).map .pxor
  | 0x39 => (parseSP1 w e).map .pnot
  | 0x40 => (parseSB w e).map .br
  | 0x41 => (parseSC w e).map .brk
  | 0x42 => (parseS1 w e).map .jmp
  | 0x43 => (parseSB w e).map .call
  | 0x44 => (parseS1 w e).map .callr
  | 0x45 => parseNone .ret w e
  | 0x46 => (parseSL w e).map .lnest
  | 0x47 => parseNone .lexit w e
  | 0x48 => (parseSQ w e).map .acq
  | 0x49 => (parseSQF w e).map .acqF
  | 0x4a => parseNone .rel w e
  | 0x50 => (parseSG w e).map .ldB
  | 0x51 => (parseSG w e).map .ldBU
  | 0x52 => (parseSG w e).map .ldH
  | 0x53 => (parseSG w e).map .ldHU
  | 0x54 => (parseSG w e).map .ldW
  | 0x55 => (parseSG w e).map .ldWU
  | 0x56 => (parseSG w e).map .ldD
  | 0x58 => (parseSG w e).map .stB
  | 0x59 => (parseSG w e).map .stH
  | 0x5a => (parseSG w e).map .stW
  | 0x5b => (parseSG w e).map .stD
  | 0x5c => (parseSO w e).map .ldaW
  | 0x5d => (parseSO w e).map .ldaD
  | 0x5e => (parseSO w e).map .stlW
  | 0x5f => (parseSO w e).map .stlD
  | 0x60 => (parseSY w e).map .ldpB
  | 0x61 => (parseSY w e).map .ldpBU
  | 0x62 => (parseSY w e).map .ldpH
  | 0x63 => (parseSY w e).map .ldpHU
  | 0x64 => (parseSY w e).map .ldpW
  | 0x65 => (parseSY w e).map .ldpWU
  | 0x66 => (parseSY w e).map .ldpD
  | 0x68 => (parseSY w e).map .stpB
  | 0x69 => (parseSY w e).map .stpH
  | 0x6a => (parseSY w e).map .stpW
  | 0x6b => (parseSY w e).map .stpD
  | 0x70 => (parseSA w e).map .amoAdd
  | 0x71 => (parseSA w e).map .amoAnd
  | 0x72 => (parseSA w e).map .amoOr
  | 0x73 => (parseSA w e).map .amoXor
  | 0x74 => (parseSA w e).map .amoMin
  | 0x75 => (parseSA w e).map .amoMax
  | 0x76 => (parseSA w e).map .amoMinu
  | 0x77 => (parseSA w e).map .amoMaxu
  | 0x78 => (parseSA w e).map .amoSwap
  | 0x79 => (parseSA w e).map .cas
  | 0x7a => (parseSA w e).map .cas2
  | 0x7b => (parseSAR w e).map .redx
  | 0x80 => (parseSU w e).map .uadd
  | 0x81 => (parseSU w e).map .umin
  | 0x82 => (parseSU w e).map .umax
  | 0x83 => (parseSU w e).map .uand
  | 0x84 => (parseSU w e).map .uor
  | 0x85 => (parseSU w e).map .uxor
  | 0x86 => (parseSU w e).map .uminF
  | 0x87 => (parseSU w e).map .umaxF
  | 0x88 => (parseSF w e).map .fence
  | 0x89 => (parseSTC w e).map .tclr
  | 0x8a => (parseSH w e).map .tsync
  | 0x8b => (parseST w e).map .tquery
  | 0x90 => parseNone .wfe w e
  | 0x91 => (parseS1 w e).map .sev
  | 0x92 => (parseS1 w e).map .watch
  | 0x93 => (parseSH w e).map .trap
  | 0x94 => parseNone .retu w e
  | 0x95 => (parseSW w e).map .cread
  | 0x96 =>
    match (field w 0 14).toNat with
    | 0x106 => (parseSWF 0x106 w e).map .mapreq
    | 0x105 => (parseSWF 0x105 w e).map .pgrant
    | 0x027 => (parseSWF 0x27 w e).map .watchRegister
    | 0x026 => (parseSWF 0x26 w e).map .evlatchWrite
    | 0x020 => (parseSWF 0x20 w e).map .trapbaseWrite
    | 0x038 => (parseSWF 0x38 w e).map .lnctlWrite
    | _ => (parseSW w e).map .cwrite
  | 0x97 => (parseSZ w e).map .capr
  | 0xa0 => (parseS2P w e).map .wpush
  | 0xa1 => (parseS2P w e).map .wpushF
  | 0xa2 => (parseS2 w e).map .wpop
  | 0xa3 => (parseS2 w e).map .wpopW
  | 0xa4 => parseNone .wdone w e
  | 0xa5 => (parseS1 w e).map .wdoneY
  | 0xa6 => (parseSH w e).map .whold
  | 0xa7 => (parseS1 w e).map .wfloor
  | 0xa8 => (parseS1 w e).map .wjoin
  | 0xa9 => parseNone .wleave w e
  | 0xb0 => (parseS1 w e).map .launch
  | 0xb1 => (parseSH w e).map .phase
  | 0xb2 => (parseSH w e).map .cancelL
  | 0xb3 => (parseSH w e).map .cancelG
  | 0xb4 => (parseSH w e).map .cancelP
  | 0xb5 => (parseSH w e).map .cancelJ
  | 0xb6 => (parseSH w e).map .cwait
  | 0xb7 => parseNone .gbar w e
  | 0xb8 => parseNone .tend w e
  | 0xb9 => parseNone .pdone w e
  | 0xba => (parseSRD w e).map .ldisc
  | 0xbb => (parseS1 w e).map .tlbinv
  | _ => .error .illegalInstr
/-- A vldp with a reserved X: ILLEGAL_OPERAND where its other fields are in order (R250, R254). -/
noncomputable def reservedX (v : VSlot) (w : Syllable) (e : Option (BitVec 28)) : Except DecodeFault Instr :=
  match parseVM v 0 (w &&& 0xFFFFFFFC) e with
  | .error f => .error f
  | .ok o => if (Instr.vldp o).formOk then .error .illegalOperand else .error .illegalInstr

/-- Reads the vector ops (R257); a code without a row is unassigned and faults ILLEGAL_INSTR. -/
noncomputable def decodeV (v : VSlot) (w : Syllable) (e : Option (BitVec 28)) : Except DecodeFault Instr :=
  match (field w 20 8).toNat with
  | 0x00 => (parseVR v w e).map .vadd
  | 0x01 => (parseVR v w e).map .vsub
  | 0x02 => (parseVR v w e).map .vmul
  | 0x03 => (parseVR v w e).map .vmulh
  | 0x04 => (parseVR v w e).map .vmad
  | 0x05 => (parseVR v w e).map .vmin
  | 0x06 => (parseVR v w e).map .vmax
  | 0x07 => (parseVR v w e).map .vabs
  | 0x08 => (parseVR v w e).map .vneg
  | 0x09 => (parseVR v w e).map .vand
  | 0x0a => (parseVR v w e).map .vor
  | 0x0b => (parseVR v w e).map .vxor
  | 0x0c => (parseVR v w e).map .vshl
  | 0x0d => (parseVR v w e).map .vshr
  | 0x0e => (parseVR v w e).map .vsra
  | 0x0f => (parseVR v w e).map .vadds
  | 0x10 => (parseVR v w e).map .vsubs
  | 0x11 => (parseVR v w e).map .vqshr
  | 0x12 => (parseVR v w e).map .vdot2
  | 0x13 => (parseVR v w e).map .vpack
  | 0x14 => (parseVR v w e).map .vunpk
  | 0x15 => (parseVR v w e).map .vsel
  | 0x16 => (parseVR v w e).map .vcmpEq
  | 0x17 => (parseVR v w e).map .vcmpNe
  | 0x18 => (parseVR v w e).map .vcmpLt
  | 0x19 => (parseVR v w e).map .vcmpLtu
  | 0x1a => (parseVR v w e).map .vcmpGe
  | 0x1b => (parseVR v w e).map .vcmpGeu
  | 0x1c => (parseVR v w e).map .vredAdd
  | 0x1d => (parseVR v w e).map .vredMin
  | 0x1e => (parseVR v w e).map .vredMax
  | 0x1f => (parseVN v w e).map .vnop
  | 0x20 => (parseVR v w e).map .fadd
  | 0x21 => (parseVR v w e).map .fsub
  | 0x22 => (parseVR v w e).map .fmul
  | 0x23 => (parseVR v w e).map .ffma
  | 0x24 => (parseVR v w e).map .fmin
  | 0x25 => (parseVR v w e).map .fmax
  | 0x26 => (parseVR v w e).map .fabs
  | 0x27 => (parseVR v w e).map .fneg
  | 0x28 => (parseVR v w e).map .fcmpEq
  | 0x29 => (parseVR v w e).map .fcmpNe
  | 0x2a => (parseVR v w e).map .fcmpLt
  | 0x2b => (parseVR v w e).map .fcmpLe
  | 0x2c => (parseVR v w e).map .fcmpUn
  | 0x2d => (parseVR v w e).map .fcvt
  | 0x2e => (parseVR v w e).map .fdiv
  | 0x2f => (parseVR v w e).map .fred
  | 0x30 => (parseVR v w e).map .fexp
  | 0x31 => (parseVR v w e).map .fexp2
  | 0x32 => (parseVR v w e).map .flog
  | 0x33 => (parseVR v w e).map .flog2
  | 0x34 => (parseVR v w e).map .fsin
  | 0x35 => (parseVR v w e).map .fcos
  | 0x36 => (parseVR v w e).map .ftanh
  | 0x37 => (parseVR v w e).map .fsigm
  | 0x38 => (parseVR v w e).map .ferf
  | 0x39 => (parseVR v w e).map .frcp
  | 0x3a => (parseVR v w e).map .frsq
  | 0x3b => (parseVR v w e).map .fsqrt
  | 0x40 => (parseVR v w e).map .xsadd
  | 0x41 => (parseVR v w e).map .xsfold
  | 0x42 => (parseVR v w e).map .xsround
  | 0x43 => (parseVR v w e).map .xpmul
  | 0x44 => (parseVR v w e).map .xpadd
  | 0x45 => (parseVR v w e).map .xpround
  | 0x46 => (parseVR v w e).map .vmxq
  | 0x47 => (parseVR v w e).map .vmxd
  | 0x50 => (parseVR v w e).map .vshuf
  | 0x51 => (parseVR v w e).map .vpld
  | 0x52 => (parseVN v w e).map .vpsw
  | 0x53 => (parseVR v w e).map .vbcst
  | 0x54 => (parseVR v w e).map .mand
  | 0x55 => (parseVR v w e).map .mor
  | 0x56 => (parseVR v w e).map .mnot
  | 0x57 => (parseVR v w e).map .mpop
  | 0x60 => if field w 0 2 == 1 then (parseVM v 0x1 w e).map .vldpDec else if field w 0 2 == 0 then (parseVM v 0 w e).map .vldp else reservedX v w e
  | 0x61 => (parseVM v 0 w e).map .vstp
  | 0x62 => (parseVM v 0 w e).map .vld
  | 0x63 => (parseVM v 0 w e).map .vst
  | 0x64 => (parseVM v 0 w e).map .vgath
  | 0x65 => (parseVM v 0 w e).map .vscat
  | _ => .error .illegalInstr
/-- Reads the matrix ops (R258); a code without a row is unassigned and faults ILLEGAL_INSTR. -/
noncomputable def decodeM (w : Syllable) (e : Option (BitVec 28)) : Except DecodeFault Instr :=
  match (field w 20 8).toNat with
  | 0x00 => (parseMA w e).map .mmaBf16
  | 0x01 => (parseMA w e).map .mmaF8
  | 0x02 => (parseMA w e).map .mmaE2m1
  | 0x03 => (parseMA w e).map .mmaI8
  | 0x04 => (parseMA w e).map .mmaI6
  | 0x05 => (parseMA w e).map .mmaI4
  | 0x08 => (parseMAS w e).map .mmasBf16
  | 0x09 => (parseMAS w e).map .mmasF8
  | 0x0a => (parseMAS w e).map .mmasE2m1
  | 0x0b => (parseMAS w e).map .mmasI8
  | 0x0c => (parseMAS w e).map .mmasI4
  | 0x10 => (parseMZ w e).map .mzero
  | 0x11 => (parseMLD w e).map .mload
  | 0x12 => (parseMT w e).map .madd
  | 0x13 => (parseMT w e).map .mcopy
  | 0x14 => (parseMT w e).map .mtrn
  | 0x15 => (parseMG w e).map .mrot
  | 0x16 => (parseMG w e).map .mdrain
  | 0x17 => (parseMGX w e).map .mdrainx
  | 0x18 => (parseMD w e).map .gset
  | 0x19 => (parseMD w e).map .gget
  | 0x1a => (parseMK w e).map .mcap
  | 0x1b => parseNone .mwait w e
  | _ => .error .illegalInstr
/-- Reads the copy ops (R259); a code without a row is unassigned and faults ILLEGAL_INSTR. -/
noncomputable def decodeC (v : CSlot) (w : Syllable) (e : Option (BitVec 28)) : Except DecodeFault Instr :=
  match (field w 20 8).toNat with
  | 0x00 => (parseCX v w e).map .xmovSv
  | 0x01 => (parseCX v w e).map .xmovVs
  | 0x02 => (parseCX0 v w e).map .xmovVw
  | 0x03 => (parseCX0 v w e).map .xmovWv
  | 0x04 => (parseCX0 v w e).map .xmovSc
  | 0x05 => (parseCX0 v w e).map .xmovCs
  | 0x06 => (parseCX0 v w e).map .xmovSd
  | 0x07 => (parseCX0 v w e).map .xmovDs
  | 0x08 => (parseCZ v w e).map .xmovZv
  | 0x09 => (parseCZ v w e).map .xmovVz
  | 0x0a => (parseCXK v w e).map .xmovKv
  | 0x10 => (parseCA v w e).map .cadd
  | 0x11 => (parseCM v w e).map .cmovi
  | 0x12 => (parseCE v w e).map .clea
  | 0x13 => (parseCT2 v w e).map .tlook
  | 0x14 => (parseCTI v w e).map .tins
  | 0x15 => (parseCTD v w e).map .tdel
  | 0x16 => (parseCT2 v w e).map .tscan
  | 0x17 => if field w 7 1 == 1 then (parseCTB v 0x80 w e).map .bfmtWrite else (parseCTB v 0 w e).map .bfmtRead
  | 0x18 => (parseCN v w e).map .pcarve
  | 0x1f => (parseCN v w e).map .cnop
  | 0x20 => (parseCQ v w e).map .qcopy
  | 0x21 => (parseCQ v w e).map .qgath
  | 0x22 => (parseCQ v w e).map .qscat
  | 0x23 => (parseCQ v w e).map .qdec
  | 0x24 => (parseCWA v w e).map .qack
  | 0x25 => (parseCQ v w e).map .qcollContribute
  | 0x26 => (parseCQ v w e).map .qput
  | 0x27 => (parseCQ v w e).map .qputs
  | 0x28 => (parseCQ v w e).map .qputm
  | 0x29 => (parseCQ v w e).map .qget
  | 0x2a => (parseCQ v w e).map .qcel
  | 0x2b => (parseCWF v w e).map .qfence
  | 0x2c => (parseCW v w e).map .qwait
  | 0x2d => (parseCW v w e).map .qstat
  | 0x2e => (parseCW v w e).map .qirqRestart
  | _ => .error .illegalInstr
/-- The decode checks after the fields are read, ILLEGAL_INSTR before ILLEGAL_OPERAND (R228, R250). -/
def checkInstr (r : Except DecodeFault Instr) : Except DecodeFault Instr :=
  match r with
  | .error f => .error f
  | .ok i =>
    if !i.formOk then .error .illegalInstr
    else if !i.operandOk then .error .illegalOperand
    else .ok i

/-- The operation of an op syllable in slot `p` with its extension (R240, R249, R250). Rows that share one word
(qcoll by ROLE, qirq by action) decode to the first of them (log 7). -/
noncomputable def decodeOp (p : SlotPos) (w : Syllable) (e : Option (BitVec 28)) : Except DecodeFault Instr :=
  checkInstr
    (match p with
    | .s => decodeS w e
    | .v0 => decodeV .v0 w e
    | .v1 => decodeV .v1 w e
    | .m => decodeM w e
    | .c0 => decodeC .c0 w e
    | .c1 => decodeC .c1 w e)

/-- The tree of a tree syllable and its extensions (R246, R247); none where R246 or R247 makes it ILLEGAL_INSTR. -/
noncomputable def decodeTree (w : Syllable) (es : List (BitVec 28)) : Except DecodeFault Instr :=
  let t : Tree :=
    { shape := field w 26 2, nt := field w 24 2, p0 := field w 20 4, p1 := field w 16 4, p2 := field w 12 4,
      p3 := field w 8 4, pol := field w 4 4, offs := es.map (fun e => field e 0 24) }
  if zeroAt w 0 4 && es.all (fun e => zeroAt e 24 4) && (Instr.btree t).formOk then .ok (.btree t)
  else .error .illegalInstr

/-- The op syllable (stop bit clear) and extension bits of an operation; none for the tree and for a step that
has no encoding. -/
def encodeOp : Instr → Option (Syllable × Option (BitVec 28))
  | .deviceReset => none
  | .functionLevelReset _ => none
  | .jobgoStart _ _ => none
  | .jobgoCancel _ => none
  | .jobgoSuspend _ => none
  | .jobgoResume _ => none
  | .jobgoRefused _ => none
  | .registerWrite _ _ _ _ => none
  | .msixUnmask _ _ => none
  | .bar2Write _ _ _ => none
  | .bar2Read _ _ _ => none
  | .quote _ _ => none
  | .assign _ _ => none
  | .ckptauth _ _ => none
  | .devnum _ _ => none
  | .gform _ _ => none
  | .gdissolve _ _ => none
  | .ckptsend _ _ => none
  | .tune _ => none
  | .clkcap _ => none
  | .log _ => none
  | .unknownCommand _ _ _ => none
  | .mailboxComplete _ _ => none
  | .jobValidation _ => none
  | .thermalStep _ _ => none
  | .thermalTrip _ => none
  | .machineCheck _ => none
  | .tuningPassComplete _ _ => none
  | .gangHold _ _ _ => none
  | .commit _ _ => none
  | .holdRefused _ _ => none
  | .backoffElapsed _ _ => none
  | .freeCoreReport _ => none
  | .divert => none
  | .fullSave => none
  | .pbudgetExpiry => none
  | .taskResume _ _ => none
  | .eventHandlerEntry => none
  | .deferredPreciseFault => none
  | .emulationTrap => none
  | .steeredComplete _ => none
  | .loadReturn _ => none
  | .specialFunctionResult _ => none
  | .storePerformed _ => none
  | .pcarveDrainEnd => none
  | .queueEntryStart _ => none
  | .queueEntryComplete _ _ => none
  | .decompBlock => none
  | .put _ => none
  | .putsig _ => none
  | .get _ => none
  | .getresp _ => none
  | .putmc _ => none
  | .ack _ => none
  | .nack _ => none
  | .red _ => none
  | .fetchAndOp _ => none
  | .compareAndSwap _ => none
  | .listEnqueue _ => none
  | .listDequeue _ => none
  | .pointerChase _ => none
  | .exactReduce _ => none
  | .signalAdd _ => none
  | .boundedCopy _ => none
  | .celresp _ => none
  | .ckpt _ => none
  | .e2eTimeout _ _ => none
  | .responseTimeout _ _ => none
  | .linkCrcError _ _ _ => none
  | .reductionTimeout _ => none
  | .gwaveStart _ => none
  | .gxfer _ => none
  | .gbreq _ => none
  | .gwave _ => none
  | .gwrep _ => none
  | .gterm _ => none
  | .gcancel _ => none
  | .granaryRefill _ => none
  | .nop => some (opWord 0 0x00 0, none)
  | .add o => some (opWord 0 0x01 (paySR3 o), extSR3 o)
  | .sub o => some (opWord 0 0x02 (paySR3 o), extSR3 o)
  | .mul o => some (opWord 0 0x03 (paySR3 o), extSR3 o)
  | .mulh o => some (opWord 0 0x04 (paySR3 o), extSR3 o)
  | .mulhu o => some (opWord 0 0x05 (paySR3 o), extSR3 o)
  | .div o => some (opWord 0 0x06 (paySR3 o), extSR3 o)
  | .divu o => some (opWord 0 0x07 (paySR3 o), extSR3 o)
  | .rem o => some (opWord 0 0x08 (paySR3 o), extSR3 o)
  | .remu o => some (opWord 0 0x09 (paySR3 o), extSR3 o)
  | .and o => some (opWord 0 0x0a (paySR3 o), extSR3 o)
  | .or o => some (opWord 0 0x0b (paySR3 o), extSR3 o)
  | .xor o => some (opWord 0 0x0c (paySR3 o), extSR3 o)
  | .andn o => some (opWord 0 0x0d (paySR3 o), extSR3 o)
  | .shl o => some (opWord 0 0x0e (paySR3 o), extSR3 o)
  | .shr o => some (opWord 0 0x0f (paySR3 o), extSR3 o)
  | .sra o => some (opWord 0 0x10 (paySR3 o), extSR3 o)
  | .rotl o => some (opWord 0 0x11 (paySR3 o), extSR3 o)
  | .min o => some (opWord 0 0x12 (paySR3 o), extSR3 o)
  | .max o => some (opWord 0 0x13 (paySR3 o), extSR3 o)
  | .minu o => some (opWord 0 0x14 (paySR3 o), extSR3 o)
  | .maxu o => some (opWord 0 0x15 (paySR3 o), extSR3 o)
  | .clz o => some (opWord 0 0x16 (paySR2 o), extSR2 o)
  | .ctz o => some (opWord 0 0x17 (paySR2 o), extSR2 o)
  | .popc o => some (opWord 0 0x18 (paySR2 o), extSR2 o)
  | .sext o => some (opWord 0 0x19 (paySRX o), extSRX o)
  | .zext o => some (opWord 0 0x1a (paySRX o), extSRX o)
  | .lea o => some (opWord 0 0x1b (paySR4 o), extSR4 o)
  | .sel o => some (opWord 0 0x1c (paySX o), extSX o)
  | .bfx o => some (opWord 0 0x1d (paySXB o), extSXB o)
  | .bfi o => some (opWord 0 0x1e (paySXB o), extSXB o)
  | .addi o => some (opWord 0 0x20 (paySI o), extSI o)
  | .andi o => some (opWord 0 0x21 (paySI o), extSI o)
  | .ori o => some (opWord 0 0x22 (paySI o), extSI o)
  | .xori o => some (opWord 0 0x23 (paySI o), extSI o)
  | .shli o => some (opWord 0 0x24 (paySI o), extSI o)
  | .shri o => some (opWord 0 0x25 (paySI o), extSI o)
  | .srai o => some (opWord 0 0x26 (paySI o), extSI o)
  | .movi o => some (opWord 0 0x27 (paySM o), extSM o)
  | .cmpEq o => some (opWord 0 0x28 (paySK o), extSK o)
  | .cmpNe o => some (opWord 0 0x29 (paySK o), extSK o)
  | .cmpLt o => some (opWord 0 0x2a (paySK o), extSK o)
  | .cmpLtu o => some (opWord 0 0x2b (paySK o), extSK o)
  | .cmpGe o => some (opWord 0 0x2c (paySK o), extSK o)
  | .cmpGeu o => some (opWord 0 0x2d (paySK o), extSK o)
  | .cmpiEq o => some (opWord 0 0x30 (paySJ o), extSJ o)
  | .cmpiNe o => some (opWord 0 0x31 (paySJ o), extSJ o)
  | .cmpiLt o => some (opWord 0 0x32 (paySJ o), extSJ o)
  | .cmpiLtu o => some (opWord 0 0x33 (paySJ o), extSJ o)
  | .cmpiGe o => some (opWord 0 0x34 (paySJ o), extSJ o)
  | .cmpiGeu o => some (opWord 0 0x35 (paySJ o), extSJ o)
  | .pand o => some (opWord 0 0x36 (paySP o), extSP o)
  | .por o => some (opWord 0 0x37 (paySP o), extSP o)
  | .pxor o => some (opWord 0 0x38 (paySP o), extSP o)
  | .pnot o => some (opWord 0 0x39 (paySP1 o), extSP1 o)
  | .br o => some (opWord 0 0x40 (paySB o), extSB o)
  | .brk o => some (opWord 0 0x41 (paySC o), extSC o)
  | .jmp o => some (opWord 0 0x42 (payS1 o), extS1 o)
  | .call o => some (opWord 0 0x43 (paySB o), extSB o)
  | .callr o => some (opWord 0 0x44 (payS1 o), extS1 o)
  | .ret => some (opWord 0 0x45 0, none)
  | .lnest o => some (opWord 0 0x46 (paySL o), extSL o)
  | .lexit => some (opWord 0 0x47 0, none)
  | .acq o => some (opWord 0 0x48 (paySQ o), extSQ o)
  | .acqF o => some (opWord 0 0x49 (paySQF o), extSQF o)
  | .rel => some (opWord 0 0x4a 0, none)
  | .ldB o => some (opWord 0 0x50 (paySG o), extSG o)
  | .ldBU o => some (opWord 0 0x51 (paySG o), extSG o)
  | .ldH o => some (opWord 0 0x52 (paySG o), extSG o)
  | .ldHU o => some (opWord 0 0x53 (paySG o), extSG o)
  | .ldW o => some (opWord 0 0x54 (paySG o), extSG o)
  | .ldWU o => some (opWord 0 0x55 (paySG o), extSG o)
  | .ldD o => some (opWord 0 0x56 (paySG o), extSG o)
  | .stB o => some (opWord 0 0x58 (paySG o), extSG o)
  | .stH o => some (opWord 0 0x59 (paySG o), extSG o)
  | .stW o => some (opWord 0 0x5a (paySG o), extSG o)
  | .stD o => some (opWord 0 0x5b (paySG o), extSG o)
  | .ldaW o => some (opWord 0 0x5c (paySO o), extSO o)
  | .ldaD o => some (opWord 0 0x5d (paySO o), extSO o)
  | .stlW o => some (opWord 0 0x5e (paySO o), extSO o)
  | .stlD o => some (opWord 0 0x5f (paySO o), extSO o)
  | .ldpB o => some (opWord 0 0x60 (paySY o), extSY o)
  | .ldpBU o => some (opWord 0 0x61 (paySY o), extSY o)
  | .ldpH o => some (opWord 0 0x62 (paySY o), extSY o)
  | .ldpHU o => some (opWord 0 0x63 (paySY o), extSY o)
  | .ldpW o => some (opWord 0 0x64 (paySY o), extSY o)
  | .ldpWU o => some (opWord 0 0x65 (paySY o), extSY o)
  | .ldpD o => some (opWord 0 0x66 (paySY o), extSY o)
  | .stpB o => some (opWord 0 0x68 (paySY o), extSY o)
  | .stpH o => some (opWord 0 0x69 (paySY o), extSY o)
  | .stpW o => some (opWord 0 0x6a (paySY o), extSY o)
  | .stpD o => some (opWord 0 0x6b (paySY o), extSY o)
  | .amoAdd o => some (opWord 0 0x70 (paySA o), extSA o)
  | .amoAnd o => some (opWord 0 0x71 (paySA o), extSA o)
  | .amoOr o => some (opWord 0 0x72 (paySA o), extSA o)
  | .amoXor o => some (opWord 0 0x73 (paySA o), extSA o)
  | .amoMin o => some (opWord 0 0x74 (paySA o), extSA o)
  | .amoMax o => some (opWord 0 0x75 (paySA o), extSA o)
  | .amoMinu o => some (opWord 0 0x76 (paySA o), extSA o)
  | .amoMaxu o => some (opWord 0 0x77 (paySA o), extSA o)
  | .amoSwap o => some (opWord 0 0x78 (paySA o), extSA o)
  | .cas o => some (opWord 0 0x79 (paySA o), extSA o)
  | .cas2 o => some (opWord 0 0x7a (paySA o), extSA o)
  | .redx o => some (opWord 0 0x7b (paySAR o), extSAR o)
  | .uadd o => some (opWord 0 0x80 (paySU o), extSU o)
  | .umin o => some (opWord 0 0x81 (paySU o), extSU o)
  | .umax o => some (opWord 0 0x82 (paySU o), extSU o)
  | .uand o => some (opWord 0 0x83 (paySU o), extSU o)
  | .uor o => some (opWord 0 0x84 (paySU o), extSU o)
  | .uxor o => some (opWord 0 0x85 (paySU o), extSU o)
  | .uminF o => some (opWord 0 0x86 (paySU o), extSU o)
  | .umaxF o => some (opWord 0 0x87 (paySU o), extSU o)
  | .fence o => some (opWord 0 0x88 (paySF o), extSF o)
  | .tclr o => some (opWord 0 0x89 (paySTC o), extSTC o)
  | .tsync o => some (opWord 0 0x8a (paySH o), extSH o)
  | .tquery o => some (opWord 0 0x8b (payST o), extST o)
  | .wfe => some (opWord 0 0x90 0, none)
  | .sev o => some (opWord 0 0x91 (payS1 o), extS1 o)
  | .watch o => some (opWord 0 0x92 (payS1 o), extS1 o)
  | .trap o => some (opWord 0 0x93 (paySH o), extSH o)
  | .retu => some (opWord 0 0x94 0, none)
  | .cread o => some (opWord 0 0x95 (paySW o), extSW o)
  | .cwrite o => some (opWord 0 0x96 (paySW o), extSW o)
  | .mapreq o => some (opWord 0 0x96 (paySWF o + 0x106), extSWF o)
  | .pgrant o => some (opWord 0 0x96 (paySWF o + 0x105), extSWF o)
  | .watchRegister o => some (opWord 0 0x96 (paySWF o + 0x27), extSWF o)
  | .evlatchWrite o => some (opWord 0 0x96 (paySWF o + 0x26), extSWF o)
  | .trapbaseWrite o => some (opWord 0 0x96 (paySWF o + 0x20), extSWF o)
  | .lnctlWrite o => some (opWord 0 0x96 (paySWF o + 0x38), extSWF o)
  | .capr o => some (opWord 0 0x97 (paySZ o), extSZ o)
  | .wpush o => some (opWord 0 0xa0 (payS2P o), extS2P o)
  | .wpushF o => some (opWord 0 0xa1 (payS2P o), extS2P o)
  | .wpop o => some (opWord 0 0xa2 (payS2 o), extS2 o)
  | .wpopW o => some (opWord 0 0xa3 (payS2 o), extS2 o)
  | .wdone => some (opWord 0 0xa4 0, none)
  | .wdoneY o => some (opWord 0 0xa5 (payS1 o), extS1 o)
  | .whold o => some (opWord 0 0xa6 (paySH o), extSH o)
  | .wfloor o => some (opWord 0 0xa7 (payS1 o), extS1 o)
  | .wjoin o => some (opWord 0 0xa8 (payS1 o), extS1 o)
  | .wleave => some (opWord 0 0xa9 0, none)
  | .launch o => some (opWord 0 0xb0 (payS1 o), extS1 o)
  | .phase o => some (opWord 0 0xb1 (paySH o), extSH o)
  | .cancelL o => some (opWord 0 0xb2 (paySH o), extSH o)
  | .cancelG o => some (opWord 0 0xb3 (paySH o), extSH o)
  | .cancelP o => some (opWord 0 0xb4 (paySH o), extSH o)
  | .cancelJ o => some (opWord 0 0xb5 (paySH o), extSH o)
  | .cwait o => some (opWord 0 0xb6 (paySH o), extSH o)
  | .gbar => some (opWord 0 0xb7 0, none)
  | .tend => some (opWord 0 0xb8 0, none)
  | .pdone => some (opWord 0 0xb9 0, none)
  | .ldisc o => some (opWord 0 0xba (paySRD o), extSRD o)
  | .tlbinv o => some (opWord 0 0xbb (payS1 o), extS1 o)
  | .vadd o => some (opWord 1 0x00 (payVR o), extVR o)
  | .vsub o => some (opWord 1 0x01 (payVR o), extVR o)
  | .vmul o => some (opWord 1 0x02 (payVR o), extVR o)
  | .vmulh o => some (opWord 1 0x03 (payVR o), extVR o)
  | .vmad o => some (opWord 1 0x04 (payVR o), extVR o)
  | .vmin o => some (opWord 1 0x05 (payVR o), extVR o)
  | .vmax o => some (opWord 1 0x06 (payVR o), extVR o)
  | .vabs o => some (opWord 1 0x07 (payVR o), extVR o)
  | .vneg o => some (opWord 1 0x08 (payVR o), extVR o)
  | .vand o => some (opWord 1 0x09 (payVR o), extVR o)
  | .vor o => some (opWord 1 0x0a (payVR o), extVR o)
  | .vxor o => some (opWord 1 0x0b (payVR o), extVR o)
  | .vshl o => some (opWord 1 0x0c (payVR o), extVR o)
  | .vshr o => some (opWord 1 0x0d (payVR o), extVR o)
  | .vsra o => some (opWord 1 0x0e (payVR o), extVR o)
  | .vadds o => some (opWord 1 0x0f (payVR o), extVR o)
  | .vsubs o => some (opWord 1 0x10 (payVR o), extVR o)
  | .vqshr o => some (opWord 1 0x11 (payVR o), extVR o)
  | .vdot2 o => some (opWord 1 0x12 (payVR o), extVR o)
  | .vpack o => some (opWord 1 0x13 (payVR o), extVR o)
  | .vunpk o => some (opWord 1 0x14 (payVR o), extVR o)
  | .vsel o => some (opWord 1 0x15 (payVR o), extVR o)
  | .vcmpEq o => some (opWord 1 0x16 (payVR o), extVR o)
  | .vcmpNe o => some (opWord 1 0x17 (payVR o), extVR o)
  | .vcmpLt o => some (opWord 1 0x18 (payVR o), extVR o)
  | .vcmpLtu o => some (opWord 1 0x19 (payVR o), extVR o)
  | .vcmpGe o => some (opWord 1 0x1a (payVR o), extVR o)
  | .vcmpGeu o => some (opWord 1 0x1b (payVR o), extVR o)
  | .vredAdd o => some (opWord 1 0x1c (payVR o), extVR o)
  | .vredMin o => some (opWord 1 0x1d (payVR o), extVR o)
  | .vredMax o => some (opWord 1 0x1e (payVR o), extVR o)
  | .vnop o => some (opWord 1 0x1f (payVN o), extVN o)
  | .fadd o => some (opWord 1 0x20 (payVR o), extVR o)
  | .fsub o => some (opWord 1 0x21 (payVR o), extVR o)
  | .fmul o => some (opWord 1 0x22 (payVR o), extVR o)
  | .ffma o => some (opWord 1 0x23 (payVR o), extVR o)
  | .fmin o => some (opWord 1 0x24 (payVR o), extVR o)
  | .fmax o => some (opWord 1 0x25 (payVR o), extVR o)
  | .fabs o => some (opWord 1 0x26 (payVR o), extVR o)
  | .fneg o => some (opWord 1 0x27 (payVR o), extVR o)
  | .fcmpEq o => some (opWord 1 0x28 (payVR o), extVR o)
  | .fcmpNe o => some (opWord 1 0x29 (payVR o), extVR o)
  | .fcmpLt o => some (opWord 1 0x2a (payVR o), extVR o)
  | .fcmpLe o => some (opWord 1 0x2b (payVR o), extVR o)
  | .fcmpUn o => some (opWord 1 0x2c (payVR o), extVR o)
  | .fcvt o => some (opWord 1 0x2d (payVR o), extVR o)
  | .fdiv o => some (opWord 1 0x2e (payVR o), extVR o)
  | .fred o => some (opWord 1 0x2f (payVR o), extVR o)
  | .fexp o => some (opWord 1 0x30 (payVR o), extVR o)
  | .fexp2 o => some (opWord 1 0x31 (payVR o), extVR o)
  | .flog o => some (opWord 1 0x32 (payVR o), extVR o)
  | .flog2 o => some (opWord 1 0x33 (payVR o), extVR o)
  | .fsin o => some (opWord 1 0x34 (payVR o), extVR o)
  | .fcos o => some (opWord 1 0x35 (payVR o), extVR o)
  | .ftanh o => some (opWord 1 0x36 (payVR o), extVR o)
  | .fsigm o => some (opWord 1 0x37 (payVR o), extVR o)
  | .ferf o => some (opWord 1 0x38 (payVR o), extVR o)
  | .frcp o => some (opWord 1 0x39 (payVR o), extVR o)
  | .frsq o => some (opWord 1 0x3a (payVR o), extVR o)
  | .fsqrt o => some (opWord 1 0x3b (payVR o), extVR o)
  | .xsadd o => some (opWord 1 0x40 (payVR o), extVR o)
  | .xsfold o => some (opWord 1 0x41 (payVR o), extVR o)
  | .xsround o => some (opWord 1 0x42 (payVR o), extVR o)
  | .xpmul o => some (opWord 1 0x43 (payVR o), extVR o)
  | .xpadd o => some (opWord 1 0x44 (payVR o), extVR o)
  | .xpround o => some (opWord 1 0x45 (payVR o), extVR o)
  | .vmxq o => some (opWord 1 0x46 (payVR o), extVR o)
  | .vmxd o => some (opWord 1 0x47 (payVR o), extVR o)
  | .vshuf o => some (opWord 1 0x50 (payVR o), extVR o)
  | .vpld o => some (opWord 1 0x51 (payVR o), extVR o)
  | .vpsw o => some (opWord 1 0x52 (payVN o), extVN o)
  | .vbcst o => some (opWord 1 0x53 (payVR o), extVR o)
  | .mand o => some (opWord 1 0x54 (payVR o), extVR o)
  | .mor o => some (opWord 1 0x55 (payVR o), extVR o)
  | .mnot o => some (opWord 1 0x56 (payVR o), extVR o)
  | .mpop o => some (opWord 1 0x57 (payVR o), extVR o)
  | .vldp o => some (opWord 1 0x60 (payVM o), extVM o)
  | .vldpDec o => some (opWord 1 0x60 (payVM o + 0x1), extVM o)
  | .vstp o => some (opWord 1 0x61 (payVM o), extVM o)
  | .vld o => some (opWord 1 0x62 (payVM o), extVM o)
  | .vst o => some (opWord 1 0x63 (payVM o), extVM o)
  | .vgath o => some (opWord 1 0x64 (payVM o), extVM o)
  | .vscat o => some (opWord 1 0x65 (payVM o), extVM o)
  | .mmaBf16 o => some (opWord 2 0x00 (payMA o), extMA o)
  | .mmaF8 o => some (opWord 2 0x01 (payMA o), extMA o)
  | .mmaE2m1 o => some (opWord 2 0x02 (payMA o), extMA o)
  | .mmaI8 o => some (opWord 2 0x03 (payMA o), extMA o)
  | .mmaI6 o => some (opWord 2 0x04 (payMA o), extMA o)
  | .mmaI4 o => some (opWord 2 0x05 (payMA o), extMA o)
  | .mmasBf16 o => some (opWord 2 0x08 (payMAS o), extMAS o)
  | .mmasF8 o => some (opWord 2 0x09 (payMAS o), extMAS o)
  | .mmasE2m1 o => some (opWord 2 0x0a (payMAS o), extMAS o)
  | .mmasI8 o => some (opWord 2 0x0b (payMAS o), extMAS o)
  | .mmasI4 o => some (opWord 2 0x0c (payMAS o), extMAS o)
  | .mzero o => some (opWord 2 0x10 (payMZ o), extMZ o)
  | .mload o => some (opWord 2 0x11 (payMLD o), extMLD o)
  | .madd o => some (opWord 2 0x12 (payMT o), extMT o)
  | .mcopy o => some (opWord 2 0x13 (payMT o), extMT o)
  | .mtrn o => some (opWord 2 0x14 (payMT o), extMT o)
  | .mrot o => some (opWord 2 0x15 (payMG o), extMG o)
  | .mdrain o => some (opWord 2 0x16 (payMG o), extMG o)
  | .mdrainx o => some (opWord 2 0x17 (payMGX o), extMGX o)
  | .gset o => some (opWord 2 0x18 (payMD o), extMD o)
  | .gget o => some (opWord 2 0x19 (payMD o), extMD o)
  | .mcap o => some (opWord 2 0x1a (payMK o), extMK o)
  | .mwait => some (opWord 2 0x1b 0, none)
  | .xmovSv o => some (opWord 3 0x00 (payCX o), extCX o)
  | .xmovVs o => some (opWord 3 0x01 (payCX o), extCX o)
  | .xmovVw o => some (opWord 3 0x02 (payCX0 o), extCX0 o)
  | .xmovWv o => some (opWord 3 0x03 (payCX0 o), extCX0 o)
  | .xmovSc o => some (opWord 3 0x04 (payCX0 o), extCX0 o)
  | .xmovCs o => some (opWord 3 0x05 (payCX0 o), extCX0 o)
  | .xmovSd o => some (opWord 3 0x06 (payCX0 o), extCX0 o)
  | .xmovDs o => some (opWord 3 0x07 (payCX0 o), extCX0 o)
  | .xmovZv o => some (opWord 3 0x08 (payCZ o), extCZ o)
  | .xmovVz o => some (opWord 3 0x09 (payCZ o), extCZ o)
  | .xmovKv o => some (opWord 3 0x0a (payCXK o), extCXK o)
  | .cadd o => some (opWord 3 0x10 (payCA o), extCA o)
  | .cmovi o => some (opWord 3 0x11 (payCM o), extCM o)
  | .clea o => some (opWord 3 0x12 (payCE o), extCE o)
  | .tlook o => some (opWord 3 0x13 (payCT2 o), extCT2 o)
  | .tins o => some (opWord 3 0x14 (payCTI o), extCTI o)
  | .tdel o => some (opWord 3 0x15 (payCTD o), extCTD o)
  | .tscan o => some (opWord 3 0x16 (payCT2 o), extCT2 o)
  | .bfmtRead o => some (opWord 3 0x17 (payCTB o), extCTB o)
  | .bfmtWrite o => some (opWord 3 0x17 (payCTB o + 0x80), extCTB o)
  | .pcarve o => some (opWord 3 0x18 (payCN o), extCN o)
  | .cnop o => some (opWord 3 0x1f (payCN o), extCN o)
  | .qcopy o => some (opWord 3 0x20 (payCQ o), extCQ o)
  | .qgath o => some (opWord 3 0x21 (payCQ o), extCQ o)
  | .qscat o => some (opWord 3 0x22 (payCQ o), extCQ o)
  | .qdec o => some (opWord 3 0x23 (payCQ o), extCQ o)
  | .qack o => some (opWord 3 0x24 (payCWA o), extCWA o)
  | .qcollContribute o => some (opWord 3 0x25 (payCQ o), extCQ o)
  | .qcollDestination o => some (opWord 3 0x25 (payCQ o), extCQ o)
  | .qput o => some (opWord 3 0x26 (payCQ o), extCQ o)
  | .qputs o => some (opWord 3 0x27 (payCQ o), extCQ o)
  | .qputm o => some (opWord 3 0x28 (payCQ o), extCQ o)
  | .qget o => some (opWord 3 0x29 (payCQ o), extCQ o)
  | .qcel o => some (opWord 3 0x2a (payCQ o), extCQ o)
  | .qfence o => some (opWord 3 0x2b (payCWF o), extCWF o)
  | .qwait o => some (opWord 3 0x2c (payCW o), extCW o)
  | .qstat o => some (opWord 3 0x2d (payCW o), extCW o)
  | .qirqRestart o => some (opWord 3 0x2e (payCW o), extCW o)
  | .qirqDiscard o => some (opWord 3 0x2e (payCW o), extCW o)
  | .qirqMark o => some (opWord 3 0x2e (payCW o), extCW o)
  | .btree _ => none
  | .unassignedOpcode _ => none
  | .bar2Resize _ _ => none
  | .boundedResultWrite => none

/-- The slot position an operation is encoded for. -/
def Instr.slotPos (i : Instr) : SlotPos :=
  match i.slotV, i.slotC with
  | some .v0, _ => .v0
  | some .v1, _ => .v1
  | none, some .c0 => .c0
  | none, some .c1 => .c1
  | none, none =>
    match encodeOp i with
    | some (w, _) => if field w 28 3 == 2 then .m else .s
    | none => .s

/-- The syllables of a tree, the last with `sb` (R241, R246); none of any other row. -/
def encodeTree (i : Instr) (sb : Syllable) : List Syllable :=
  match i with
  | .btree t =>
    let w : Syllable := BitVec.ofNat 32
      (6 * 2 ^ 28 + t.shape.toNat * 2 ^ 26 + t.nt.toNat * 2 ^ 24 + t.p0.toNat * 2 ^ 20 + t.p1.toNat * 2 ^ 16
        + t.p2.toNat * 2 ^ 12 + t.p3.toNat * 2 ^ 8 + t.pol.toNat * 2 ^ 4)
    let xs := t.offs.map (fun x => extWord (BitVec.ofNat 28 x.toNat))
    w :: (xs.dropLast ++ (xs.getLast?.toList.map (fun x => x ||| sb)))
  | _ => []

/-- The syllables of one operation, the stop bit on the last when `stop` (R239). -/
def encode (i : Instr) (stop : Bool) : List Syllable :=
  let sb : Syllable := if stop then stopBit else 0
  match encodeOp i with
  | none => encodeTree i sb
  | some (w, none) => [w ||| sb]
  | some (w, some e) => [w, extWord e ||| sb]

/-- The kind of the syllables that a slot takes (R239, R240). -/
def SlotPos.kind (p : SlotPos) : BitVec 3 :=
  match p with | .s => 0 | .v0 | .v1 => 1 | .m => 2 | .c0 | .c1 => 3

/-- Reads the syllables of one operation: an op with at most one extension, or a tree with its extensions (R239, R241, R246). -/
noncomputable def decodeSyllables (p : SlotPos) (ws : List Syllable) : Except DecodeFault Instr :=
  match ws with
  | [] => .error .illegalInstr
  | w :: es =>
    if !(es.all (fun e => field e 28 3 == 5)) then .error .illegalInstr
    else if field w 28 3 == 6 then decodeTree w (es.map (fun e => field e 0 28))
    else if field w 28 3 != p.kind then .error .illegalInstr
    else match es with
      | [] => decodeOp p w none
      | [e] => decodeOp p w (some (field e 0 28))
      | _ => .error .illegalInstr

/-- The rows that are no operation of a bundle: the outside and device steps, and the faulting unassigned word, which stands for every
opcode without a row. -/
def Instr.wordless (i : Instr) : Bool :=
  match i with
  | .btree _ => false
  | i => (encodeOp i).isNone

/-- The row that the decoder answers for a word that several rows share (log 7). -/
noncomputable def Instr.canon (i : Instr) : Instr :=
  match i with
  | .qirqDiscard o | .qirqMark o => .qirqRestart o
  | .qcollDestination o => .qcollContribute o
  | i => i

/-- The slot in which a lone op of kind `k` with opcode `opc` may stand: its kind's first slot, and C1 for
xmov.sd and xmov.ds (R255). -/
def defaultSlot (w : Syllable) : Option SlotPos :=
  match (field w 28 3).toNat with
  | 0 => some .s
  | 1 => some .v0
  | 2 => some .m
  | 3 => if field w 20 8 == 0x06 || field w 20 8 == 0x07 then some .c1 else some .c0
  | _ => none

/-- What the decoder reads from an operation whose op syllable is `w` and which has no extension. The stop bit
belongs to the bundle, not to the operation. -/
noncomputable def decodeTableWord (nbits w : Nat) : Option Instr :=
  if nbits = 32 then
    let x : Syllable := BitVec.ofNat 32 w
    match defaultSlot x with
    | none => none
    | some p =>
      match decodeOp p x none with
      | .ok i => some i
      | .error _ => none
  else none

end Sys2Proof
end

