-- ==== Sys2Proof/Machine/State.lean ====
section
/-!
DEFINITION. The state of the device as plain data: every piece of state the spec names (INVENTORY.md, State), the
faults and refusals a step may end in, and the state after reset.
-/
namespace Sys2Proof.Machine

/-- Why the machine stops. -/
inductive Fault where
  /-- The compute dies have lost power after a thermal trip (R23): raised by the meanings that a core performs, until device reset. Safe: a
  core without power performs nothing either. -/
  | poweredOff
  deriving DecidableEq, Repr

/-- Why an instruction has no meaning. -/
inductive Refusal where
  /-- An instruction whose meaning is not written; raised by `exec` alone. Safe: nothing can be proved of a run through it. -/
  | notModelled (mnemonic : String)
  deriving DecidableEq, Repr

/-- The privilege levels that a core reaches (R221). -/
inductive Level where
  | u
  | s
  deriving DecidableEq, Repr

/-- The user-level context of a task: its main context, an event or fault handler, or an emulation trap (R133, R237). -/
inductive Handler where
  | main
  | user
  | emul
  deriving DecidableEq, Repr

/-- What a core does (R82, R294): no task, a task, a task whose tend waits for its
accesses, or one whose pdone does (R137). -/
inductive RunState where
  | idle
  | running
  | ending
  | leaving
  deriving DecidableEq, Repr

/-- One register: its value in the low bits, its taint set and its dependence mark (R115, R173). -/
structure RegCell where
  val : BitVec 2048
  taint : BitVec 16
  dm : Bool
  deriving DecidableEq, Repr

/-- What a fault record holds beside the counters (R225), whether only S level may take it, the cycle of the originating bundle, and whether a
deferred one waits for the handler entered before it (R228). -/
structure FaultInfo where
  code : Nat
  slot : Nat
  kind : Nat
  queue : Nat
  taint : BitVec 16
  dm : Bool
  emulated : Bool
  steered : Bool
  toS : Bool
  age : Nat
  held : Bool
  pc : Word
  addr : Word
  d0 : Word
  d1 : Word
  d2 : Word
  deriving DecidableEq, Repr

/-- What the last meaning did: it completed, it faulted, or it holds its bundle. -/
inductive Mark where
  | done
  | trapped (f : FaultInfo)
  | stalled
  deriving DecidableEq, Repr

/-- The block maps: the physical block of each block of a file (R126). -/
structure Maps where
  s : List Nat
  v : List Nat
  w : List Nat
  c : List Nat
  d : List Nat
  k : List Nat
  deriving DecidableEq, Repr

/-- One block of a frame: file, block and the physical block it had before (R127). -/
structure FrameBlock where
  file : Nat
  block : Nat
  phys : Nat
  deriving DecidableEq, Repr

/-- A user event entry's cause (R132) waits here as the value of the latest raising of a bit. -/
structure Event where
  bit : Nat
  value : Nat
  deriving DecidableEq, Repr

/-- The transfer that set the pc, still to be checked at its landing (R248). -/
structure Transfer where
  source : Word
  indirect : Bool
  checked : Bool
  deriving DecidableEq, Repr

/-- A tile operation to be emulated (R237), with its destination tiles, `n` from `z` on, and the pantry bytes that it will write: their core, first
address and end (R341). `ptaint` and `pdm` are the path taint at the trap's entry, which the library leaves as it was (R238). -/
structure EmulInfo where
  syl : Syllable
  ext : Syllable
  pc : Word
  cyc : Nat
  missing : Nat
  bitmap : Nat
  z : Nat
  n : Nat
  outs : List (Nat × Nat × Nat)
  ptaint : BitVec 16
  pdm : Bool
  deriving DecidableEq, Repr

/-- An effect of the bundle in issue that the next bundle is the first to see (R119, R120); `landed` is an interlocked result at hand, before which
every earlier bounded result of its register has landed (R121). -/
inductive Effect where
  | reg (key : Nat) (cell : RegCell) (lat : Nat)
  | landed (key : Nat) (cell : RegCell)
  | cr (n : Nat) (v : Word)
  | tile (z : Nat) (v : BitVec 32768) (lat : Nat)
  | tileRows (z h : Nat) (v : BitVec 2048) (lat : Nat)
  | pattern (slot entry : Nat) (v : BitVec 512) (lat : Nat)
  | swapPatterns (slot : Nat)
  | maps (m : Maps) (frames : List (List FrameBlock)) (spilled : List (List FrameBlock))
  | rets (r : List Word)
  | clearTaint (key : Nat)
  | clearPath
  | leave (l : Level) (h : Handler) (sup : Bool)
  | leaveRestore
  | swtrap (imm : Nat)
  | emulate (e : EmulInfo)
  | fmt (bank v : Nat)
  | carve (tagged fmts : Nat)
  | endNest
  | give (n : Nat)
  | endTask
  | leaveStub
  deriving DecidableEq, Repr

/-- A bounded result on its way to a register (R120). -/
structure Flight where
  key : Nat
  cell : RegCell
  ready : Nat
  deriving DecidableEq, Repr

/-- A bounded result on its way to row pair `row` of a tile (R120, R346), or, with no row, the bound of an M-slot result: the tile holds it
already, as M-slot operations read it, and other readers find it undefined until then (R325). -/
structure TileFlight where
  z : Nat
  row : Option Nat
  v : BitVec 2048
  ready : Nat
  deriving DecidableEq, Repr

/-- A bounded result on its way to a shuffle pattern entry (R316). -/
structure PatFlight where
  key : Nat
  v : BitVec 512
  ready : Nat
  deriving DecidableEq, Repr

/-- Pantry bytes of core `owner` that a matrix operation writes, undefined until its bound (R193); `fenced` when a fence orders later pantry accesses
of the core after them (R182). -/
structure DrainRange where
  owner : Nat
  lo : Nat
  hi : Nat
  ready : Nat
  fenced : Bool
  deriving DecidableEq, Repr

/-- What a matrix operation makes of the pantry bytes it reads: a tile, ranges of pantry bytes (core, first, end), or what steered operation `id` will
leave. -/
inductive ReadFor where
  | tile (z : Nat)
  | bytes (ranges : List (Nat × Nat × Nat))
  | steered (id : Nat)
  deriving DecidableEq, Repr

/-- Ranges of pantry bytes (core, first, end) that a matrix operation of the core may still be reading: until cycle `until_`, or until the steered operation
that reads them is done; `target` is what its result, or that of an operation that took its result up, stands in (R140, R193, R325, R359). -/
structure OpenRead where
  spans : List (Nat × Nat × Nat)
  until_ : Option Nat
  target : ReadFor
  deriving DecidableEq, Repr

/-- What an access to global memory does when it is performed (R167). -/
inductive AccKind where
  | load (size : Nat) (signed : Bool)
  | vload
  | store
  | amo (op : Nat)
  | cas
  | cas2
  | redx
  | update (op : Nat)
  | discard
  deriving DecidableEq, Repr

/-- An access of the sequencer that is issued and not yet performed (R171 to R184). `after` names the earlier accesses that must be
performed first; `tag` is its load tag; `merge` the classes whose update-only lines it merges (R183); `clean` the destinations whose taint a tclr has
emptied (R181). -/
structure Access where
  id : Nat
  kind : AccKind
  va : Word
  pa : Nat
  len : Nat
  data : List Byte
  enable : List Bool
  operand : Word
  expect : Word
  operandHi : Word
  expectHi : Word
  cls : Nat
  after : List Nat
  tag : Option Nat
  dsts : List Nat
  taint : BitVec 16
  dm : Bool
  old : BitVec 2048
  l1 : Bool
  acquire : Bool
  failAcquire : Bool
  merge : BitVec 16
  clean : List Nat
  pc : Word
  cyc : Nat
  deriving DecidableEq, Repr

/-- Later accesses of the classes in `ma` wait for the accesses `ids` (R182 to R184); once these are performed, a fence's update-only lines of the
classes in `mb` are merged (R156), and for `l1` it invalidates the L1 (R154). -/
structure Hold where
  ids : List Nat
  ma : BitVec 16
  mb : BitVec 16
  l1 : Bool
  deriving DecidableEq, Repr

/-- A held line of the L1: its line number and bytes (R154). -/
structure L1Line where
  line : Nat
  data : List Byte
  deriving DecidableEq, Repr

/-- An update-only line of the L1 (R155): kind, width in bytes, class and delta words by offset. -/
structure UpdLine where
  line : Nat
  op : Nat
  width : Nat
  cls : Nat
  deltas : SMap Word
  deriving DecidableEq, Repr

/-- A mapping entry in force, or a translation held by a TLB (R88, R162). -/
structure Mapping where
  va : Nat
  pa : Nat
  len : Nat
  page : Nat
  w : Bool
  x : Bool
  pin : Bool
  deriving DecidableEq, Repr

/-- A translation held by a TLB, for the job of a function (R162). -/
structure TlbEntry where
  fn : Nat
  m : Mapping
  deriving DecidableEq, Repr

/-- An interlocked special-function result on its way, issued in cycle `cyc` (R121, R310). -/
structure Special where
  id : Nat
  cyc : Nat
  key : Nat
  cell : RegCell
  deriving DecidableEq, Repr

/-- A steered tile operation on its way (R236), issued in cycle `cyc`: its tiles, the pantry bytes it writes, or its fault; `names` are the tiles it
has as destination, and `fenced` is as for a drain (R182). -/
structure Steered where
  id : Nat
  cyc : Nat
  names : List Nat
  fenced : Bool
  tiles : List (Nat × BitVec 32768)
  bytes : List (Nat × Nat × List Byte)
  fault : Option FaultInfo
  deriving DecidableEq, Repr

/-- The engine commands (R349, R192, R372). -/
inductive QOp where
  | copy
  | gath
  | scat
  | dec
  | collFrom
  | collTo
  | put
  | puts
  | putm
  | get
  | cel
  | fence
  | marker
  deriving DecidableEq, Repr

/-- The nest descriptor of a copy (R352): run, and count and strides of each level. -/
structure NestDesc where
  run : Nat
  levels : List (Nat × Int × Int)
  deriving DecidableEq, Repr

/-- An entry of an engine queue (R190, R351). `ptag` is the tag of its packets; `mates` are the entries a fence waits
for; `mask` is its issue mask; `key` and `tag` belong to a returning qcel issued in cycle `cyc`, `id` is its number among the accesses that wait for one another (R176), `clean` says that a tclr has emptied its register's
taint (R181), `answer` is a response still to be written at RET, and `own` says that a reduction's destination has added its own terms, and `fmts` are the bank formats taken at its start (R353, R374); `past` are
those of its earlier starts, each with the element that the restart after it went on from (R372). -/
structure Entry where
  num : Nat
  op : QOp
  group : List Word
  nest : NestDesc
  j : Bool
  ev : Bool
  after : List Nat
  started : Bool
  elem : Nat
  fmts : SMap Nat
  past : List (Nat × SMap Nat)
  sent : Bool
  ptag : Nat
  failed : List Nat
  mates : List (Nat × Nat)
  mask : BitVec 16
  key : Option Nat
  tag : Option Nat
  id : Nat
  cyc : Nat
  clean : Bool
  answer : List Byte
  own : Bool
  taint : BitVec 16
  dm : Bool
  pc : Word
  deriving DecidableEq, Repr

/-- One engine queue (R166, R351, R369 to R372); `fault` is what its latest stop recorded (R231). -/
structure Queue where
  entries : List Entry
  iss : Nat
  stop : Option Nat
  stopNum : Nat
  discLo : Nat
  discHi : Nat
  discCode : Nat
  fault : Option FaultInfo
  deriving DecidableEq, Repr

/-- The q2 ring (R357); `pi` and `ci` count from the stream's start, and a program sees them modulo 2^32. -/
structure Ring where
  base : Nat
  size : Nat
  pi : Nat
  ci : Nat
  deriving DecidableEq, Repr

/-- A pcarve drain in progress (R91). -/
structure CarveDrain where
  banks : List Nat
  until_ : Nat
  deriving DecidableEq, Repr

/-- A Granary record: bin, words, slice, and whether it is spilled (R92, R104). -/
structure Rec where
  bin : Nat
  res : Bool
  lock : Bool
  user : Nat
  entry : Nat
  arg0 : Word
  arg1 : Word
  arg2 : Word
  slice : Nat
  spilled : Bool
  deriving DecidableEq, Repr

/-- The kernel of a task (R261, R262). -/
structure Kernel where
  addr : Nat
  len : Nat
  encver : Nat
  det : Bool
  deriving DecidableEq, Repr

/-- Who a task is (R78, R80, R86); `args` are the values with which it finds s0 on at its start (R57, R80). -/
structure TaskId where
  num : Nat
  fn : Nat
  root : Bool
  launch : Nat
  gang : Nat
  rank : Nat
  lctr : Nat
  phase : Nat
  atticSize : Nat
  args : List Word
  deriving DecidableEq, Repr

/-- The operation in issue, for its fault record (R225). -/
structure InIssue where
  slot : Nat
  syl : Syllable
  ext : Syllable
  deriving DecidableEq, Repr

/-- Ordering state of a core's sequencer (R171 to R184). -/
structure Order where
  acc : List Access
  nextId : Nat
  ptaint : BitVec 16
  pdm : Bool
  holds : List Hold
  deriving DecidableEq, Repr

/-- One core (R114 to R139). `uxfer`, `sxfer` and `rxfer` are the transfers still to be checked at the bundle a handler, the supervisor handler or
a stub came before (R248); `owed` are increments of R123 for pending c-registers (R121). `born` is the cycle at which the clock of the task's
gang began (R141);
`endPc` is the bundle of the tend or pdone that waits, and `waitRun` its wait while a handler runs (R222, R231); `pads` are the zero entries that fill
a return record of a full save, by the value of ATTICB with it (R138); `firm` holds a diversion back while a launch waits (R297). -/
structure Core where
  id : Nat
  run : RunState
  task : TaskId
  kern : Kernel
  pc : Word
  npc : Word
  xfer : Option Transfer
  taken : Option Transfer
  level : Level
  handler : Handler
  sup : Bool
  regs : SMap RegCell
  maps : Maps
  frames : List (List FrameBlock)
  spilled : List (List FrameBlock)
  rets : List Word
  cr : SMap Word
  events : List Event
  cycle : Nat
  cur : InIssue
  defer : List Effect
  mark : Mark
  leaf : Nat
  flights : List Flight
  tflights : List TileFlight
  pflights : List PatFlight
  drains : List DrainRange
  reads : List OpenRead
  mFree : Nat
  order : Order
  l1 : List L1Line
  upd : List UpdLine
  tlb : List TlbEntry
  specials : List Special
  steered : List Steered
  queues : List Queue
  ring : Ring
  tiles : SMap (BitVec 32768)
  patterns : SMap (BitVec 512)
  patBank : List Nat
  tags : SMap Word
  hand : Nat
  tagged : Nat
  bfmt : SMap Nat
  carve : Option CarveDrain
  deferred : List FaultInfo
  emul : Option EmulInfo
  serving : Option EmulInfo
  preempt : Nat
  watchPa : Nat
  faults : Nat
  arrivals : Nat
  gbars : List (Nat × Word × Nat)
  asleep : Bool
  uepc0 : Word
  sepc0 : Word
  rpc : Word
  uxfer : Option Transfer
  sxfer : Option Transfer
  rxfer : Option Transfer
  owed : List (Nat × Word)
  restore : Word
  savePend : Bool
  forced : Bool
  resumedStub : Bool
  tileBase : Option Nat
  entryFrames : Nat
  session : Option Nat
  discarded : Bool
  born : Int
  endPc : Word
  waitRun : Option RunState
  firm : Bool
  pads : List (Nat × Nat)
  deriving DecidableEq, Repr

/-- An exact record (R205 to R207): the sum as an integer at the record's scale, the count and the flags. -/
structure Exact where
  sum : Int
  count : Nat
  nan : Bool
  pinf : Bool
  ninf : Bool
  ovf : Bool
  negz : Bool
  deriving DecidableEq, Repr

/-- A Larder line in REDUCE with its 32 shadows (R157, R158), of the job of function `fn`; `away` when its slice has spilled it to the shadow area
(R159). -/
structure RedLine where
  line : Nat
  fn : Nat
  away : Bool
  words : List Exact
  deriving DecidableEq, Repr

/-- One mailbox of a function (R63): a command in progress holds its result and output. -/
structure Mailbox where
  busy : Bool
  result : Nat
  outlen : Nat
  payload : SMap Byte
  pendResult : Nat
  pendOut : List Byte
  deriving DecidableEq, Repr

/-- A phase entry (R89): attic size and the carve element of each core. -/
structure Phase where
  attic : Nat
  carve : List (Nat × Nat)
  deriving DecidableEq, Repr

/-- A job (R56 to R59, R71, R72, R229); its status word and its inbox by their physical addresses (R59, R61). -/
structure Job where
  imgva : Nat
  stat : Nat
  inbox : Nat
  token : BitVec 32
  maps : List Mapping
  phases : List Phase
  phase : Nat
  spill : Nat
  pbudget : Nat
  svec : Word
  srec : Word
  pgrant : BitVec 32
  lctr : SMap Nat
  gctr : SMap Nat
  gphase : SMap Nat
  pctr : SMap Nat
  jctr : Nat
  lmarks : List Nat
  gmarks : List Nat
  rootTask : Nat
  cancelled : Bool
  shadow : Option Nat
  deriving DecidableEq, Repr

/-- What the extension of a function's capability page was built from at its last job start (R69, R70). -/
structure Extension where
  devnum : Option Nat
  clusters : BitVec 32
  engines : SMap (BitVec 16)
  banks : SMap Nat
  chans : SMap Nat
  library : Bool
  errata : List (List Byte)
  deriving DecidableEq, Repr

/-- A function of the endpoint (R53 to R55, R62, R63). STATE is coded as in R55. -/
structure Fn where
  jobaddr : Nat
  st : Nat
  err : Nat
  cause : Nat
  token : BitVec 32
  winbase : Nat
  barLog : Nat
  clusters : BitVec 32
  share : List (Nat × Nat)
  msixTable : SMap (BitVec 32)
  msixMask : List Nat
  msixPend : List Nat
  msixSent : List Nat
  monitor : Mailbox
  service : Mailbox
  meas3 : BitVec 512
  latched : Nat
  ext : Option Extension
  job : Option Job
  deriving DecidableEq, Repr

/-- An accepted launch (R74 to R77); `suid` is the session of its WORKER tasks, open at its acceptance (R95). -/
structure Launch where
  id : Nat
  fn : Nat
  issuer : Nat
  evt : Bool
  worker : Bool
  session : Nat
  suid : Option Nat
  kern : Kernel
  entry : Nat
  drainT : Nat
  drainN : Nat
  arg : Word
  ctx : Nat
  ctxStride : Nat
  attic : Nat
  atticSize : Nat
  ngang : Nat
  ganglog : Nat
  steer : Nat
  caps : Nat
  pbanks : Nat
  lctr : Nat
  gctr : Nat
  deps : List Nat
  nlev : Nat
  nest : Bool
  perm : Nat
  slice : Nat
  counts : List Nat
  phase : Nat
  deriving DecidableEq, Repr

/-- Where a gang's request stands (R82). -/
inductive GangState where
  | wait
  | hold (pos : Nat)
  | backoff
  | run
  deriving DecidableEq, Repr

/-- A gang of a launch (R81, R82): the ranks of its tasks that have ended, and the cores these have left. -/
structure Gang where
  launch : Nat
  num : Nat
  st : GangState
  b : Nat
  ended : List Nat
  cores : List Nat
  deriving DecidableEq, Repr

/-- How a suspended task was saved (R137 to R139). -/
inductive SaveKind where
  | stub
  | full
  | inHandler
  | inStub
  deriving DecidableEq, Repr

/-- A suspended task: the core's state and pantry as saved (R138, R139). -/
structure Suspended where
  core : Core
  pantry : SMap Byte
  kind : SaveKind
  posts : List Event
  deriving DecidableEq, Repr

/-- A multicast read of a gang that its other members may join (R141): its gang, MCID, CORE and PADDR, the cycle of the task that issued it, and the
bytes that it found, by address. -/
structure Multicast where
  launch : Nat
  gang : Nat
  mcid : Nat
  core : Nat
  paddr : Nat
  since : Nat
  bytes : List (Nat × Byte)
  deriving DecidableEq, Repr

/-- The Distributor (R71 to R86), with the cluster networks' multicast reads (R141). -/
structure Dist where
  launches : List Launch
  gangs : List Gang
  nextLaunch : Nat
  nextTask : Nat
  busy : List Nat
  held : List (Nat × Nat)
  reported : List (Nat × Nat)
  suspended : List Suspended
  pointers : List Nat
  merged : List Multicast
  deriving DecidableEq, Repr

/-- What a member reported in a wave (R106, R108). -/
structure Report where
  dev : Nat
  m : Nat
  armed : Bool
  p : Nat
  r : Nat
  s : Nat
  d : Nat
  deriving DecidableEq, Repr

/-- A popped record and who holds it; `lock` is whold's declaration (R99, R102). -/
structure Popped where
  task : Nat
  rec_ : Rec
  lock : Bool
  deriving DecidableEq, Repr

/-- A Granary session (R93 to R112); `peers` are the devices on which it is known to have opened (R112), `endedOn` those
on which it is known to have ended (R110, R111). `late` are messages that came after it had ended here and may be for the next session of its number;
of that session, those it has still to take (R106, log 103). -/
structure Session where
  uid : Nat
  num : Nat
  fn : Nat
  group : Nat
  gctr : Nat
  delta : Nat
  lowm : Nat
  spillOff : Nat
  spillB : Nat
  opener : Option Nat
  st : Nat
  dead : Bool
  recs : List Rec
  popped : List Popped
  floor : Nat
  fc : Nat
  fu : Nat
  p : Nat
  r : Nat
  s : Nat
  d : Nat
  wave : Nat
  replies : List Report
  prev : List Report
  committed : Nat
  asked : Bool
  lastPeer : Nat
  peers : List Nat
  endedOn : List Nat
  late : List Packet
  deriving DecidableEq, Repr

/-- Who sent a packet (R29, R34): nobody is the transfer that has ended (R17). -/
inductive Origin where
  | queue (core task num : Nat)
  | granary (session : Nat)
  | mover
  | nobody
  deriving DecidableEq, Repr

/-- A sequenced packet awaiting its acknowledgement or response (R34, R36); a multicast one waits for `members`. `job` is the job it was sent for: its
function and the number of its root task (R34, R51). -/
structure Unacked where
  conn : Conn
  pkt : Packet
  origin : Origin
  resends : Nat
  response : Bool
  members : List Nat
  loc : Word
  job : Option (Nat × Nat)
  deriving DecidableEq, Repr

/-- An inbound connection, with the group of a multicast one. A place on it is its packet's sequence number counted on without wrapping, the first
number 0 at place 2^16: places below `next` have all arrived, and `seen` are later ones that have; `waiting` are packets received and not performed, each
with its place; `refused` are sequence numbers answered with a NACK of a code (R29, R30, R35, R45). -/
structure Inbound where
  src : Nat
  group : Option Nat
  lane : Nat
  next : Nat
  seen : List Nat
  refused : List (Nat × Nat)
  waiting : List (Nat × Packet)
  deriving DecidableEq, Repr

/-- A response kept until it is acknowledged (R36). -/
structure Kept where
  src : Nat
  lane : Nat
  seq : Nat
  pkt : Packet
  resends : Nat
  deriving DecidableEq, Repr

/-- A data packet of a command, PUT or PUTMC, as the target keeps it for a signal with its tag: its place on its connection (`Inbound`), its bytes, and the
code that refused it, if one did (R45, R46, R51, log 102). -/
structure DataPart where
  src : Nat
  lane : Nat
  group : Nat
  tag : Nat
  mcast : Bool
  place : Nat
  addr : Nat
  len : Nat
  refused : Option Nat
  deriving DecidableEq, Repr

/-- One element run of a reduction kept at its destination: the address of its first element, node, contributions, and an operand for each element
(R38, R368). -/
structure RedRun where
  addr : Nat
  node : Nat
  members : Nat
  vals : List Nat
  deriving DecidableEq, Repr

/-- A reduction kept at its destination (R368), or, with a `span` and no entry, one that was discarded: what still arrives for the `span` bytes from
`addr` on is dropped (R43). One without an entry was discarded for a bad payload check (`bad`) or its timeout (`late`) where these are set. -/
structure Reduction where
  group : Nat
  addr : Nat
  span : Nat
  op : Nat
  mode : Nat
  runs : List RedRun
  bad : Bool
  late : Bool
  entry : Option (Nat × Nat)
  deriving DecidableEq, Repr

/-- A formed collective group: number, member devices in rank order, and the function whose job joined (R26). -/
structure Group where
  num : Nat
  members : List Nat
  fn : Nat
  deriving DecidableEq, Repr

/-- A checkpoint range granted to a source (R47). -/
structure Grant where
  dev : Nat
  base : Nat
  len : Nat
  deriving DecidableEq, Repr

/-- A checkpoint transfer in progress: function, buddy, next packets and bytes (R17). -/
structure Mover where
  fn : Nat
  dev : Nat
  total : Nat
  queue : List Packet
  deriving DecidableEq, Repr

/-- The fabric interface (R24 to R51). `sent` is every packet handed to the links, oldest first; `closers` are the functions whose jobs keep a
connection closed (R34), `ended` the groups that the end of a job dissolved (R51), and `backlog` Granary messages, each with its session, that wait for
their connection's window (R34). -/
structure Fabric where
  devnum : Option Nat
  groups : List Group
  ended : List Nat
  nextSeq : List (Conn × Nat)
  closed : List Conn
  closers : List (Conn × Nat)
  backlog : List (Packet × Nat)
  unacked : List Unacked
  inbound : List Inbound
  kept : List Kept
  parts : List DataPart
  reds : List Reduction
  grants : List Grant
  mover : Option Mover
  nextTag : Nat
  sent : List Packet
  deriving DecidableEq, Repr

/-- An errata bundle that service firmware has submitted: its records' values of 24 bytes, and its signature (R65, R69). -/
structure ErrataBundle where
  records : List (List Byte)
  signature : List Byte
  deriving DecidableEq, Repr

/-- What the Monitor keeps: ladders and bitmaps, the results held until the job boundary, the tuning passes that run (R18 to R22, R232 to R234), the
errata accepted and those held until the job boundary (R65, R69), the bundles submitted (R65), and the components measured since reset (R66). -/
structure Ladders where
  engines : SMap (BitVec 16)
  banks : SMap Nat
  chans : SMap Nat
  held : List (TuneRes × BitVec 2)
  passes : List TuneRes
  errata : List (List Byte)
  errataHeld : List (List Byte)
  bundles : List ErrataBundle
  loaded : List Nat
  deriving DecidableEq, Repr

/-- What service firmware keeps (R23, R54, R63, R64, R223); `hot` are the dies whose junction has reached 105 °C and has not yet
fallen below 100 °C: while one is, the clock is throttled (R23). -/
structure Service where
  clockMHz : Nat
  ceiling : Nat
  hot : List Nat
  temps : List Nat
  powerMW : Nat
  ports : List (Bool × Nat)
  malformed : Nat
  unsupported : Nat
  logged : List Nat
  deriving DecidableEq, Repr

/-- The device. `core` is the core in focus, `parked` the others by number; a core not listed is idle. `mem` holds physical memory,
`larder` the bytes the Larder holds and has not written back. -/
structure State where
  core : Core
  parked : SMap Core
  mem : SMap Byte
  larder : SMap (Option Byte)
  reduce : List RedLine
  pantry : SMap Byte
  fns : List Fn
  dist : Dist
  sessions : List Session
  fabric : Fabric
  ladders : Ladders
  service : Service
  meas : List (BitVec 512)
  library : Bool
  l2 : List (Nat × TlbEntry)
  bar2Out : Option (List Byte)
  inputs : List Instr
  fresh : Nat
  powered : Bool
  deriving DecidableEq, Repr

/-- The register cell with value zero and no taint. -/
def RegCell.zero : RegCell := { val := 0, taint := 0, dm := false }

/-- The identity block maps (R126, log 3). -/
def Maps.reset : Maps :=
  { s := [0, 1, 2, 3, 4, 5, 6, 7], v := [0, 1, 2, 3], w := [0, 1, 2, 3], c := [0, 1], d := [0, 1], k := [0, 1] }

/-- An empty engine queue (R351). -/
def Queue.reset : Queue := { entries := [], iss := 0, stop := none, stopNum := 0, discLo := 0, discHi := 0, discCode := 0, fault := none }

/-- Core `n` after device reset: no task; DEVID unassigned (R25), CAPP fixed (R118), the registers as log 3 names them. -/
def Core.reset (n : Nat) : Core :=
  { id := n, run := .idle,
    task := { num := 0, fn := 0, root := false, launch := 0, gang := 0, rank := 0, lctr := 0, phase := 0, atticSize := 0, args := [] },
    kern := { addr := 0, len := 0, encver := 3, det := false },
    pc := 0, npc := 0, xfer := none, taken := none, level := .u, handler := .main, sup := false,
    regs := [], maps := Maps.reset, frames := [], spilled := [], rets := [],
    cr := SMap.set 0 (SMap.set 0 (SMap.set 0 (SMap.set 0 [] 0 (BitVec.ofNat 64 n)) 1 (BitVec.ofNat 64 (n / 8))) 2 0xFFFF) 8 0xF000000000,
    events := [], cycle := 0, cur := { slot := 0, syl := 0, ext := 0 }, defer := [], mark := .done, leaf := 0,
    flights := [], tflights := [], pflights := [], drains := [], reads := [], mFree := 0,
    order := { acc := [], nextId := 0, ptaint := 0, pdm := false, holds := [] },
    l1 := [], upd := [], tlb := [], specials := [], steered := [],
    queues := [Queue.reset, Queue.reset, Queue.reset, Queue.reset],
    ring := { base := 0, size := 0, pi := 0, ci := 0 },
    tiles := [], patterns := [], patBank := [0, 0], tags := [], hand := 0, tagged := 0, bfmt := [], carve := none,
    deferred := [], emul := none, serving := none, preempt := 0, watchPa := 0, faults := 0, arrivals := 0, gbars := [], asleep := false,
    uepc0 := 0, sepc0 := 0, rpc := 0, uxfer := none, sxfer := none, rxfer := none, owed := [], restore := 0, savePend := false, forced := false, resumedStub := false, tileBase := none, entryFrames := 0,
    session := none, discarded := false, born := 0, endPc := 0, waitRun := none, firm := false, pads := [] }

/-- An idle mailbox (R63). -/
def Mailbox.reset : Mailbox := { busy := false, result := 0, outlen := 0, payload := [], pendResult := 0, pendOut := [] }

/-- Function `n` after device reset (R53 to R55, R62, R66; log 3). -/
def Fn.reset (n : Nat) : Fn :=
  { jobaddr := 0, st := 0, err := 0, cause := 0, token := 0, winbase := 0, barLog := 30,
    clusters := if n = 0 then 0xFFFFFFFF else 0,
    share := if n = 0 then [(0, 0xC000000000), (0x100000000000, 0x40000000000)] else [],
    msixTable := [], msixMask := List.range 16, msixPend := [], msixSent := [], monitor := Mailbox.reset, service := Mailbox.reset, meas3 := 0,
    latched := 0, ext := none, job := none }

/-- The device right after reset. -/
def State.reset : State :=
  { core := Core.reset 0, parked := [], mem := [], larder := [], reduce := [], pantry := [],
    fns := (List.range 9).map Fn.reset,
    dist := { launches := [], gangs := [], nextLaunch := 1, nextTask := 1, busy := [], held := [], reported := [], suspended := [],
              pointers := List.replicate 32 7, merged := [] },
    sessions := [],
    fabric := { devnum := none, groups := [], ended := [], nextSeq := [], closed := [], closers := [], backlog := [], unacked := [], inbound := [], kept := [], parts := [],
                reds := [], grants := [], mover := none, nextTag := 0, sent := [] },
    ladders := { engines := [], banks := [], chans := [], held := [], passes := [], errata := [], errataHeld := [], bundles := [], loaded := [] },
    service := { clockMHz := 1400, ceiling := 1400, hot := [], temps := [0, 0, 0, 0], powerMW := 0, ports := List.replicate 12 (true, 0),
                 malformed := 0, unsupported := 0, logged := [] },
    meas := [0, 0, 0], library := true, l2 := [], bar2Out := none, inputs := [], fresh := 0, powered := true }

end Sys2Proof.Machine
end

