-- ==== Sys2Proof/Machine/Numbers.lean ====
section
/-!
DEFINITION. Number formats and their arithmetic (R197 to R208): decoded values, the one rounding, exact records, and MX blocks.
-/
namespace Sys2Proof.Machine

/-- A decoded floating-point value: `fin neg m e` stands for (-1)^neg times m times 2^e. -/
inductive FpVal where
  | nan
  | inf (neg : Bool)
  | fin (neg : Bool) (m : Nat) (e : Int)
  deriving DecidableEq, Repr

/-- A floating-point format (R198): width, fraction bits, bias, largest finite code, canonical NaN, and the code of +infinity. -/
structure Fmt where
  w : Nat
  m : Nat
  bias : Nat
  maxc : Nat
  nan : Nat
  inf : Option Nat
  deriving DecidableEq, Repr

/-- FP32 (R198). -/
def fp32 : Fmt := { w := 32, m := 23, bias := 127, maxc := 0x7F7FFFFF, nan := 0x7FC00000, inf := some 0x7F800000 }
/-- BF16 (R198). -/
def bf16 : Fmt := { w := 16, m := 7, bias := 127, maxc := 0x7F7F, nan := 0x7FC0, inf := some 0x7F80 }
/-- E4M3 (R198). -/
def e4m3 : Fmt := { w := 8, m := 3, bias := 7, maxc := 0x7E, nan := 0x7F, inf := none }
/-- E5M2 (R198). -/
def e5m2 : Fmt := { w := 8, m := 2, bias := 15, maxc := 0x7B, nan := 0x7E, inf := some 0x7C }
/-- E2M1 (R198); a NaN converts to +0 (R203). -/
def e2m1 : Fmt := { w := 4, m := 1, bias := 1, maxc := 7, nan := 0, inf := none }

/-- The floating-point format of a format code (R146); RAW stands for FP32 (R310). -/
def fmtOf (code : Nat) : Fmt :=
  match code with
  | 2 => bf16
  | 3 => e4m3
  | 4 => e5m2
  | 5 => e2m1
  | _ => fp32

/-- The value of a code of format `f` (R198). -/
def fpDecode (f : Fmt) (x : Nat) : FpVal :=
  let neg := x / 2 ^ (f.w - 1) % 2 == 1
  let mag := x % 2 ^ (f.w - 1)
  let e := mag / 2 ^ f.m
  let fr := mag % 2 ^ f.m
  if mag ≤ f.maxc then
    if e = 0 then .fin neg fr (1 - (f.bias : Int) - (f.m : Int))
    else .fin neg (2 ^ f.m + fr) ((e : Int) - (f.bias : Int) - (f.m : Int))
  else if f.inf = some mag then .inf neg
  else .nan

/-- Sign bit of a format. -/
def signBit (f : Fmt) (neg : Bool) : Nat := if neg then 2 ^ (f.w - 1) else 0

/-- Whether rounding moves a magnitude up: `odd` quotient, remainder `r` of 2^sh, mode as R202. -/
def roundUp (rm : Nat) (neg odd : Bool) (r sh : Nat) : Bool :=
  match rm with
  | 0 => decide (2 ^ sh < 2 * r) || (decide (2 * r = 2 ^ sh) && odd)
  | 1 => false
  | 2 => neg && r != 0
  | _ => !neg && r != 0

/-- `m` times 2^e rounded to an integer multiple of 2^q (R202). -/
def roundQuot (rm : Nat) (neg : Bool) (m : Nat) (e q : Int) : Nat :=
  if q ≤ e then m * 2 ^ (e - q).toNat
  else
    let sh := (q - e).toNat
    let n := m / 2 ^ sh
    n + (if roundUp rm neg (n % 2 == 1) (m % 2 ^ sh) sh then 1 else 0)

/-- The overflow columns of R203. -/
def overflowCode (f : Fmt) (rm : Nat) (neg : Bool) : Nat :=
  match f.inf with
  | none => signBit f neg + f.maxc
  | some c =>
    let up := match rm with | 0 => true | 1 => false | 2 => neg | _ => !neg
    signBit f neg + (if up then c else f.maxc)

/-- A finite magnitude `m` times 2^e, plus a fraction below its last place when `sticky`, in format `f` (R202, R203). -/
def fpRoundFin (f : Fmt) (rm : Nat) (neg : Bool) (m : Nat) (e : Int) (sticky : Bool) : Nat :=
  let m' := if sticky then 4 * m + 1 else m
  let e' := if sticky then e - 2 else e
  if m' = 0 then signBit f neg
  else
    let lowest : Int := 1 - (f.bias : Int) - (f.m : Int)
    let q := max ((Nat.log2 m' : Int) + e' - (f.m : Int)) lowest
    let n := roundQuot rm neg m' e' q
    let code := if n < 2 ^ f.m then n else (q - lowest + 1).toNat * 2 ^ f.m + (n - 2 ^ f.m)
    if f.maxc < code then overflowCode f rm neg else signBit f neg + code

/-- The one rounding of a value into a format (R203). -/
def fpRound (f : Fmt) (rm : Nat) (v : FpVal) : Nat :=
  match v with
  | .nan => f.nan
  | .inf neg => signBit f neg + (match f.inf with | some c => c | none => f.maxc)
  | .fin neg m e => fpRoundFin f rm neg m e false

/-- The least and greatest integers of width `w` (R197). -/
def intMin (signed : Bool) (w : Nat) : Int := if signed then - (2 ^ (w - 1) : Int) else 0
/-- The greatest integer of width `w` (R197). -/
def intMax (signed : Bool) (w : Nat) : Int := if signed then 2 ^ (w - 1) - 1 else 2 ^ w - 1

/-- Clamps to the range of R197. -/
def saturate (signed : Bool) (w : Nat) (x : Int) : Int :=
  if x < intMin signed w then intMin signed w else if intMax signed w < x then intMax signed w else x

/-- Conversion to an integer format: rounded, then saturated (R203). -/
def fpToInt (rm : Nat) (signed : Bool) (w : Nat) (v : FpVal) : Int :=
  match v with
  | .nan => 0
  | .inf neg => if neg then intMin signed w else intMax signed w
  | .fin neg m e =>
    let n : Int := roundQuot rm neg m e 0
    saturate signed w (if neg then -n else n)

/-- An integer as a value. -/
def ofInt (x : Int) : FpVal := .fin (decide (x < 0)) x.natAbs 0

/-- The integer `v` at scale 2^e0, for e0 at or below its exponent. -/
def atScale (neg : Bool) (m : Nat) (e e0 : Int) : Int :=
  let n : Int := m * 2 ^ (e - e0).toNat
  if neg then -n else n

/-- An exact integer at scale 2^e as a value; a zero takes the sign `zneg`. -/
def ofScaled (x : Int) (e : Int) (zneg : Bool) : FpVal :=
  .fin (if x = 0 then zneg else decide (x < 0)) x.natAbs e

/-- The exact product of two values (R199, R203). -/
def fpMul (a b : FpVal) : FpVal :=
  match a, b with
  | .nan, _ | _, .nan => .nan
  | .inf n, .inf k => .inf (n != k)
  | .inf n, .fin k m _ => if m = 0 then .nan else .inf (n != k)
  | .fin k m _, .inf n => if m = 0 then .nan else .inf (n != k)
  | .fin n m e, .fin k p q => .fin (n != k) (m * p) (e + q)

/-- The exact sum of two values; the sign of an exact zero follows R203. -/
def fpAdd (rm : Nat) (a b : FpVal) : FpVal :=
  match a, b with
  | .nan, _ | _, .nan => .nan
  | .inf n, .inf k => if n = k then .inf n else .nan
  | .inf n, .fin _ _ _ => .inf n
  | .fin _ _ _, .inf n => .inf n
  | .fin n m e, .fin k p q =>
    let lo := min e q
    let x := atScale n m e lo + atScale k p q lo
    ofScaled x lo (if m = 0 ∧ p = 0 ∧ n = k then n else rm == 2)

/-- The negation of a value. -/
def fpNeg (v : FpVal) : FpVal :=
  match v with
  | .nan => .nan
  | .inf n => .inf (!n)
  | .fin n m e => .fin (!n) m e

/-- The sign of a value's difference from another, -1, 0 or 1; zeros compare equal (R199). -/
def fpOrder (a b : FpVal) : Option Int :=
  match a, b with
  | .nan, _ | _, .nan => none
  | .inf n, .inf k => some (if n = k then 0 else if n then -1 else 1)
  | .inf n, .fin _ _ _ => some (if n then -1 else 1)
  | .fin _ _ _, .inf n => some (if n then 1 else -1)
  | .fin n m e, .fin k p q =>
    let lo := min e q
    some (Int.sign (atScale n m e lo - atScale k p q lo))

/-- The sign of a value. -/
def fpSign (v : FpVal) : Bool := match v with | .nan => false | .inf n => n | .fin n _ _ => n

/-- `a` is taken by a minimum before `b`: below it, or a -0 beside a +0 (R199). -/
def fpBelow (a b : FpVal) : Bool :=
  match fpOrder a b with
  | some c => decide (c < 0) || (decide (c = 0) && fpSign a)
  | none => false

/-- Minimum or maximum of two codes of a format (R199). -/
def fpMinMax (f : Fmt) (isMax : Bool) (x y : Nat) : Nat :=
  let a := fpDecode f x
  let b := fpDecode f y
  if a = .nan ∨ b = .nan then f.nan
  else if isMax then (if fpBelow a b then y else x)
  else (if fpBelow a b then x else y)

/-! Exact records -/

/-- The empty record (R207). -/
def Exact.empty : Exact := { sum := 0, count := 0, nan := false, pinf := false, ninf := false, ovf := false, negz := true }

/-- What fixes a record form: scale, sum width in bits, greatest count without OVF, and the width of COUNT (R205, R206). -/
structure ExactForm where
  scale : Int
  bits : Nat
  limit : Nat
  cbits : Nat
  deriving DecidableEq, Repr

/-- The XS record (R205). -/
def xsForm : ExactForm := { scale := 160, bits := 320, limit := 2 ^ 31, cbits := 32 }
/-- The XP record (R206). -/
def xpForm : ExactForm := { scale := 320, bits := 640, limit := 2 ^ 32, cbits := 64 }

/-- A sum wrapped to the record's width, two's complement (R207). -/
def wrapSum (k : ExactForm) (x : Int) : Int := Int.bmod x (2 ^ k.bits)

/-- Adds one term to a record (R207). -/
def Exact.add (k : ExactForm) (r : Exact) (v : FpVal) : Exact :=
  let n := r.count + 1
  { sum := (match v with | .fin neg m e => wrapSum k (r.sum + atScale neg m e (-k.scale)) | _ => r.sum),
    count := min n (2 ^ k.cbits - 1),
    nan := r.nan || decide (v = .nan), pinf := r.pinf || decide (v = .inf false), ninf := r.ninf || decide (v = .inf true),
    ovf := r.ovf || decide (k.limit < n),
    negz := r.negz && (match v with | .fin true 0 _ => true | _ => false) }

/-- Adds two records (R207). -/
def Exact.join (k : ExactForm) (a b : Exact) : Exact :=
  { sum := wrapSum k (a.sum + b.sum), count := min (a.count + b.count) (2 ^ k.cbits - 1),
    nan := a.nan || b.nan, pinf := a.pinf || b.pinf, ninf := a.ninf || b.ninf,
    ovf := a.ovf || b.ovf || decide (k.limit < a.count + b.count), negz := a.negz && b.negz }

/-- The record of a list of terms. -/
def Exact.ofList (k : ExactForm) (vs : List FpVal) : Exact := vs.foldl (Exact.add k) Exact.empty

/-- A record as the value that rounding it converts (R208). -/
def Exact.value (k : ExactForm) (r : Exact) : FpVal :=
  if r.ovf then .nan
  else if r.nan || (r.pinf && r.ninf) then .nan
  else if r.pinf then .inf false
  else if r.ninf then .inf true
  else ofScaled r.sum (-k.scale) (r.sum == 0 && r.count != 0 && r.negz)

/-- A record rounded into a format (R208). -/
def Exact.round (k : ExactForm) (f : Fmt) (rm : Nat) (r : Exact) : Nat := fpRound f rm (r.value k)

/-- The status flags in bits [63:59] and the count's low bits (R205, R206). -/
def Exact.flags (r : Exact) : Nat :=
  (if r.nan then 2 ^ 63 else 0) + (if r.pinf then 2 ^ 62 else 0) + (if r.ninf then 2 ^ 61 else 0) +
  (if r.ovf then 2 ^ 60 else 0) + (if r.negz then 2 ^ 59 else 0)

/-- An XS record as its 48 bytes, one little-endian number (R205). -/
def Exact.packXs (r : Exact) : Nat :=
  (BitVec.ofInt 320 r.sum).toNat + (r.flags + r.count % 2 ^ 32) * 2 ^ 320

/-- An XS record read from its 48 bytes (R205). Its reserved status bits are ignored, and packing writes them as zero; so it is for XP (R206). No rule says
what a form does with a record in which they are not zero (DESIGN CHOICE, log 122). -/
def Exact.unpackXs (x : Nat) : Exact :=
  let st := x / 2 ^ 320
  { sum := (BitVec.ofNat 320 x).toInt, count := st % 2 ^ 32, nan := st.testBit 63, pinf := st.testBit 62, ninf := st.testBit 61,
    ovf := st.testBit 60, negz := st.testBit 59 }

/-- An XP record as its 96 bytes (R206). -/
def Exact.packXp (r : Exact) : Nat :=
  (BitVec.ofInt 640 r.sum).toNat + (r.count % 2 ^ 64) * 2 ^ 640 + r.flags * 2 ^ 704

/-- An XP record read from its 96 bytes (R206). -/
def Exact.unpackXp (x : Nat) : Exact :=
  let st := x / 2 ^ 704
  { sum := (BitVec.ofNat 640 x).toInt, count := x / 2 ^ 640 % 2 ^ 64, nan := st.testBit 63, pinf := st.testBit 62,
    ninf := st.testBit 61, ovf := st.testBit 60, negz := st.testBit 59 }

/-! MX blocks -/

/-- The element width of a format code (R146); RAW counts as 32 (R327). -/
def fmtBits (code : Nat) : Nat :=
  match code with
  | 2 | 9 => 16
  | 3 | 4 | 6 | 10 => 8
  | 5 | 8 => 4
  | 7 => 6
  | _ => 32

/-- A format code with a scale area (R146). -/
def isMx (code : Nat) : Bool := 5 ≤ code && code ≤ 8

/-- The value of element code `x` of format `code`, with its block's scale byte `e` (R148, R201). -/
def elemValue (code x e : Nat) : FpVal :=
  if isMx code then
    if e = 255 then .nan
    else
      let s : Int := (e : Int) - 127
      if code = 5 then (match fpDecode e2m1 x with | .fin n m k => .fin n m (k + s) | v => v)
      else
        let w := fmtBits code
        let q := (BitVec.ofNat w x).toInt
        .fin (decide (q < 0)) q.natAbs (s - ((w : Int) - 2))
  else if code = 9 then ofInt (BitVec.ofNat 16 x).toInt
  else if code = 10 then ofInt (BitVec.ofNat 8 x).toInt
  else fpDecode (fmtOf code) x

/-- A value converted to an element of a format without a scale (R148). -/
def elemCode (code rm : Nat) (v : FpVal) : Nat :=
  if code = 9 then (BitVec.ofInt 16 (fpToInt rm true 16 v)).toNat
  else if code = 10 then (BitVec.ofInt 8 (fpToInt rm true 8 v)).toNat
  else fpRound (fmtOf code) rm v

/-- floor(log2) of a magnitude; none for zero. -/
def fpLog (v : FpVal) : Option Int :=
  match v with
  | .fin _ m e => if m = 0 then none else some ((Nat.log2 m : Int) + e)
  | _ => none

/-- The greatest floor(log2) of the values' magnitudes; none when all are zero. -/
def maxLog (vs : List FpVal) : Option Int :=
  vs.foldl (fun a v => match a, fpLog v with
    | none, x => x
    | some y, none => some y
    | some y, some x => some (max y x)) none

/-- Quantization of a block to MX format `code`: the scale byte and the element codes (R204). -/
def quantize (code : Nat) (vs : List FpVal) : Nat × List Nat :=
  if vs.any (fun v => match v with | .fin _ _ _ => false | _ => true) then (255, vs.map (fun _ => 0))
  else
    let emax : Int := if code = 5 then 2 else 0
    let g : Int := if code = 5 then 0 else (fmtBits code : Int) - 2
    let e : Int := match maxLog vs with | none => 0 | some a => max 0 (min 254 (a - emax + 127))
    (e.toNat, vs.map (fun v => match v with
      | .fin n m k =>
        let x := FpVal.fin n m (k + 127 - e + g)
        if code = 5 then fpRound e2m1 0 x
        else (BitVec.ofInt (fmtBits code) (fpToInt 0 true (fmtBits code) x)).toNat
      | _ => 0))

/-- The exact sum of FP32 words resolves to one word by RNE (R158). -/
def Exact.toFp32 (r : Exact) : Nat := r.round xsForm fp32 0

/-- The shadow of an FP32 word entering REDUCE (R158): its exact value. -/
def Exact.ofFp32 (x : Nat) : Exact := Exact.add xsForm Exact.empty (fpDecode fp32 x)

end Sys2Proof.Machine
end

