-- ==== Sys2Proof/Machine/Base.lean ====
section
/-!
DEFINITION. Byte helpers, CRC-32C, the meanings' monad, cores by number, registers, and faults as values (R5, R27, R114, R120 to R128,
R173, R225).
-/
namespace Sys2Proof.Machine

/-! Bytes -/

/-- `n` bytes of a number, least significant first (R5). -/
def toBytes (n x : Nat) : List Byte := (List.range n).map (fun i => BitVec.ofNat 8 (x / 2 ^ (8 * i)))

/-- The little-endian number of a byte list (R5). -/
def ofBytes (bs : List Byte) : Nat := bs.foldr (fun b a => b.toNat + 256 * a) 0

/-- Bits [lo + len - 1 : lo] of a number. -/
def bits (x lo len : Nat) : Nat := x / 2 ^ lo % 2 ^ len

/-- A bit of a number. -/
def bit (x i : Nat) : Bool := x.testBit i

/-- Element `i` of a list, or the default. -/
def nth {α : Type} (d : α) (l : List α) (i : Nat) : α := l.getD i d

/-- One step of the reflected CRC with polynomial 0x1EDC6F41 (R27). -/
def crcBit (c : BitVec 32) : BitVec 32 :=
  if c.getLsbD 0 then (c >>> 1) ^^^ 0x82F63B78#32 else c >>> 1

/-- One byte into the CRC (R27). -/
def crcByte (c : BitVec 32) (b : Byte) : BitVec 32 :=
  crcBit (crcBit (crcBit (crcBit (crcBit (crcBit (crcBit (crcBit (c ^^^ b.zeroExtend 32))))))))

/-- CRC-32C (R27). -/
def crc32c (bs : List Byte) : BitVec 32 := ~~~ (bs.foldl crcByte 0xFFFFFFFF#32)

/-! Cores and functions -/

/-- Core `n` of the device. -/
def State.coreAt (s : State) (n : Nat) : Core :=
  if n = s.core.id then s.core else SMap.get (Core.reset n) s.parked n

/-- Changes core `n`. -/
def State.modCore (s : State) (n : Nat) (f : Core → Core) : State :=
  if n = s.core.id then { s with core := f s.core } else { s with parked := SMap.set (Core.reset n) s.parked n (f (s.coreAt n)) }

/-- Puts a core back under its number. -/
def State.putCore (s : State) (c : Core) : State := s.modCore c.id (fun _ => c)

/-- Brings core `n` into focus. -/
def State.focusOn (s : State) (n : Nat) : State :=
  if n = s.core.id then s
  else
    let c := s.coreAt n
    { s with core := c, parked := SMap.set (Core.reset s.core.id) (SMap.drop s.parked n) s.core.id s.core }

/-- The cores that a state holds other than at their reset value: the one in focus and the parked ones. -/
def State.cores (s : State) : List Core := s.core :: s.parked.map (fun p => p.2)

/-- Function `n` (R53). -/
def State.fnAt (s : State) (n : Nat) : Fn := nth (Fn.reset n) s.fns n

/-- Changes function `n`. -/
def State.modFn (s : State) (n : Nat) (f : Fn → Fn) : State := { s with fns := s.fns.set n (f (s.fnAt n)) }

/-- The job of function `n`. -/
def State.jobAt (s : State) (n : Nat) : Option Job := (s.fnAt n).job

/-- Changes the job of function `n`, if it has one. -/
def State.modJob (s : State) (n : Nat) (f : Job → Job) : State := s.modFn n (fun x => { x with job := x.job.map f })

/-- A control register of a core (R118). -/
def Core.ctl (c : Core) (n : Nat) : Word := SMap.get 0 c.cr n
/-- Sets a control register of a core (R118). -/
def Core.setCtl (c : Core) (n : Nat) (v : Word) : Core := { c with cr := SMap.set 0 c.cr n v }

/-- The cluster of a core (R9). -/
def Core.cluster (c : Core) : Nat := c.id / 8

/-- Queue `q` of a core. -/
def Core.queue (c : Core) (q : Nat) : Queue := nth Queue.reset c.queues q
/-- Changes queue `q` of a core. -/
def Core.modQueue (c : Core) (q : Nat) (f : Queue → Queue) : Core := { c with queues := c.queues.set q (f (c.queue q)) }

/-! The monad of the meanings -/

/-- Why a meaning does not complete: a fault to take, or the bundle is held; `why` is 1 for a gbar (R293), 2 for a
sleeping wfe (R134), 3 for a launch that waits for the Distributor (R297). -/
inductive Stop where
  | fault (f : FaultInfo)
  | stall (why : Nat)
  deriving DecidableEq, Repr

/-- A meaning: a change of the state that may stop. -/
abbrev M (α : Type) := StateT State (Except Stop) α

/-- Holds the bundle (R119, R121). -/
def stall {α : Type} : M α := throw (.stall 0)

/-- The core in focus. -/
def core : M Core := do return (← get).core
/-- Changes the core in focus. -/
def setCore (f : Core → Core) : M Unit := modify (fun s => { s with core := f s.core })

/-- The next free value of `n` bits: an undefined result (R8, log 4). -/
def freeVal (n : Nat) : M (BitVec n) := do
  let s ← get
  set { s with fresh := s.fresh + 1 }
  return BitVec.ofNat n (Config.freeBits s.fresh).toNat

/-- A free choice among `n` (log 1). -/
def chooseOf (n : Nat) : M Nat := do
  let s ← get
  set { s with fresh := s.fresh + 1 }
  return Config.choice s.fresh % n

/-- Adds an effect that the next bundle is the first to see. -/
def later (e : Effect) : M Unit := setCore (fun c => { c with defer := c.defer ++ [e] })

/-! Faults as values (R224, R225) -/

/-- A precise fault of the op in issue, its detail words zero. -/
def Core.faultOf (c : Core) (code : Nat) : FaultInfo :=
  { code := code, slot := c.cur.slot, kind := 0, queue := 0xFF, taint := 0, dm := false, emulated := false, steered := false,
    toS := code == 0x14, age := c.cycle, held := false, pc := c.pc, addr := 0, d0 := 0, d1 := 0, d2 := 0 }

/-- A fault whose details are the syllable, its extension and the encoding version (R225). -/
def Core.syllableFault (c : Core) (code : Nat) : FaultInfo :=
  { c.faultOf code with d0 := c.cur.syl.zeroExtend 64, d1 := c.cur.ext.zeroExtend 64, d2 := BitVec.ofNat 64 c.kern.encver }

/-- Faults ILLEGAL_INSTR. -/
def illegalInstr {α : Type} : M α := do throw (.fault ((← core).syllableFault 0x01))
/-- Faults ILLEGAL_OPERAND. -/
def illegalOperand {α : Type} : M α := do throw (.fault ((← core).syllableFault 0x02))
/-- Faults PRIV. -/
def privFault {α : Type} : M α := do throw (.fault ((← core).syllableFault 0x04))
/-- Requires S level (R221). -/
def needS : M Unit := do if (← core).level = .s then pure () else privFault
/-- Faults ILLEGAL_OPERAND unless `b`. -/
def check (b : Bool) : M Unit := if b then pure () else illegalOperand

/-- Faults ILLEGAL_OPERAND for a register whose value is at fault, with its taint (R225), unless `b`. -/
def checkReg (r : RegCell) (b : Bool) : M Unit := do
  if b then pure () else throw (.fault { (← core).syllableFault 0x02 with taint := r.taint, dm := r.dm })

/-- Faults at an address, with the taint of the register that gave it. -/
def addrFault {α : Type} (code : Nat) (a : Word) (r : RegCell) : M α := do
  throw (.fault { (← core).faultOf code with addr := a, taint := r.taint, dm := r.dm })

/-- Faults ALIGN, with the access size (R225). -/
def alignFault {α : Type} (size : Nat) (a : Word) (r : RegCell) : M α := do
  throw (.fault { (← core).faultOf 0x13 with addr := a, taint := r.taint, dm := r.dm, d0 := BitVec.ofNat 64 size })

/-! Registers (R114, R126, R133, R230) -/

/-- The register files and banks by number: s k v w c d, the user shadows of s and k, the supervisor shadows, vm, wm, g. -/
inductive File where
  | s
  | k
  | v
  | w
  | c
  | d
  | vm
  | wm
  | g
  deriving DecidableEq, Repr

/-- The number of a file in register keys. -/
def File.num (f : File) : Nat :=
  match f with | .s => 0 | .k => 1 | .v => 2 | .w => 3 | .c => 4 | .d => 5 | .vm => 10 | .wm => 11 | .g => 12

/-- The width of a file's registers (R114, R116). -/
def File.width (f : File) : Nat :=
  match f with | .s | .c | .d => 64 | .k => 1 | .v | .w => 2048 | .vm | .wm => 256 | .g => 128

/-- The block map of a file (R126). -/
def Maps.of (m : Maps) (f : File) : List Nat :=
  match f with | .s => m.s | .v => m.v | .w => m.w | .c => m.c | .d => m.d | .k => m.k | _ => []

/-- The key of a register in storage of bank `b`. -/
def regKey (b n : Nat) : Nat := b * 1024 + n

/-- Where register `n` of file `f` lives now: its physical register, or the shadow bank of the level (R126, R133, R230). -/
def Core.phys (c : Core) (f : File) (n : Nat) : Nat :=
  let mapped := regKey f.num (nth 0 (c.maps.of f) (n / 8) * 8 + n % 8)
  match f with
  | .s => if 56 ≤ n then (if c.sup then regKey 8 n else if c.handler ≠ .main then regKey 6 n else mapped) else mapped
  | .k => if 12 ≤ n then (if c.sup then regKey 9 n else if c.handler ≠ .main then regKey 7 n else mapped) else mapped
  | .vm | .wm | .g => regKey f.num n
  | _ => mapped

/-- A register of a core as it stands. -/
def Core.cell (c : Core) (key : Nat) : RegCell := SMap.get RegCell.zero c.regs key

/-- Sets a register of a core. -/
def Core.setCell (c : Core) (key : Nat) (r : RegCell) : Core := { c with regs := SMap.set RegCell.zero c.regs key r }

/-- An interlocked result lands: the bounded results that were on their way to the register when it was issued have landed before it (R120, R121). -/
def Core.landCell (c : Core) (key : Nat) (r : RegCell) : Core :=
  { c.setCell key r with flights := c.flights.filter (fun x => x.key != key) }

/-- The registers that interlocked results still on their way will write (R121). An operation marks its destinations pending from the cycle after its
issue on: the operations of its own bundle read what stood there (R119). -/
def Core.pending (c : Core) (key : Nat) : Bool :=
  c.order.acc.any (fun a => a.dsts.contains key && a.cyc != c.cycle) || c.specials.any (fun x => x.key == key && x.cyc != c.cycle) ||
  c.queues.any (fun q => q.entries.any (fun e => e.key == some key && e.cyc != c.cycle))

/-- A bounded result to the register has not landed (R120). -/
def Core.inFlight (c : Core) (key : Nat) : Bool := c.flights.any (fun x => x.key == key)

/-- What a read finds before a bound has passed: an undefined value in the file's width, with the taints on their way (R120). -/
def Core.early (c : Core) (f : File) (key : Nat) (v : BitVec 2048) : RegCell :=
  { val := BitVec.ofNat 2048 (v.toNat % 2 ^ f.width),
    taint := c.flights.foldl (fun t x => if x.key = key then t ||| x.cell.taint else t) 0,
    dm := c.flights.any (fun x => x.key == key && x.cell.dm) }

/-- Reads a register: held while it is pending, an undefined value before a bound has passed (R120, R121). -/
def readReg (f : File) (n : Nat) : M RegCell := do
  let c ← core
  let key := c.phys f n
  if c.pending key then stall
  else if c.inFlight key then do
    let v ← freeVal 2048
    return c.early f key v
  else return c.cell key

/-- The union of taint sets (R174). -/
def taintOf (rs : List RegCell) : BitVec 16 := rs.foldl (fun t r => t ||| r.taint) 0
/-- The union of dependence marks (R174). -/
def dmOf (rs : List RegCell) : Bool := rs.any (fun r => r.dm)

/-- A result cell: a value with the taints of its operands (R174). -/
def result (v : Nat) (srcs : List RegCell) : RegCell := { val := BitVec.ofNat 2048 v, taint := taintOf srcs, dm := dmOf srcs }

/-- Writes a register: a bounded result of latency `lat`; held while the register is pending (R120, R121, R270). -/
def writeCell (f : File) (n : Nat) (r : RegCell) (lat : Nat) : M Unit := do
  let key := (← core).phys f n
  if (← core).pending key then stall else later (.reg key r lat)

/-- Writes a register with a value derived from `srcs`. -/
def writeReg (f : File) (n v : Nat) (srcs : List RegCell) (lat : Nat) : M Unit := writeCell f n (result v srcs) lat

/-- A scalar register's value. -/
def RegCell.word (r : RegCell) : Word := r.val.truncate 64
/-- A predicate's value. -/
def RegCell.flag (r : RegCell) : Bool := r.val.getLsbD 0

/-- Reads s-register `n`. -/
def readS (n : BitVec 6) : M RegCell := readReg .s n.toNat
/-- Reads predicate `n`. -/
def readK (n : BitVec 4) : M RegCell := readReg .k n.toNat
/-- Writes s-register `n`. -/
def writeS (n : BitVec 6) (v : Word) (srcs : List RegCell) (lat : Nat) : M Unit := writeReg .s n.toNat v.toNat srcs lat
/-- Writes predicate `n`, latency 1 (R273). -/
def writeK (n : BitVec 4) (b : Bool) (srcs : List RegCell) : M Unit := writeReg .k n.toNat b.toNat srcs 1

/-- A destination of an interlocked result: held while pending, otherwise its key (R121). -/
def target (f : File) (n : Nat) : M Nat := do
  let key := (← core).phys f n
  if (← core).pending key then stall else return key

/-- Writes an interlocked result that is at hand: held while the register is pending (R121). -/
def landReg (f : File) (n v : Nat) (srcs : List RegCell) : M Unit := do later (.landed (← target f n) (result v srcs))

/-- Adds to the path taint (R175). -/
def addPath (rs : List RegCell) : M Unit :=
  setCore (fun c => { c with order := { c.order with ptaint := c.order.ptaint ||| taintOf rs, pdm := c.order.pdm || dmOf rs } })

/-- The file of a vector slot (R114). -/
def vFile (v : VSlot) : File := match v with | .v0 => .v | .v1 => .w
/-- The masks of a vector slot (R114). -/
def vMasks (v : VSlot) : File := match v with | .v0 => .vm | .v1 => .wm
/-- The number of a vector slot among the pattern stores. -/
def vNum (v : VSlot) : Nat := match v with | .v0 => 0 | .v1 => 1
/-- The file of a copy slot (R114). -/
def cFile (v : CSlot) : File := match v with | .c0 => .c | .c1 => .d

end Sys2Proof.Machine
end

