-- ==== Sys2Proof/Machine/Digest.lean ====
section
/-!
DEFINITION. SHA-512, which R66, R67 and R69 name: the Secure Hash Standard's function, big-endian words in 128-byte blocks (log 120).
-/
namespace Sys2Proof.Machine

/-- The round constants: the first 64 bits of the fractions of the cube roots of the first 80 primes. -/
def shaConstants : List Word :=
  [0x428A2F98D728AE22, 0x7137449123EF65CD, 0xB5C0FBCFEC4D3B2F, 0xE9B5DBA58189DBBC,
   0x3956C25BF348B538, 0x59F111F1B605D019, 0x923F82A4AF194F9B, 0xAB1C5ED5DA6D8118,
   0xD807AA98A3030242, 0x12835B0145706FBE, 0x243185BE4EE4B28C, 0x550C7DC3D5FFB4E2,
   0x72BE5D74F27B896F, 0x80DEB1FE3B1696B1, 0x9BDC06A725C71235, 0xC19BF174CF692694,
   0xE49B69C19EF14AD2, 0xEFBE4786384F25E3, 0x0FC19DC68B8CD5B5, 0x240CA1CC77AC9C65] ++
  [0x2DE92C6F592B0275, 0x4A7484AA6EA6E483, 0x5CB0A9DCBD41FBD4, 0x76F988DA831153B5,
   0x983E5152EE66DFAB, 0xA831C66D2DB43210, 0xB00327C898FB213F, 0xBF597FC7BEEF0EE4,
   0xC6E00BF33DA88FC2, 0xD5A79147930AA725, 0x06CA6351E003826F, 0x142929670A0E6E70,
   0x27B70A8546D22FFC, 0x2E1B21385C26C926, 0x4D2C6DFC5AC42AED, 0x53380D139D95B3DF,
   0x650A73548BAF63DE, 0x766A0ABB3C77B2A8, 0x81C2C92E47EDAEE6, 0x92722C851482353B] ++
  [0xA2BFE8A14CF10364, 0xA81A664BBC423001, 0xC24B8B70D0F89791, 0xC76C51A30654BE30,
   0xD192E819D6EF5218, 0xD69906245565A910, 0xF40E35855771202A, 0x106AA07032BBD1B8,
   0x19A4C116B8D2D0C8, 0x1E376C085141AB53, 0x2748774CDF8EEB99, 0x34B0BCB5E19B48A8,
   0x391C0CB3C5C95A63, 0x4ED8AA4AE3418ACB, 0x5B9CCA4F7763E373, 0x682E6FF3D6B2B8A3,
   0x748F82EE5DEFB2FC, 0x78A5636F43172F60, 0x84C87814A1F0AB72, 0x8CC702081A6439EC] ++
  [0x90BEFFFA23631E28, 0xA4506CEBDE82BDE9, 0xBEF9A3F7B2C67915, 0xC67178F2E372532B,
   0xCA273ECEEA26619C, 0xD186B8C721C0C207, 0xEADA7DD6CDE0EB1E, 0xF57D4F7FEE6ED178,
   0x06F067AA72176FBA, 0x0A637DC5A2C898A6, 0x113F9804BEF90DAE, 0x1B710B35131C471B,
   0x28DB77F523047D84, 0x32CAAB7B40C72493, 0x3C9EBE0A15C9BEBC, 0x431D67C49C100D4C,
   0x4CC5D4BECB3E42B6, 0x597F299CFC657E2A, 0x5FCB6FAB3AD6FAEC, 0x6C44198C4A475817]

/-- The eight working words. -/
structure ShaState where
  a : Word
  b : Word
  c : Word
  d : Word
  e : Word
  f : Word
  g : Word
  h : Word
  deriving DecidableEq, Repr

/-- The initial value: the first 64 bits of the fractions of the square roots of the first 8 primes. -/
def shaStart : ShaState :=
  { a := 0x6A09E667F3BCC908, b := 0xBB67AE8584CAA73B, c := 0x3C6EF372FE94F82B, d := 0xA54FF53A5F1D36F1,
    e := 0x510E527FADE682D1, f := 0x9B05688C2B3E6C1F, g := 0x1F83D9ABFB41BD6B, h := 0x5BE0CD19137E2179 }

/-- One round with its constant and message word. -/
def ShaState.round (v : ShaState) (k w : Word) : ShaState :=
  let s1 := v.e.rotateRight 14 ^^^ v.e.rotateRight 18 ^^^ v.e.rotateRight 41
  let ch := (v.e &&& v.f) ^^^ (~~~ v.e &&& v.g)
  let t1 := v.h + s1 + ch + k + w
  let s0 := v.a.rotateRight 28 ^^^ v.a.rotateRight 34 ^^^ v.a.rotateRight 39
  let maj := (v.a &&& v.b) ^^^ (v.a &&& v.c) ^^^ (v.b &&& v.c)
  { a := t1 + (s0 + maj), b := v.a, c := v.b, d := v.c, e := v.d + t1, f := v.e, g := v.f, h := v.g }

/-- The word of the message schedule that follows the last 16. -/
def shaNext (ws : List Word) : Word :=
  let x := nth 0 ws 1
  let y := nth 0 ws 14
  (y.rotateRight 19 ^^^ y.rotateRight 61 ^^^ (y >>> 6)) + nth 0 ws 9 + (x.rotateRight 1 ^^^ x.rotateRight 8 ^^^ (x >>> 7)) + nth 0 ws 0

/-- The rounds of a block: its message words stand in `ws`, 16 at a time. -/
def shaRounds : List Word → List Word → ShaState → ShaState
  | [], _, v => v
  | k :: ks, ws, v => shaRounds ks (ws.tail ++ [shaNext ws]) (v.round k (nth 0 ws 0))

/-- A big-endian number. -/
def bigEndian (bs : List Byte) : Nat := bs.foldl (fun n b => 256 * n + b.toNat) 0

/-- A block of 128 bytes is taken in. -/
def ShaState.block (v : ShaState) (bs : List Byte) : ShaState :=
  let ws := (List.range 16).map (fun i => BitVec.ofNat 64 (bigEndian ((bs.drop (8 * i)).take 8)))
  let w := shaRounds shaConstants ws v
  { a := v.a + w.a, b := v.b + w.b, c := v.c + w.c, d := v.d + w.d, e := v.e + w.e, f := v.f + w.f, g := v.g + w.g, h := v.h + w.h }

/-- A message with its padding: a byte 0x80, zeros, and its length in bits as a big-endian 128-bit number. -/
def shaPad (bs : List Byte) : List Byte :=
  bs ++ [0x80] ++ List.replicate ((239 - bs.length % 128) % 128) 0 ++ (toBytes 16 (8 * bs.length)).reverse

/-- The blocks of a message are taken in. -/
def shaBlocks : Nat → List Byte → ShaState → ShaState
  | 0, _, v => v
  | n + 1, bs, v => shaBlocks n (bs.drop 128) (v.block (bs.take 128))

/-- SHA-512 of a byte string: its 64 bytes, of which the first is in the low bits (R66, R67, R69, log 120). -/
def sha512 (bs : List Byte) : BitVec 512 :=
  let m := shaPad bs
  let v := shaBlocks (m.length / 128) m shaStart
  BitVec.ofNat 512 (ofBytes ([v.a, v.b, v.c, v.d, v.e, v.f, v.g, v.h].flatMap (fun w => (toBytes 8 w.toNat).reverse)))

end Sys2Proof.Machine
end

