-- ==== Sys2Proof/Machine/Memory.lean ====
section
/-!
DEFINITION. Memory: the capability page, the Larder's line states, watches and events, translation, and pantries (R12, R68, R69, R132,
R135, R142 to R164).
-/
namespace Sys2Proof.Machine

/-! The capability page (R68, R69) -/

/-- One record: type, length, value, padding to 8 bytes (R68). -/
def capRecord (t : Nat) (v : List Byte) : List Byte :=
  toBytes 2 t ++ toBytes 2 v.length ++ v ++ List.replicate ((8 - (4 + v.length) % 8) % 8) 0

/-- The ROM part's records (R69). -/
def romPart : List Byte :=
  capRecord 0x0002 (toBytes 4 0x0E ++ toBytes 4 3) ++
  capRecord 0x0010 ([4, 8, 8, 0] ++ toBytes 4 0xC0000 ++ toBytes 2 768 ++ toBytes 2 128) ++
  capRecord 0x0030 (toBytes 2 64 ++ toBytes 2 4096 ++ toBytes 2 4096 ++ [8, 12] ++ toBytes 4 0) ++
  capRecord 0x00FF ((List.range 132).map Config.romSignature)

/-- Record 0x0020: the engine bitmaps (R69). -/
def recEngines (x : Extension) : List Byte := (List.range 256).flatMap (fun c => toBytes 2 (SMap.get 0x003F x.engines c).toNat)
/-- Record 0x0021: the pantry ladders (R22). -/
def recBanks (x : Extension) : List Byte := (List.range 4096).map (fun i => BitVec.ofNat 8 (SMap.get 0 x.banks i))
/-- Record 0x0022: the channel ladders (R22). -/
def recChans (x : Extension) : List Byte := (List.range 784).map (fun i => BitVec.ofNat 8 (SMap.get 0 x.chans i))

/-- The identity record of function `f` (R69). -/
def recIdentity (f : Nat) (x : Extension) : List Byte :=
  toBytes 4 0x256 ++ toBytes 2 0 ++ toBytes 2 (x.devnum.getD 0xFFFF) ++ [BitVec.ofNat 8 f, 0, 0, 0] ++ toBytes 4 x.clusters.toNat ++
  (List.range 16).map Config.serial ++ (List.range 132).map Config.publicKey

/-- The operation of the dispatch table entry that holds window offset `a`, where one does: tables ZV, VZ, XV, SV and GG (R407). -/
def libraryTable (a : Nat) : Option Nat :=
  if 0x100000 ≤ a ∧ a < 0x130000 then some (0xB0800000 + 32 * ((a - 0x100000) / 256) + (a - 0x100000) / 16 % 16)
  else if 0x140000 ≤ a ∧ a < 0x170000 then some (0xB0900000 + 32 * ((a - 0x140000) / 256) + (a - 0x140000) / 16 % 16)
  else if 0x180000 ≤ a ∧ a < 0x180200 then some (0xB0144000 + 4 * ((a - 0x180000) / 16))
  else if 0x180200 ≤ a ∧ a < 0x180400 then some (0xB0005000 + 4 * ((a - 0x180200) / 16))
  else if 0x180400 ≤ a ∧ a < 0x180500 then some (0xA1900000 + 65536 * ((a - 0x180400) / 16))
  else none

/-! The syllables of the listing of emu_bf16, assembled by R239 to R266: a header stands where R264 has one emitted, and its first bundle has L = 1. -/

/-- emu_bf16 up to label hloop: its registers, the fields of the operation and of both descriptors, their checks and its constants (R406, R408). -/
def emuSetup : List Syllable := [
  0x48000000, 0x84806704, 0x8252380A, 0x021208FF, 0xD0000003, 0x82527806, 0x8212490F, 0x8252B802, 0x82128A0F, 0x89538000, 0x82138E07, 0x0272C400,
  0xD3C00060, 0x82430904, 0x80130B30, 0x84430000, 0x40000000, 0xB0534000, 0xB0524100, 0x82524938, 0x82124907, 0x829C0938, 0x8416008C, 0x8253CD14,
  0x0213CFFF, 0xD0000FFF, 0x02134DFF, 0xD0000FFF, 0x82430A04, 0x80130B30, 0x84430000, 0x40000000, 0xB0548000, 0xB0524100, 0x82524938, 0x82124907,
  0x829C0938, 0x8416007D, 0x8254D214, 0x0214D3FF, 0xD0000FFF, 0x021492FF, 0xD0000FFF, 0x80B24D3C, 0x80B24948, 0x80B2494C, 0x021249FF, 0xD0000000,
  0x831C2400, 0x84160071, 0x82740001, 0x8244103B, 0x3000D02C, 0xB001506C, 0x82747FFF, 0xB0005100, 0x82441004, 0x82525020, 0x80B41024, 0xB0011000,
  0x90A18CA0, 0x95328403, 0x95321003, 0x41000000, 0x90B29420, 0x909210A0, 0x82750000]

/-- The start of a row pair, from label hloop on (R408). -/
def emuRows : List Syllable := [
  0x40000000, 0x0272C000, 0xD3C00040, 0x82430808, 0x80130B30, 0x82425404, 0x80130C24, 0x84430000, 0x40000000, 0x02425401, 0x90B10840, 0x8035893C,
  0x8205D200, 0x41000000, 0x82754000, 0x80159634]

/-- One element, from label eloop on (R408). -/
def emuElement : List Syllable := [
  0x40000000, 0x02531501, 0x3001D600, 0xB0041700, 0x02430C04, 0x90A60C60, 0x0272C000, 0x53C00060, 0x90A68C60, 0x00130B30, 0x90A70C60, 0x02125501,
  0x90A78C60, 0x02424905, 0x96041C00, 0x16049C00, 0xD0000001, 0x96054000, 0x04430000, 0x1605C000, 0xD0000001, 0x40000000, 0x80F41124, 0x81A41002,
  0x8272C001, 0x8242CB3F, 0x80B4102C, 0xB0015000, 0x47000000, 0x94362140, 0x90A29480, 0x47000000, 0x94362560, 0x45000000, 0x144630A0, 0xD0010000,
  0x45000000, 0x14463000, 0xD0020000, 0x43000000, 0x94533000, 0x42000000, 0xB0140600, 0x81A41002, 0x80E41024, 0x82531501, 0x82430C04, 0x0272C200,
  0xD3C00060, 0x80130B30, 0x84430000, 0x40000000, 0x0015D74C, 0x90A10820, 0x82055501, 0x831C5420, 0x84160003, 0x8015963C, 0x8205D200]

/-- The end of an element, of a row pair and of the routine, from label same on (R408). -/
def emuNext : List Syllable := [
  0x40000000, 0x833D5440, 0x8416FFC3, 0x90A00840, 0x0272C000, 0xD3C00050, 0x82430808, 0x80130B30, 0x82425404, 0x80130C24, 0x84430000, 0x40000000,
  0x82051401, 0x833E5010, 0x84177FA7, 0x47000000, 0x80000000, 0x84A00000, 0x827E0000, 0x89400000]

/-- The refusal, from label refuse on (R406, R408). -/
def emuRefuse : List Syllable := [
  0x40000000, 0x820E7B00, 0x820EFC00, 0x820F3800, 0x827E0021, 0x84A00000, 0x89400000]

/-- The syllables of emu_bf16 (R408). -/
def emuBf16 : List Syllable := emuSetup ++ emuRows ++ emuElement ++ emuNext ++ emuRefuse

/-- The library's byte at window offset `a`: of emu_bf16's listing (R408), of an entry's four syllables in a dispatch table (R407), otherwise a free byte
(log 9). -/
def libraryAt (a : Nat) : Byte :=
  let at_ := a - (Config.emuEntry - Config.window)
  if Config.emuEntry - Config.window ≤ a ∧ at_ < 4 * emuBf16.length then nth 0 (toBytes 4 (nth 0 emuBf16 (at_ / 4)).toNat) (at_ % 4)
  else match libraryTable a with
  | some op => nth 0 (toBytes 4 0x48000000 ++ toBytes 4 0x04500000 ++ toBytes 4 op ++ toBytes 4 0xC0000000) (a % 16)
  | none => Config.libraryByte (a - Config.capPageSize)

/-- The image of the resident emulation library (R69 record 0x0040). -/
def libraryImage : List Byte := (List.range Config.librarySize.toNat).map (fun i => libraryAt (Config.capPageSize + i))

/-- The extension's records before its signature (R69). -/
def extPart (f : Nat) (x : Extension) : List Byte :=
  capRecord 0x0001 (recIdentity f x) ++ capRecord 0x0020 (recEngines x) ++ capRecord 0x0021 (recBanks x) ++
  capRecord 0x0022 (recChans x) ++
  (if x.library then
    capRecord 0x0040 (toBytes 4 Config.libraryVersion.toNat ++ toBytes 4 Config.librarySize.toNat ++
      toBytes 64 (sha512 libraryImage).toNat ++ toBytes 8 Config.libraryEntry)
   else []) ++
  x.errata.flatMap (capRecord 0x00E0)

/-- The capability page of function `f` (R69). -/
def capPage (f : Nat) (e : Option Extension) : List Byte :=
  match e with
  | none => romPart
  | some x => romPart ++ extPart f x ++ capRecord 0x00FE ((List.range 132).map (Config.sign (extPart f x)))

/-- A physical address in a capability page (log 8). -/
def inCapPage (pa : Nat) : Bool := 2 ^ 48 ≤ pa && pa % Config.windowSize < Config.capPageSize
/-- A physical address in the emulation library's region (log 8). -/
def inLibrary (pa : Nat) : Bool := 2 ^ 48 ≤ pa && Config.capPageSize ≤ pa % Config.windowSize

/-! Bytes of physical memory (R157, log 2) -/

/-- A byte as memory behind the Larder holds it. -/
def State.memByte (s : State) (pa : Nat) : Byte :=
  if inCapPage pa then
    let f := (pa - 2 ^ 48) / Config.windowSize
    nth 0 (capPage f (s.fnAt f).ext) (pa % Config.windowSize)
  else if inLibrary pa then libraryAt (pa % Config.windowSize)
  else SMap.get 0 s.mem pa

/-- A byte as the Larder answers it: what it holds, otherwise memory. -/
def State.byteAt (s : State) (pa : Nat) : Byte :=
  match SMap.get none s.larder pa with
  | some b => b
  | none => s.memByte pa

/-- `n` bytes from `pa` on. -/
def State.bytesFrom (s : State) (pa n : Nat) : List Byte := (List.range n).map (fun i => s.byteAt (pa + i))

/-- Puts bytes into the Larder: dirty, not yet written back. -/
def larderPut (m : SMap (Option Byte)) (pa : Nat) (bs : List Byte) : SMap (Option Byte) :=
  match bs with
  | [] => m
  | b :: r => larderPut (SMap.set none m pa (some b)) (pa + 1) r

/-- Writes back the dirty bytes of a line (R157, Replacement). -/
def State.writeBack (s : State) (line : Nat) : State :=
  let here := s.larder.filter (fun p => p.1 / 128 == line)
  { s with mem := here.foldl (fun m p => match p.2 with | some b => SMap.set 0 m p.1 b | none => m) s.mem,
           larder := s.larder.filter (fun p => p.1 / 128 != line) }

/-! Atomic operations on words (R48, R155, R281) -/

/-- Width-`w` result of atomic `op`: 0 add, 1 and, 2 or, 3 xor, 4 min, 5 max, 6 minu, 7 maxu, 8 swap, 9 FP32 min, 10 FP32 max. -/
def atomicOp (op w : Nat) (old b : Nat) : Nat :=
  let x := BitVec.ofNat w old
  let y := BitVec.ofNat w b
  match op with
  | 0 => (x + y).toNat
  | 1 => (x &&& y).toNat
  | 2 => (x ||| y).toNat
  | 3 => (x ^^^ y).toNat
  | 4 => if x.slt y then x.toNat else y.toNat
  | 5 => if x.slt y then y.toNat else x.toNat
  | 6 => if x.ult y then x.toNat else y.toNat
  | 7 => if x.ult y then y.toNat else x.toNat
  | 8 => y.toNat
  | 9 => fpMinMax fp32 false x.toNat y.toNat
  | _ => fpMinMax fp32 true x.toNat y.toNat

/-- The identity a delta word starts at (R155). -/
def atomicIdentity (op w : Nat) : Nat :=
  match op with
  | 1 | 6 => 2 ^ w - 1
  | 4 => 2 ^ (w - 1) - 1
  | 5 => 2 ^ (w - 1)
  | 9 => 0x7F800000
  | 10 => 0xFF800000
  | _ => 0

/-! Events (R132) and watches (R135) -/

/-- Latches an event in a core: EVLATCH, and UPEND where UIE enables it (R132). -/
def Core.post (c : Core) (b v : Nat) : Core :=
  let c := c.setCtl 0x26 1
  if (c.ctl 0x22).getLsbD b then
    { c.setCtl 0x23 (c.ctl 0x23 ||| BitVec.ofNat 64 (2 ^ b)) with
      events := c.events.filter (fun e => e.bit != b) ++ [{ bit := b, value := v }] }
  else c

/-- Posts an event to the task on core `n`, if one runs (R132). -/
def State.post (s : State) (n b v : Nat) : State :=
  s.modCore n (fun c => if c.run = .idle then c else c.post b v)

/-- A write performed to a line: every armed watch of it is a hit and is disarmed (R135). -/
def State.hitWatch (s : State) (line : Nat) : State :=
  s.cores.foldl (fun s c =>
    if c.run ≠ .idle && (c.ctl 0x27).getLsbD 0 && c.watchPa / 128 == line then
      s.modCore c.id (fun c => (c.setCtl 0x27 (c.ctl 0x27 &&& ~~~ 1)).post 2 0)
    else s) s

/-! The spill region (R56, R105) -/

/-- A session whose share of the job's spill region holds one of `n` bytes from `pa` on, and which has records there (R94, R104, log 111). -/
def State.sharesSpill (s : State) (pa n : Nat) (x : Session) : Bool :=
  x.st == 0 && x.recs.any (fun r => r.spilled) &&
  (match s.jobAt x.fn with
    | none => false
    | some j =>
      let base := Config.spillBase j.rootTask + x.spillOff
      decide (pa < base + x.spillB) && decide (base < pa + n))

/-- A record with free contents, its four words (R92, R105); `n` is the first free value it takes. -/
def Rec.undefine (n : Nat) (r : Rec) : Rec :=
  let w (i : Nat) : Word := (Config.freeBits (n + i)).truncate 64
  { r with bin := bits (w 0).toNat 54 10, res := (w 0).getLsbD 48, lock := (w 0).getLsbD 49, user := bits (w 0).toNat 50 4, entry := bits (w 0).toNat 0 48,
           arg0 := w 1, arg1 := w 2, arg2 := w 3 }

/-- A write into an open session's spill share makes the contents of its spilled records undefined (R105). -/
def State.spoilSpills (s : State) (pa n : Nat) : State :=
  if s.sessions.all (fun x => x.recs.all (fun r => !r.spilled)) then s
  else
    let fix (x : Session) : Session :=
      if s.sharesSpill pa n x then { x with recs := x.recs.zipIdx.map (fun p => if p.1.spilled then p.1.undefine (s.fresh + 4 * p.2) else p.1) } else x
    { s with sessions := s.sessions.map fix, fresh := s.fresh + s.sessions.foldl (fun k x => max k (4 * x.recs.length)) 0 }

/-! Larder lines (R155 to R160) -/

/-- Applies a holder's deltas to its line (R156). -/
def State.applyDeltas (s : State) (u : UpdLine) : State :=
  u.deltas.foldl (fun s p =>
    let a := u.line * 128 + p.1
    let old := ofBytes (s.bytesFrom a u.width)
    { s with larder := larderPut s.larder a (toBytes u.width (atomicOp u.op (8 * u.width) old p.2.toNat)) }) s

/-- Merges the update-only line of core `n` for a line, if it holds one (R156). -/
def State.mergeOf (s : State) (n line : Nat) : State :=
  match (s.coreAt n).upd.find? (fun u => u.line == line) with
  | none => s
  | some u => (((s.spoilSpills (line * 128) 128).applyDeltas u).modCore n (fun c => { c with upd := c.upd.filter (fun u => u.line != line) })).hitWatch line

/-- Recalls every holder of a line (R156, R157). -/
def State.recall (s : State) (line : Nat) : State := s.cores.foldl (fun s c => s.mergeOf c.id line) s

/-- Resolves a REDUCE line: every word that was added to is rounded once, and the shadows are dropped; any other word resolves to its own value
(R158). -/
def State.resolve (s : State) (line : Nat) : State :=
  match s.reduce.find? (fun r => r.line == line) with
  | none => s
  | some r =>
    { s with larder := larderPut s.larder (line * 128) (r.words.zipIdx.flatMap (fun w =>
        if w.1.count ≤ 1 then s.bytesFrom (line * 128 + 4 * w.2) 4 else toBytes 4 w.1.toFp32)),
             reduce := s.reduce.filter (fun r => r.line != line) }

/-- What precedes every plain access to a line (R157). -/
def State.settle (s : State) (line : Nat) : State := (s.recall line).resolve line

/-- The lines that `n` bytes from `pa` on touch. -/
def linesOf (pa n : Nat) : List Nat := (List.range ((pa + n - 1) / 128 - pa / 128 + 1)).map (fun i => pa / 128 + i)

/-- A plain read at the Larder (R157): the bytes and the state with every line settled. -/
def State.larderRead (s : State) (pa n : Nat) : List Byte × State :=
  let s := (linesOf pa n).foldl State.settle s
  (s.bytesFrom pa n, s)

/-- A plain write at the Larder (R157), seen by watches (R135). -/
def State.larderWrite (s : State) (pa : Nat) (bs : List Byte) : State :=
  if bs.isEmpty then s
  else
    let s := (linesOf pa bs.length).foldl State.settle s
    let s := s.spoilSpills pa bs.length
    let s := { s with larder := larderPut s.larder pa bs }
    (linesOf pa bs.length).foldl State.hitWatch s

/-- A discarded line (R160): the Larder's copy and its shadows are dropped; holders keep their deltas. -/
def State.discardLine (s : State) (line : Nat) : State :=
  { s with larder := s.larder.filter (fun p => p.1 / 128 != line), reduce := s.reduce.filter (fun r => r.line != line) }

/-- The device slice that homes a physical address (R14). -/
def sliceOf (pa : Nat) : Nat :=
  let l := pa / 128
  let h := (l ^^^ (l / 2 ^ 6) ^^^ (l / 2 ^ 12) ^^^ (l / 2 ^ 18) ^^^ (l / 2 ^ 24) ^^^ (l / 2 ^ 30)) % 64
  let die := if pa < 2 ^ 44 then pa / 2 ^ 36 / 3 else pa / 2 ^ 38 % 16 / 4
  64 * die + h

/-- A line comes to its slice's shadows on chip: where 512 others are there, the least recently added of them is spilled with its shadows to the
shadow area (R159). -/
def State.roomOnChip (s : State) (line : Nat) : State :=
  let chip := s.reduce.filter (fun r => !r.away && r.line != line && sliceOf (r.line * 128) == sliceOf (line * 128))
  match chip with
  | v :: _ =>
    if chip.length < Config.reduceOnChip then s
    else { s with reduce := s.reduce.map (fun (r : RedLine) => if r.line = v.line then { r with away := true } else r) }
  | [] => s

/-- A spilled line comes back on chip, as the line added last (R159). -/
def State.backOnChip (s : State) (line : Nat) : State :=
  match s.reduce.find? (fun r => r.line == line && r.away) with
  | none => s
  | some r =>
    let s := s.roomOnChip line
    { s with reduce := s.reduce.filter (fun x => x.line != line) ++ [{ r with away := false }] }

/-- Adds FP32 words of the job of function `f` exactly to consecutive words (R157, R158); none when the slice has no shadow record left (R159). -/
def State.exactAdd (s : State) (f pa : Nat) (xs : List Nat) : Option State :=
  let line := pa / 128
  let s := (s.recall line).spoilSpills pa (4 * xs.length)
  let known := s.reduce.any (fun r => r.line == line)
  let full := (s.reduce.filter (fun r => sliceOf (r.line * 128) == sliceOf pa)).length
  if !known && Config.reduceLines ≤ full then none
  else
    let s := if known then s.backOnChip line else
      let s := s.roomOnChip line
      { s with reduce := s.reduce ++ [{ line := line, fn := f, away := false, words := (List.range 32).map (fun i =>
          Exact.ofFp32 (ofBytes (s.bytesFrom (line * 128 + 4 * i) 4))) }] }
    let first := pa % 128 / 4
    let s := { s with reduce := s.reduce.map (fun (r : RedLine) =>
      if r.line = line then
        { r with fn := f, words := (List.range 32).map (fun i =>
            let w := nth Exact.empty r.words i
            if first ≤ i ∧ i < first + xs.length then w.add xsForm (fpDecode fp32 (nth 0 xs (i - first))) else w) }
      else r) }
    some (s.hitWatch line)

/-! Translation (R12, R20, R88, R162, R163) -/

/-- The rung of a channel (R18, R22). -/
def State.chan (s : State) (i : Nat) : Nat := SMap.get 0 s.ladders.chans i

/-- A physical address in a region that a page may map and that stands (R12, R20). -/
def State.regionOk (s : State) (pa : Nat) : Bool :=
  if pa < 0xC000000000 then
    (List.range 8).all (fun i => s.chan (64 * (pa / 2 ^ 36) + 8 * (pa % 2 ^ 36 / 2 ^ 33) + i) != 3)
  else if 0x100000000000 ≤ pa && pa < 0x140000000000 then s.chan (768 + (pa - 0x100000000000) / 2 ^ 38) != 3
  else false

/-- Bytes of a page by its size code (R88). -/
def pageBytes (code : Nat) : Nat := match code with | 0 => 2 ^ 16 | 1 => 2 ^ 21 | _ => 2 ^ 30

/-- The bytes that the 64 KiB pages of the resident emulation library take (R69, R88). -/
def libraryPages : Nat := (Config.librarySize.toNat + 0xFFFF) / 0x10000 * 0x10000

/-- The system window's mappings of function `f`: its capability page, and the library where it has one; nothing else in the window is mapped
(R69, R88, log 8). -/
def windowMaps (f : Nat) (library : Bool) : List Mapping :=
  { va := Config.window, pa := Config.windowPA f, len := Config.capPageSize, page := 0, w := false, x := false, pin := false } ::
  (if library then [{ va := Config.libraryEntry, pa := Config.windowPA f + Config.capPageSize, len := libraryPages,
                      page := 0, w := false, x := true, pin := false }] else [])

/-- The job of function `f` has the resident emulation library in its window (R57, R69). -/
def State.libraryOf (s : State) (f : Nat) : Bool := match (s.fnAt f).ext with | some e => e.library | none => false

/-- A mapping covers a virtual address. -/
def Mapping.covers (m : Mapping) (va : Nat) : Bool := m.va ≤ va && va < m.va + m.len

/-- The page of a mapping that holds a virtual address, as a TLB keeps it (R162). -/
def Mapping.pageAt (m : Mapping) (va : Nat) : Mapping :=
  let p := pageBytes m.page
  let base := va / p * p
  { m with va := base, pa := m.pa + (base - m.va), len := p }

/-- Walks the page tables of a function's job (R162, R12). -/
def State.walk (s : State) (f va : Nat) : Option Mapping :=
  match s.jobAt f with
  | none => none
  | some j =>
    match (j.maps ++ windowMaps f (s.libraryOf f)).find? (fun m => m.covers va) with
    | none => none
    | some m =>
      let p := m.pageAt va
      if 2 ^ 48 ≤ p.pa || s.regionOk p.pa then some p else none

/-- Adds to a list of bounded length, dropping the oldest (log 10). -/
def pushBounded {α : Type} (n : Nat) (l : List α) (x : α) : List α := (l ++ [x]).drop (l.length + 1 - n)

/-- Adds an entry to the L2 TLB of a cluster, of 2,048 entries; a full one drops its oldest (R162, log 10). -/
def pushCluster (l : List (Nat × TlbEntry)) (cluster : Nat) (e : TlbEntry) : List (Nat × TlbEntry) :=
  (if (l.filter (fun p => p.1 == cluster)).length < Config.l2TlbEntries then l else l.eraseP (fun p => p.1 == cluster)) ++ [(cluster, e)]

/-- Translates for a core: its L1 TLB, its cluster's L2 TLB, then a walk, filling both (R162). -/
def State.lookup (s : State) (coreN f va : Nat) : Option (Mapping × State) :=
  let c := s.coreAt coreN
  let hit (e : TlbEntry) : Bool := e.fn == f && e.m.covers va
  match c.tlb.find? hit with
  | some e => some (e.m, s)
  | none =>
    let fill (s : State) (m : Mapping) : State :=
      s.modCore coreN (fun c => { c with tlb := pushBounded Config.l1TlbEntries c.tlb { fn := f, m := m } })
    match (s.l2.filter (fun p => p.1 == c.cluster)).find? (fun p => hit p.2) with
    | some p => some (p.2.m, fill s p.2.m)
    | none =>
      match s.walk f va with
      | none => none
      | some m => some (m, { fill s m with l2 := pushCluster s.l2 c.cluster { fn := f, m := m } })

/-- What an access needs of a page. -/
inductive Need where
  | read
  | write
  | fetch
  deriving DecidableEq, Repr

/-- A page allows an access: the library's region is execute-only (R69, R163, R237). -/
def Mapping.permits (m : Mapping) (n : Need) : Bool := match n with | .read => !inLibrary m.pa | .write => m.w | .fetch => m.x

/-- Translation and permission of one address for a core (R163): the physical address, or the code of DATA_XLATE or DATA_PERM. -/
def State.xlate (s : State) (coreN f va : Nat) (n : Need) : Except Nat (Nat × State) :=
  if 2 ^ 56 ≤ va then .error 0x11
  else
    match s.lookup coreN f va with
    | none => .error 0x11
    | some (m, s) =>
      if m.permits n then .ok (m.pa + (va - m.va), s) else .error 0x12

/-- The first byte of the page that holds an address; of its 64 KiB page where no mapping covers it (R225, R242, log 97). -/
def State.pageBase (s : State) (coreN f va : Nat) : Nat := match s.lookup coreN f va with | some (m, _) => m.va | none => va / 65536 * 65536

/-- The physical address of an access of the sequencer, faulting in the order of R416 (R143, R163). -/
def globalAddr (a : Word) (size : Nat) (n : Need) (r : RegCell) : M Nat := do
  let s ← get
  if 2 ^ 56 ≤ a.toNat then addrFault 0x11 a r
  else if a.toNat % size ≠ 0 then alignFault size a r
  else match s.xlate s.core.id s.core.task.fn a.toNat n with
    | .error c => addrFault c a r
    | .ok (pa, s) => set s; return pa

/-- Reads bytes for a hardware record reader in virtual memory of a job: every page must translate for reading (R74, R93, R164). -/
def readVirtual (s : State) (coreN f va n : Nat) : Except (Nat × Nat) (List Byte × State) :=
  match s.xlate coreN f va .read with
  | .error c => .error (c, va)
  | .ok (pa, s) =>
    match s.xlate coreN f (va + n - 1) .read with
    | .error c => .error (c, va + n - 1)
    | .ok (pa', s) =>
      if pa' = pa + (n - 1) then .ok (s.larderRead pa n)
      else
        let k := 65536 - va % 65536
        let r1 := s.larderRead pa k
        let r2 := r1.2.larderRead (pa' + 1 - (n - k)) (n - k)
        .ok (r1.1 ++ r2.1, r2.2)

/-! The attic (R129) -/

/-- A virtual address lies in the attic of the core's task (R129). -/
def Core.ownsAttic (c : Core) (va : Nat) : Bool := decide ((c.ctl 0x30).toNat ≤ va) && decide (va < (c.ctl 0x30).toNat + c.task.atticSize)

/-- A range of virtual addresses meets the attic of the core's task. -/
def Core.meetsAttic (c : Core) (va n : Nat) : Bool := (List.range n).any (fun i => c.ownsAttic (va + i))

/-- What a program's access to its own attic reads, or leaves there: free bytes at the attic's addresses (R8, R129; which accesses count is log 113). -/
def State.atticBytes (s : State) (coreN va : Nat) (bs : List Byte) : List Byte × State :=
  let c := s.coreAt coreN
  if c.meetsAttic va bs.length then
    (bs.zipIdx.map (fun p => if c.ownsAttic (va + p.2) then
        BitVec.ofNat 8 ((Config.freeBits (s.fresh + p.2 / 256)).toNat / 2 ^ (8 * (p.2 % 256))) else p.1),
     { s with fresh := s.fresh + (bs.length + 255) / 256 })
  else (bs, s)

/-- A store's L1 copy is updated in the bytes that it writes, when one is present (R154). -/
def Core.l1Store (c : Core) (pa : Nat) (en : List Bool) (bs : List Byte) : Core :=
  { c with l1 := c.l1.map (fun x => { x with data := (List.range 128).map (fun i =>
      let a := 128 * x.line + i
      if pa ≤ a ∧ a < pa + bs.length ∧ nth true en (a - pa) = true then nth 0 bs (a - pa) else nth 0 x.data i) }) }

/-- A write of the core in focus itself, seen by its own loads: its L1 copies are updated (R154, R227, log 19). -/
def State.ownStore (s : State) (pa : Nat) (bs : List Byte) : State :=
  let t := s.larderWrite pa bs
  { t with core := t.core.l1Store pa [] bs }

/-- Writes bytes at a virtual address of a job, all or nothing; the bytes cross at most one 64 KiB boundary. -/
def writeWith (put : State → Nat → List Byte → State) (s : State) (coreN f va : Nat) (bs : List Byte) : Except (Nat × Nat) State :=
  match s.xlate coreN f va .write with
  | .error c => .error (c, va)
  | .ok (pa, s) =>
    match s.xlate coreN f (va + bs.length - 1) .write with
    | .error c => .error (c, va + bs.length - 1)
    | .ok (pa', s) =>
      if pa' = pa + (bs.length - 1) then .ok (put s pa bs)
      else
        let k := 65536 - va % 65536
        .ok (put (put s pa (bs.take k)) (pa' + 1 - (bs.length - k)) (bs.drop k))

/-- A hardware write at a virtual address, at the Larder. -/
def writeVirtual (s : State) (coreN f va : Nat) (bs : List Byte) : Except (Nat × Nat) State := writeWith State.larderWrite s coreN f va bs

/-- A write of the core in focus itself at a virtual address: fault records, context headers and the attic (R129, R136, R227, R230). -/
def writeSelf (s : State) (coreN f va : Nat) (bs : List Byte) : Except (Nat × Nat) State := writeWith State.ownStore s coreN f va bs

/-! Pantries (R19, R91, R144, R193) -/

/-- The rung of a bank of a core (R18, R22). -/
def State.rung (s : State) (coreN b : Nat) : Nat := SMap.get 0 s.ladders.banks (16 * coreN + b)

/-- BFMT of a bank (R145). -/
def State.bfmtWord (s : State) (coreN b : Nat) : Nat :=
  let c := s.coreAt coreN
  s.rung coreN b * 64 + (if 16 - c.tagged ≤ b then 16 else 0) + SMap.get 0 c.bfmt b

/-- FMT of a bank (R145). -/
def State.fmtAt (s : State) (coreN b : Nat) : Nat := SMap.get 0 (s.coreAt coreN).bfmt b

/-- The fault of a pantry access at address `a` (R416); `align` is its size. -/
def State.pantryCode (s : State) (coreN a align : Nat) : Option Nat :=
  if Config.pantryBytes ≤ a then some 0x15
  else if a % align ≠ 0 then some 0x13
  else
    let g := s.rung coreN (a / Config.bankBytes)
    if g = 3 then some 0x16
    else if g = 2 ∧ 0x6000 ≤ a % Config.bankBytes then some 0x15
    else none

/-- Details of a pantry fault (R225). A PANTRY_RANGE past bank 15, where no bank is, has the number that the address gives for a bank and a DETAIL2 of
zero: the spec does not say what these two words hold then (DESIGN CHOICE, log 125). -/
def State.pantryFault (s : State) (f : FaultInfo) (code coreN a size : Nat) : FaultInfo :=
  if code = 0x13 then { f with code := code, addr := BitVec.ofNat 64 a, d0 := BitVec.ofNat 64 size }
  else
    { f with code := code, addr := BitVec.ofNat 64 a, d0 := BitVec.ofNat 64 coreN,
             d1 := BitVec.ofNat 64 (a / Config.bankBytes),
             d2 := if Config.pantryBytes ≤ a then 0 else BitVec.ofNat 64 (s.bfmtWord coreN (a / Config.bankBytes)) }

/-- No pantry write of an earlier M-slot operation is still on its way that a fence orders before the core's later pantry accesses (R182). -/
def Core.pantryOpen (c : Core) : Bool := !(c.drains.any (fun d => d.fenced)) && !(c.steered.any (fun x => x.fenced))

/-- Holds a pantry access back behind a fence (R182, R284). -/
def awaitFence : M Unit := do if (← core).pantryOpen then pure () else stall

/-- Checks a pantry address of the own core, precise (R144); behind a fence the access waits (R182). -/
def pantryAddr (a : Word) (size : Nat) (r : RegCell) : M Nat := do
  awaitFence
  let s ← get
  match s.pantryCode s.core.id a.toNat size with
  | some code => throw (.fault { s.pantryFault (s.core.faultOf code) code s.core.id a.toNat size with
      addr := a, taint := r.taint, dm := r.dm })
  | none => return a.toNat

/-- The key of a pantry byte. -/
def pantryKey (coreN a : Nat) : Nat := coreN * 2 ^ 20 + a

/-- A pantry byte as its bank holds it. -/
def State.pantryByte (s : State) (coreN a : Nat) : Byte := SMap.get 0 s.pantry (pantryKey coreN a)

/-- A byte of a bank whose mode is changing (R91). -/
def Core.carving (c : Core) (a : Nat) : Bool :=
  match c.carve with | none => false | some d => d.banks.contains (a / Config.bankBytes)

/-- The operation that a core emulates, its trap due or active, writes the byte (R341). -/
def Core.emulatesByte (c : Core) (coreN a : Nat) : Bool :=
  (c.emul.toList ++ c.serving.toList).any (fun e => e.outs.any (fun b => b.1 == coreN && decide (b.2.1 ≤ a) && decide (a < b.2.2)))

/-- A core's matrix operation writes the byte and its bound has not passed (R193, R341). -/
def Core.drainsByte (c : Core) (coreN a : Nat) : Bool :=
  c.drains.any (fun d => d.owner == coreN && decide (d.lo ≤ a) && decide (a < d.hi)) || c.emulatesByte coreN a ||
  c.steered.any (fun x => x.bytes.any (fun b => b.1 == coreN && decide (b.2.1 ≤ a) && decide (a < b.2.1 + b.2.2.length)))

/-- A byte of core `coreN` that a read does not find defined: a changing bank, or a matrix operation's write before its bound (R91, R193);
the matrix operations of core `self` see their own writes (R325). -/
def State.unsettled (s : State) (self : Option Nat) (coreN a : Nat) : Bool :=
  (s.coreAt coreN).carving a || s.cores.any (fun c => some c.id != self && c.drainsByte coreN a)

/-- Reads pantry bytes for a matrix operation of `self`, or any other reader; free values where a byte is not defined. -/
def State.pantryReadFor (s : State) (self : Option Nat) (coreN a n : Nat) : List Byte × State :=
  if (List.range n).any (fun i => s.unsettled self coreN (a + i)) then
    ((List.range n).map (fun i =>
      if s.unsettled self coreN (a + i) then BitVec.ofNat 8 ((Config.freeBits (s.fresh + i / 256)).toNat / 2 ^ (8 * (i % 256)))
      else s.pantryByte coreN (a + i)), { s with fresh := s.fresh + (n + 255) / 256 })
  else ((List.range n).map (fun i => s.pantryByte coreN (a + i)), s)

/-- Reads pantry bytes; free values where a byte is not defined. -/
def State.pantryRead (s : State) (coreN a n : Nat) : List Byte × State := s.pantryReadFor none coreN a n

/-- Puts bytes into a pantry from `a` on; a write to a changing bank is lost (R91). -/
def State.pantryPut (s : State) (coreN a : Nat) (bs : List Byte) : State :=
  match bs with
  | [] => s
  | b :: r =>
    let s := if (s.coreAt coreN).carving a then s else { s with pantry := SMap.set 0 s.pantry (pantryKey coreN a) b }
    State.pantryPut s coreN (a + 1) r

/-- `n` free bytes. -/
def State.freeBytes (s : State) (n : Nat) : List Byte × State :=
  ((List.range n).map (fun i => BitVec.ofNat 8 ((Config.freeBits (s.fresh + i / 256)).toNat / 2 ^ (8 * (i % 256)))),
   { s with fresh := s.fresh + (n + 255) / 256 })

/-! Writes that meet the reads of matrix operations (R140, R193, R325, R359) -/

/-- A read may still be under way in a cycle of its core. -/
def OpenRead.open_ (r : OpenRead) (now : Nat) : Bool := match r.until_ with | some t => decide (now < t) | none => true

/-- A write to the bytes of range `w` (core, first, end) meets an open read of core `c`. What the sequencer of core `self` writes comes after what its
own M-slot operations read, but for those that a steered one reads (R193, R236, log 13). -/
def OpenRead.meets (r : OpenRead) (c : Core) (self : Option Nat) (w : Nat × Nat × Nat) : Bool :=
  r.open_ c.cycle && decide (w.2.1 < w.2.2) && !(self == some c.id && r.until_.isSome) &&
  r.spans.any (fun x => x.1 == w.1 && decide (x.2.1 < w.2.2) && decide (w.2.1 < x.2.2))

/-- A free tile, from the free values of a state. -/
def State.freeTileAt (s : State) : BitVec 32768 × State :=
  (BitVec.ofNat 32768 ((List.range 16).foldl (fun a i => a + (Config.freeBits (s.fresh + i)).toNat * 2 ^ (2048 * i)) 0), { s with fresh := s.fresh + 16 })

/-- Bytes that a result has in a pantry become free values; with them, their ranges. -/
def State.spoilBytes (s : State) (bs : List (Nat × Nat × Nat)) : State :=
  bs.foldl (fun (s : State) b => let r := s.freeBytes (b.2.2 - b.2.1); r.2.pantryPut b.1 b.2.1 r.1) s

/-- The pantry bytes that a result of core `c` stands in. -/
def ReadFor.ranges (t : ReadFor) (c : Core) : List (Nat × Nat × Nat) :=
  match t with
  | .tile _ => []
  | .bytes bs => bs
  | .steered id => (c.steered.filter (fun x => x.id == id)).flatMap (fun x => x.bytes.map (fun b => (b.1, b.2.1, b.2.1 + b.2.2.length)))

/-- The tiles of a steered operation become free values. -/
def State.spoilSteered (s : State) (n id : Nat) : State :=
  (((s.coreAt n).steered.filter (fun x => x.id == id)).flatMap (fun x => x.tiles)).foldl (fun (s : State) t =>
    let r := s.freeTileAt
    let put (x : Steered) : Steered :=
      if x.id = id then { x with tiles := x.tiles.map (fun y => if y.1 = t.1 then (y.1, r.1) else y) } else x
    r.2.modCore n (fun c => { c with steered := c.steered.map put })) s

/-- A result of core `n` becomes a free value, for its operation may have read what was there before a write or after it. -/
def State.spoilResult (s : State) (n : Nat) (t : ReadFor) : State :=
  let bs := t.ranges (s.coreAt n)
  let s := s.modCore n (fun c => { c with reads := c.reads.filter (fun r => r.target != t) })
  let s := s.spoilBytes bs
  match t with
  | .tile z => let r := s.freeTileAt; r.2.modCore n (fun c => { c with tiles := SMap.put c.tiles z r.1 })
  | .bytes _ => s
  | .steered id => s.spoilSteered n id

/-- The results that a write meets, by core. -/
def State.spoiled (s : State) (self : Option Nat) (ws : List (Nat × Nat × Nat)) : List (Nat × ReadFor) :=
  (s.cores.flatMap (fun c => (c.reads.filter (fun r => ws.any (fun w => r.meets c self w))).map (fun r => (c.id, r.target)))).eraseDups

/-- Bytes are written while matrix operations may still be reading them: what these leave becomes free values, and so does, at most `n` times, what
others have read of that (R140, R193, R325, R359, log 13). -/
def State.spoilReads : Nat → Option Nat → List (Nat × Nat × Nat) → State → State
  | 0, _, _, s => s
  | n + 1, self, ws, s =>
    match s.spoiled self ws with
    | [] => s
    | h :: hs =>
      let bs := (h :: hs).flatMap (fun x => x.2.ranges (s.coreAt x.1))
      State.spoilReads n none bs ((h :: hs).foldl (fun s x => s.spoilResult x.1 x.2) s)

/-- As many reads as are open. -/
def State.openReads (s : State) : Nat := s.cores.foldl (fun n c => n + c.reads.length) 0

/-- Writes pantry bytes, for the sequencer of core `self` or anyone else: results whose operations may still be reading them become free values. -/
def State.pantryWriteFor (s : State) (self : Option Nat) (coreN a : Nat) (bs : List Byte) : State :=
  State.spoilReads s.openReads self [(coreN, a, a + bs.length)] (s.pantryPut coreN a bs)

/-- Writes pantry bytes from `a` on, not in the program order of any core. -/
def State.pantryWrite (s : State) (coreN a : Nat) (bs : List Byte) : State := s.pantryWriteFor none coreN a bs

/-- Reads the own pantry. -/
def readOwn (a n : Nat) : M (List Byte) := do
  let s ← get
  let r := s.pantryRead s.core.id a n
  set r.2
  return r.1

/-- Writes the own pantry, performed at core scope in program order (R193). -/
def writeOwn (a : Nat) (bs : List Byte) : M Unit := modify (fun s => s.pantryWriteFor (some s.core.id) s.core.id a bs)

end Sys2Proof.Machine
end

