-- ==== Sys2Proof/Machine/Ops.lean ====
section
/-!
DEFINITION. Shared operations: taking an exception and returning from one (R222 to R230), the end of a job (R59), transfers (R248),
frames, return addresses and the attic (R126 to R130), and the commit of a bundle's effects (R119, R120).
-/
namespace Sys2Proof.Machine

/-! The end of a job (R59) -/

/-- A core without a task: what outlasts a task stays (R80, R91, R117, R145, R315), its control registers among it, which the next task's start loads
(R118). -/
def Core.vacate (c : Core) : Core :=
  { Core.reset c.id with
    cycle := c.cycle, regs := c.regs, tiles := c.tiles, tileBase := c.tileBase, tflights := c.tflights, reads := c.reads, mFree := c.mFree, patterns := c.patterns,
    pflights := c.pflights, tags := c.tags, hand := c.hand, tagged := c.tagged, bfmt := c.bfmt, carve := c.carve,
    l1 := c.l1, tlb := c.tlb, cr := c.cr }

/-- How long the task of a core has run by the clock of its gang: the time by which the reads of a gang are compared (R141, log 98). -/
def Core.since (c : Core) : Nat := (c.cycle - c.born : Int).toNat

/-- Raises an MSI-X vector of a function, or its pending bit (R62). -/
def State.msix (s : State) (f v : Nat) : State :=
  s.modFn f (fun x => if x.msixMask.contains v then { x with msixPend := (x.msixPend.filter (fun y => y != v)) ++ [v] }
    else { x with msixSent := x.msixSent ++ [v] })

/-- An engine bitmap lowered to a rung (R233). -/
def rungBitmap (old : BitVec 16) (g : Nat) : BitVec 16 :=
  match g with | 0 => old | 1 => old &&& 0x3B | 2 => old &&& 0x31 | _ => 0

/-- One tuning result taking effect (R21, R233). -/
def Ladders.take (l : Ladders) (r : TuneRes) (g : Nat) : Ladders :=
  let eng (c : Nat) (b : BitVec 16) : Ladders := { l with engines := SMap.set 0x003F l.engines c b }
  let at_ (c : Nat) : BitVec 16 := SMap.get 0x003F l.engines c
  match r with
  | .engine c => eng c (rungBitmap (at_ c) g)
  | .rotation c => if g = 0 then l else eng c (at_ c &&& 0x2F)
  | .drain c => if g = 0 then l else eng c (at_ c &&& 0x1F)
  | .bank c b => { l with banks := SMap.set 0 l.banks (16 * c + b) (max g (SMap.get 0 l.banks (16 * c + b))) }
  | .channel i => { l with chans := SMap.set 0 l.chans i (max g (SMap.get 0 l.chans i)) }

/-- The ladders with every held tuning result and erratum in force (R21, R69). -/
def Ladders.settled (l : Ladders) : Ladders :=
  l.held.foldl (fun l p => l.take p.1 p.2.toNat) { l with held := [], errata := l.errata ++ l.errataHeld, errataHeld := [] }

/-- What is held until the job boundary takes effect once no function has a job: concurrent jobs see the same rungs and errata (R21, R69). -/
def State.applyHeld (s : State) : State := if s.fns.any (fun x => x.job.isSome) then s else { s with ladders := s.ladders.settled }

/-- The cores that a function's job has BUSY: those of its tasks, and those that ended tasks of its gangs have left (R82). They need not lie in the
clusters that the function owns by now (R53, log 112). -/
def State.busyOf (s : State) (f : Nat) : List Nat :=
  let ids := (s.dist.launches.filter (fun l => l.fn == f)).map (fun l => l.id)
  (s.cores.filter (fun c => c.run != .idle && c.task.fn == f)).map (fun c => c.id) ++
  (s.dist.gangs.filter (fun g => ids.contains g.launch)).flatMap (fun g => g.cores)

/-- The work of a job goes: its tasks, gangs, sessions and groups, and its lines in REDUCE are resolved (R59, R159, R162). -/
def State.dropWork (s : State) (f : Nat) : State :=
  let mine := s.busyOf f
  let s := (s.reduce.filter (fun r => r.fn == f)).foldl (fun s r => s.resolve r.line) s
  let s := s.cores.foldl (fun s c => if c.run ≠ .idle && c.task.fn == f then s.modCore c.id Core.vacate else s) s
  let s := s.cores.foldl (fun s c => s.modCore c.id (fun c => { c with tlb := c.tlb.filter (fun e => e.fn != f) })) s
  let ids := (s.dist.launches.filter (fun l => l.fn == f)).map (fun l => l.id)
  let fab := s.fabric
  let gone := (fab.groups.filter (fun g => g.fn == f)).map (fun g => g.num)
  { s with
    l2 := s.l2.filter (fun p => p.2.fn != f),
    dist := { s.dist with launches := s.dist.launches.filter (fun l => l.fn != f),
                          gangs := s.dist.gangs.filter (fun g => !ids.contains g.launch),
                          busy := s.dist.busy.filter (fun c => !mine.contains c),
                          held := s.dist.held.filter (fun p => !ids.contains (p.2 / 2 ^ 20)),
                          suspended := s.dist.suspended.filter (fun x => x.core.task.fn != f) },
    sessions := s.sessions.filter (fun x => x.fn != f),
    fabric := { fab with groups := fab.groups.filter (fun g => g.fn != f),
                         ended := fab.ended.filter (fun g => !gone.contains g) ++ gone,
                         reds := fab.reds.filter (fun r => !gone.contains r.group),
                         closed := fab.closed.filter (fun c => fab.closers.any (fun x => x.1 == c && x.2 != f)),
                         closers := fab.closers.filter (fun x => x.2 != f),
                         grants := if f = 0 then [] else fab.grants } }

/-- An event of a code is logged by service firmware (R63, R223). -/
def State.logError (s : State) (code : Nat) : State := { s with service := { s.service with logged := s.service.logged ++ [code] } }

/-- Ends the job of function `f`: its work goes, the status word is written when `status`, and vector 0 is raised (R59); a fault that ends it is
logged (R63, log 106). R60 has a job that is cancelled end with CAUSE 2 in every such case, and R222 gives a fault its own cause: where a fault ends it in
STATE 3, the cause is the fault's (log 118). -/
def State.endJob (s : State) (f cause detail : Nat) (status : Bool) : State :=
  match s.jobAt f with
  | none => s
  | some j =>
    let s := s.dropWork f
    let s := if status then
        s.larderWrite j.stat (toBytes 8 (j.token.toNat * 2 ^ 32 + detail % 2 ^ 16 * 2 ^ 16 + cause * 2 ^ 8)) else s
    let s := s.modFn f (fun x => { x with job := none, st := 0, cause := cause, meas3 := 0 })
    let s := if cause = 3 then s.logError detail else s
    (s.msix f 0).applyHeld

/-! Headers and fetch (R163, R239, R248) -/

/-- The syllable at a virtual address, as instruction fetch reads it (R163), or the first byte of the page that fails (R242). -/
def State.fetchWord (s : State) (va : Nat) : Except Nat (Syllable × State) :=
  match s.xlate s.core.id s.core.task.fn va .fetch with
  | .error _ => .error (s.pageBase s.core.id s.core.task.fn va)
  | .ok (pa, s) =>
    let r := s.larderRead pa 4
    .ok (BitVec.ofNat 32 (ofBytes r.1), r.2)

/-- The L bit of the header at an address; none where no header stands (R243, R248). -/
def State.headerAt (s : State) (va : Nat) : Option Bool :=
  if va % 4 ≠ 0 then none
  else match s.fetchWord va with
    | .error _ => none
    | .ok (w, _) => if bits w.toNat 28 3 = 4 then some (w.getLsbD 27) else none

/-! Taking an exception (R225 to R230) -/

/-- A fault record (R225). -/
def recordBytes (f : FaultInfo) (handler : Bool) (count : Nat) : List Byte :=
  [BitVec.ofNat 8 f.code, BitVec.ofNat 8 f.slot, BitVec.ofNat 8 f.kind, BitVec.ofNat 8 f.queue] ++ toBytes 2 f.taint.toNat ++
  toBytes 2 (f.dm.toNat + 2 * handler.toNat + 4 * f.emulated.toNat + 8 * f.steered.toNat) ++
  toBytes 8 f.pc.toNat ++ toBytes 8 f.addr.toNat ++ toBytes 8 f.d0.toNat ++ toBytes 8 f.d1.toNat ++ toBytes 8 f.d2.toNat ++
  toBytes 8 count ++ toBytes 8 0

/-- The taint sets of a shadow bank are emptied (R133, R230). -/
def Core.freshBank (c : Core) (sb kb : Nat) : Core :=
  { c with regs := c.regs.map (fun p =>
      if p.1 / 1024 = sb ∨ p.1 / 1024 = kb then (p.1, { p.2 with taint := 0, dm := false }) else p) }

/-- Enters a shadow context at an address, 3 cycles later (R132, R227, R230). -/
def Core.enter (c : Core) (at_ : Word) : Core :=
  { c with pc := at_, npc := at_, xfer := none, taken := none, firm := false, cycle := c.cycle + 3 }

/-- Delivery to S level (R229, R230); fatal where R223 says so. With SREC zero record 0 is written at virtual address 320c, and the fault is fatal where that
fails: no rule exempts it (DESIGN CHOICE, log 125). -/
def State.deliverS (s : State) (f : FaultInfo) : State :=
  let c := s.core
  let fn := c.task.fn
  match s.jobAt fn with
  | none => s
  | some j =>
    if c.sup || j.svec == 0 then s.endJob fn 3 f.code true
    else
      match writeSelf s c.id fn (j.srec.toNat + 320 * c.id) (recordBytes f (c.handler == .user) c.faults) with
      | .error _ => s.endJob fn 3 f.code true
      | .ok s =>
        if s.headerAt j.svec.toNat = some true then
          { s with core :=
            let c := s.core
            let st := (if c.level = .s then 1 else 0) + (if c.handler = .user then 2 else 0) + (if c.handler = .emul then 4 else 0)
            let c := ((c.setCtl 0x102 c.pc).setCtl 0x103 (BitVec.ofNat 64 f.code)).setCtl 0x104 (BitVec.ofNat 64 st)
            { (c.freshBank 8 9).enter j.svec with level := .s, sup := true, sepc0 := c.pc, sxfer := c.xfer } }
        else s.endJob fn 3 0x03 true

/-- A registered user handler for the fault, where R227 lets it be taken: its entry. -/
def State.userEntry (s : State) (f : FaultInfo) : Option Nat :=
  let c := s.core
  let base := (c.ctl 0x20).toNat
  if base ≠ 0 ∧ c.level = .u ∧ c.handler = .main ∧ c.sup = false ∧ f.toS = false then
    match readVirtual s c.id c.task.fn (base + 8 * f.code) 8 with
    | .error _ => none
    | .ok (bs, _) =>
      let e := ofBytes bs
      if e ≠ 0 ∧ s.headerAt e = some true then some e else none
  else none

/-- Takes a fault: to the user handler (R227) or to S level (R228, R230). The bundle's effects are dropped (R222). -/
def State.raise (s : State) (f : FaultInfo) : State :=
  let s : State := { s with core := { s.core with
    defer := [], faults := s.core.faults + 1, deferred := s.core.deferred.map (fun (g : FaultInfo) => { g with held := true }) } }
  match s.userEntry f with
  | none => s.deliverS f
  | some e =>
    match writeSelf s s.core.id s.core.task.fn ((s.core.ctl 0x20).toNat + 0x400) (recordBytes f false s.core.faults) with
    | .error _ => s.deliverS f
    | .ok s =>
      { s with core :=
        let c := (s.core.setCtl 0x25 s.core.pc).setCtl 0x24 (BitVec.ofNat 64 (f.code + 2 ^ 31))
        { (c.freshBank 6 7).enter (BitVec.ofNat 64 e) with
          handler := .user, uepc0 := c.pc, uxfer := c.xfer, entryFrames := c.frames.length + c.spilled.length } }

/-- The state in which a meaning starts: nothing has stopped it. -/
def State.begun (s : State) : State := { s with core := { s.core with mark := .done } }

/-- The context that bundles issue in: main code, a handler or S-level delivery, each outside or inside a drain stub or restore routine (R132, R136). -/
def Core.context (c : Core) : Nat :=
  (match c.handler with | .main => 0 | .user => 1 | .emul => 2) + 4 * c.sup.toNat + 8 * (c.ctl 0x36).toNat

/-- The gbar in issue: the context, the bundle and the slot that it issues in (R293). -/
def Core.gbarKey (c : Core) : Nat × Word × Nat := (c.context, c.pc, c.cur.slot)

/-- The gbar in issue arrives, unless it has: one that was abandoned keeps its increment until its context goes on with another bundle, and another gbar
arrives for itself (R293). -/
def Core.arrive (c : Core) : Core :=
  if c.gbars.contains c.gbarKey then c else { c with arrivals := c.arrivals + 1, gbars := c.gbars ++ [c.gbarKey] }

/-- The outcome of a meaning: its next state, the exception it takes, or its bundle held. Compute dies without power run nothing (R23). -/
def finish (m : M Unit) (s : State) : Host.Outcome State Fault Refusal :=
  if s.powered then
    match m.run s.begun with
    | .ok (_, t) => .next t
    | .error (.fault f) => let t := s.raise f; .next { t with core := { t.core with mark := .trapped f } }
    | .error (.stall why) => .next { s with core := { (if why = 1 then s.core.arrive else s.core) with
        mark := .stalled, asleep := why == 2, firm := why == 3 } }
  else .fault .poweredOff

/-- The outcome of a step of the device, which neither faults nor waits. -/
def deviceStep (g : State → State) (s : State) : Host.Outcome State Fault Refusal :=
  .next (g s.begun)

/-! Transfers (R119, R248) -/

/-- Transfers to an address; the landing is checked when the target is fetched (R248). -/
def transfer (dest : Word) (indirect : Bool) : M Unit :=
  setCore (fun c => { c with npc := dest, taken := some { source := c.pc, indirect := indirect, checked := true } })

/-- The target of a branch offset, in syllables from the bundle's first (R248). -/
def branchTarget (pc off : Word) : Word := pc + off * 4

/-! The loop nest's registers (R118, R123) -/

/-- Levels of the active nest. -/
def Core.nestLevels (c : Core) : Nat := bits (c.ctl 0x38).toNat 8 3
/-- Bundles of the nest's body. -/
def Core.nestLen (c : Core) : Nat := bits (c.ctl 0x38).toNat 0 6 + 1
/-- ACT of LNCTL. -/
def Core.nestAct (c : Core) : Bool := (c.ctl 0x38).getLsbD 63

/-- The address after the bundle at `va`, by its stop bit (R240). -/
def State.afterBundle (s : State) (va : Nat) : Nat :=
  match (List.range 16).find? (fun i => match s.fetchWord (va + 4 * i) with | .ok (w, _) => w.getLsbD 31 | .error _ => true) with
  | some i => va + 4 * (i + 1)
  | none => va + 64

/-- The address after `n` bundles from `va` on. -/
def State.afterBundles (s : State) (va n : Nat) : Nat :=
  match n with
  | 0 => va
  | k + 1 => State.afterBundles s (s.afterBundle va) k

/-- The addresses of the nest's body, from LNBODY to the end of its last bundle (R123). -/
def State.nestBody (s : State) : Nat × Nat :=
  let b := (s.core.ctl 0x39).toNat
  (b, s.afterBundles b s.core.nestLen)

/-- The core is in the body of an active nest (R123, R276). -/
def State.inNest (s : State) : Bool :=
  s.core.nestAct && (let b := s.nestBody; decide (b.1 ≤ s.core.pc.toNat) && decide (s.core.pc.toNat < b.2))

/-! Frames, return addresses and the attic (R126 to R130) -/

/-- Physical blocks of a file (R126). -/
def poolBlocks (f : File) : Nat := match f with | .s => 32 | .v | .w => 16 | _ => 8

/-- The renamed files in attic order (R129). -/
def renamed : List File := [.s, .v, .w, .c, .d, .k]
/-- The attic's code of a renamed file (R129). -/
def atticCode (f : File) : Nat := match f with | .s => 0 | .v => 1 | .w => 2 | .c => 3 | .d => 4 | _ => 5

/-- Physical blocks in use by the maps or a frame. -/
def usedBlocks (m : Maps) (frames : List (List FrameBlock)) (f : File) : List Nat :=
  m.of f ++ frames.flatten.filterMap (fun b => if b.file = atticCode f then some b.phys else none)

/-- The free physical blocks of a file, lowest first. -/
def freeBlocks (m : Maps) (frames : List (List FrameBlock)) (f : File) : List Nat :=
  (List.range (poolBlocks f)).filter (fun b => !(usedBlocks m frames f).contains b)

/-- Puts a physical block into a map. -/
def Maps.put (m : Maps) (f : File) (b p : Nat) : Maps :=
  match f with
  | .s => { m with s := m.s.set b p }
  | .v => { m with v := m.v.set b p }
  | .w => { m with w := m.w.set b p }
  | .c => { m with c := m.c.set b p }
  | .d => { m with d := m.d.set b p }
  | .k => { m with k := m.k.set b p }
  | _ => m

/-- The file of an attic code. -/
def atticFile (n : Nat) : File := nth .k renamed n

/-- The keys of the eight registers of a physical block. -/
def blockKeys (f : File) (p : Nat) : List Nat := (List.range 8).map (fun i => regKey f.num (8 * p + i))

/-- The attic record of a block (R129). -/
def blockRecord (c : Core) (b : FrameBlock) : List Byte :=
  let f := atticFile b.file
  let cells := (blockKeys f b.phys).map c.cell
  let data := match f with
    | .k => [BitVec.ofNat 8 (cells.zipIdx.foldl (fun a p => a + (p.1.val.toNat % 2) * 2 ^ p.2) 0)] ++ List.replicate 15 0
    | _ => cells.flatMap (fun r => toBytes (f.width / 8) r.val.toNat)
  let len := match f with | .v | .w => 2080 | .k => 48 | _ => 96
  [1, BitVec.ofNat 8 b.file, BitVec.ofNat 8 b.block, 0] ++ toBytes 4 len ++ toBytes 8 0 ++ data ++
    cells.flatMap (fun r => toBytes 2 r.taint.toNat)

/-- Length of the record of a block (R129). -/
def recordLen (b : FrameBlock) : Nat := match atticFile b.file with | .v | .w => 2080 | .k => 48 | _ => 96

/-- ATTIC_FAULT with the failing address (R130). -/
def atticFault {α : Type} (a : Nat) : M α := do throw (.fault { (← core).faultOf 0x14 with addr := BitVec.ofNat 64 a })

/-- Writes one frame record at the attic's growing end (R129, R130). A refill reads what memory holds there; a program's own accesses to the attic read
and leave free bytes (State.atticBytes, log 113). -/
def spillBlock (b : FrameBlock) : M Unit := do
  let s ← get
  let c := s.core
  if (blockKeys (atticFile b.file) b.phys).any (fun k => c.pending k || c.inFlight k) then stall
  let bs := blockRecord c b
  let t := (c.ctl 0x31).toNat
  if c.task.atticSize < t + (c.ctl 0x32).toNat + bs.length then atticFault 0
  match writeSelf s c.id c.task.fn ((c.ctl 0x30).toNat + t) bs with
  | .error (_, a) => atticFault a
  | .ok s => set { s with core := s.core.setCtl 0x31 (BitVec.ofNat 64 (t + bs.length)) }

/-- Spills the oldest frame on chip (R127). -/
def spillOldest : M Unit := do
  match (← core).frames.getLast? with
  | none => pure ()
  | some fr =>
    fr.forM spillBlock
    setCore (fun c => { c with frames := c.frames.dropLast, spilled := fr :: c.spilled })

/-- Spills frames until a predicate of the core holds, at most `n` of them. -/
def spillUntil (ok : Core → Bool) : Nat → M Unit
  | 0 => pure ()
  | n + 1 => do if ok (← core) then pure () else do spillOldest; spillUntil ok n

/-- The outstanding load tags (R173, R181). -/
def Core.outstanding (c : Core) : BitVec 16 :=
  c.order.acc.foldl (fun t a => match a.tag with | some k => t ||| BitVec.ofNat 16 (2 ^ k) | none => t)
    (c.queues.foldl (fun t q => q.entries.foldl (fun t e => match e.tag with | some k => t ||| BitVec.ofNat 16 (2 ^ k) | none => t) t) 0)

/-- Reads one record back into a free physical block (R129, R180). -/
def refillBlock (b : FrameBlock) (p : Nat) : M Unit := do
  let s ← get
  let c := s.core
  let f := atticFile b.file
  let len := recordLen b
  let t := (c.ctl 0x31).toNat - len
  match readVirtual s c.id c.task.fn ((c.ctl 0x30).toNat + t) len with
  | .error (_, a) => atticFault a
  | .ok (bs, s) =>
    set s
    let live := c.outstanding
    let w := f.width / 8
    setCore (fun c => (blockKeys f p).zipIdx.foldl (fun c k =>
      let v := match f with
        | .k => bits (nth 0 bs 16).toNat k.2 1
        | _ => ofBytes ((bs.drop (16 + w * k.2)).take w)
      let at_ := match f with | .k => 32 | _ => 16 + 8 * w
      let taint := BitVec.ofNat 16 (ofBytes ((bs.drop (at_ + 2 * k.2)).take 2))
      c.setCell k.1 { val := BitVec.ofNat 2048 v, taint := taint &&& live, dm := true })
      (c.setCtl 0x31 (BitVec.ofNat 64 t)))

/-- Makes room for a return address: the oldest 8 are spilled when 16 are held (R128); what stays on chip. -/
def roomForReturn : M (List Word) := do
  let s ← get
  let c := s.core
  if c.rets.length < 16 then return c.rets
  else
    let b := (c.ctl 0x32).toNat
    let old := (c.rets.drop 8).reverse
    let bs : List Byte := [2, 0, 0, 0] ++ toBytes 4 80 ++ toBytes 8 0 ++ old.flatMap (fun w => toBytes 8 w.toNat)
    if c.task.atticSize < (c.ctl 0x31).toNat + b + 80 then atticFault 0
    match writeSelf s c.id c.task.fn ((c.ctl 0x30).toNat + c.task.atticSize - b - 80) bs with
    | .error (_, x) => atticFault x
    | .ok s =>
      set { s with core := s.core.setCtl 0x32 (BitVec.ofNat 64 (b + 80)) }
      return c.rets.take 8

/-- Pushes a return address, spilling the oldest 8 when 16 are held (R128). -/
def pushReturn (a : Word) : M Unit := do
  let rs ← roomForReturn
  later (.rets (a :: rs))

/-- Pops a return address, refilling the newest record when none is on chip, without the zeros that fill a full save's last one (R128, R138). -/
def popReturn : M Word := do
  let s ← get
  let c := s.core
  match c.rets with
  | a :: r => do later (.rets r); return a
  | [] =>
    let b := (c.ctl 0x32).toNat
    if b = 0 then illegalOperand
    match readVirtual s c.id c.task.fn ((c.ctl 0x30).toNat + c.task.atticSize - b) 80 with
    | .error (_, x) => atticFault x
    | .ok (bs, s) =>
      let pad := match s.core.pads.find? (fun p => p.1 == b) with | some p => p.2 | none => 0
      set { s with core := { s.core.setCtl 0x32 (BitVec.ofNat 64 (b - 80)) with pads := s.core.pads.filter (fun p => p.1 != b) } }
      let es := (((List.range 8).map (fun i => BitVec.ofNat 64 (ofBytes ((bs.drop (16 + 8 * i)).take 8)))).reverse).drop pad
      later (.rets es.tail)
      return es.headD 0

/-! The commit of a bundle (R119, R120) -/

/-- Lands the register results of one key whose bounds have all passed: one of the values written (R120). -/
def State.landKey (s : State) (key : Nat) : State :=
  let mine := s.core.flights.filter (fun x => x.key == key)
  if mine.any (fun x => decide (s.core.cycle < x.ready)) then s
  else
    let pick := if mine.length ≤ 1 then 0 else Config.choice s.fresh % mine.length
    match mine[pick]? with
    | none => s
    | some x =>
      { s with core := { s.core.setCell key x.cell with flights := s.core.flights.filter (fun x => x.key != key) },
               fresh := if mine.length ≤ 1 then s.fresh else s.fresh + 1 }

/-- Row pair `h` of a tile replaced (R346). -/
def setRows (t : BitVec 32768) (h : Nat) (v : BitVec 2048) : BitVec 32768 :=
  let m : BitVec 32768 := BitVec.ofNat 32768 ((2 ^ 2048 - 1) * 2 ^ (2048 * h))
  (t &&& ~~~ m) ||| BitVec.ofNat 32768 (v.toNat * 2 ^ (2048 * h))

/-- An accumulator tile as it stands; one not written since task start is undefined (R80, R117). -/
def Core.tileAt (c : Core) (z : Nat) : BitVec 32768 :=
  match c.tiles.find? (fun p => p.1 == z), c.tileBase with
  | some p, _ => p.2
  | none, none => 0
  | none, some e => BitVec.ofNat 32768 ((List.range 16).foldl (fun a i => a + (Config.freeBits (e + 16 * z + i)).toNat * 2 ^ (2048 * i)) 0)

/-- Lands the results of one row pair of a tile whose bounds have all passed (R120, R346). -/
def State.landTile (s : State) (z : Nat) (row : Option Nat) : State :=
  match row with
  | none => s
  | some h =>
    let same (x : TileFlight) : Bool := x.z == z && x.row == some h
    let mine := s.core.tflights.filter same
    if mine.any (fun x => decide (s.core.cycle < x.ready)) then s
    else
      let pick := if mine.length ≤ 1 then 0 else Config.choice s.fresh % mine.length
      match mine[pick]? with
      | none => s
      | some x =>
        { s with core := { s.core with tiles := SMap.put s.core.tiles z (setRows (s.core.tileAt z) h x.v),
                                       tflights := s.core.tflights.filter (fun x => !same x) },
                 fresh := if mine.length ≤ 1 then s.fresh else s.fresh + 1 }

/-- Lands the pattern entries of one key whose bounds have passed (R316). -/
def State.landPattern (s : State) (key : Nat) : State :=
  let mine := s.core.pflights.filter (fun x => x.key == key)
  if mine.any (fun x => decide (s.core.cycle < x.ready)) then s
  else
    let pick := if mine.length ≤ 1 then 0 else Config.choice s.fresh % mine.length
    match mine[pick]? with
    | none => s
    | some x =>
      { s with core := { s.core with patterns := SMap.set 0 s.core.patterns key x.v,
                                     pflights := s.core.pflights.filter (fun x => x.key != key) },
               fresh := if mine.length ≤ 1 then s.fresh else s.fresh + 1 }

/-- Lands every bounded result whose bound has passed (R120). -/
def State.land (s : State) : State :=
  let s := s.core.flights.foldl (fun s x => s.landKey x.key) s
  let s := s.core.tflights.foldl (fun s x => s.landTile x.z x.row) s
  let s := s.core.pflights.foldl (fun s x => s.landPattern x.key) s
  { s with core := { s.core with drains := s.core.drains.filter (fun d => decide (s.core.cycle < d.ready)),
                                 reads := s.core.reads.filter (fun r => r.open_ s.core.cycle),
                                 tflights := s.core.tflights.filter (fun x => x.row.isSome || decide (s.core.cycle < x.ready)) } }

/-- Lets `n` cycles of the core pass (R119). -/
def State.tick (s : State) (n : Nat) : State := { s with core := { s.core with cycle := s.core.cycle + n } }.land

/-- The pattern store key of a slot, bank and entry (R315). -/
def patternKey (slot bank entry : Nat) : Nat := slot * 128 + bank * 64 + entry

/-- The registers of the blocks of maps `old` that a core no longer uses lose what is on its way to them (R277): a bounded result, and the value of
a load, a special function or a returning qcel, whose tag is freed as ever. -/
def Core.dropFreed (c : Core) (old : Maps) : Core :=
  let freed := renamed.flatMap (fun f => ((old.of f).filter (fun p => !(usedBlocks c.maps c.frames f).contains p)).flatMap (blockKeys f))
  let strip (e : Entry) : Entry := match e.key with | some k => if freed.contains k then { e with key := none } else e | none => e
  { c with flights := c.flights.filter (fun x => !freed.contains x.key),
           specials := c.specials.filter (fun x => !freed.contains x.key),
           queues := c.queues.map (fun (q : Queue) => { q with entries := q.entries.map strip }),
           order := { c.order with acc := c.order.acc.map (fun a => { a with dsts := a.dsts.filter (fun k => !freed.contains k) }) } }

/-- Loads a carve element: the boundary, the formats, and a drain of the banks that change mode; the tag table is reset when the boundary
moves (R91, R152). -/
def Core.carveTo (c : Core) (tagged fmts : Nat) : Core :=
  let lo := min tagged c.tagged
  let hi := max tagged c.tagged
  { c with tagged := tagged, bfmt := (List.range 16).foldl (fun m b => SMap.set 0 m b (bits fmts (4 * b) 4)) c.bfmt,
           tags := if hi = lo then c.tags else [], hand := if hi = lo then c.hand else 0,
           carve := if hi = lo then c.carve
                    else some { banks := (List.range (hi - lo)).map (fun i => 16 - hi + i), until_ := c.cycle + 32 + 8 * (hi - lo) } }

/-- Ends the loop nest (R125). -/
def Core.endNest (c : Core) : Core := c.setCtl 0x38 (c.ctl 0x38 &&& ~~~ (BitVec.ofNat 64 (2 ^ 63)))

/-- The cell without its taint set and mark. -/
def RegCell.clean (r : RegCell) : RegCell := { r with taint := 0, dm := false }

/-- tclr: a register's taint set and mark are emptied, those of a result on its way to it included (R181). -/
def Core.clearTaint (c : Core) (key : Nat) : Core :=
  { c.setCell key (c.cell key).clean with
    flights := c.flights.map (fun x => if x.key = key then { x with cell := x.cell.clean } else x),
    specials := c.specials.map (fun x => if x.key = key then { x with cell := x.cell.clean } else x),
    queues := c.queues.map (fun (q : Queue) => { q with entries := q.entries.map (fun e => if e.key = some key then { e with clean := true } else e) }),
    order := { c.order with acc := c.order.acc.map (fun a => if a.dsts.contains key then { a with clean := key :: a.clean } else a) } }

/-- The deferred-precise fault due at the boundary: the oldest originating bundle first (R228). -/
def Core.dueFault (c : Core) : Option FaultInfo :=
  (c.deferred.filter (fun f => !f.held)).foldl (fun m f => match m with
    | none => some f
    | some g => if f.age < g.age then some f else some g) none

/-- A handler runs: s block 7 and k block 1 name a shadow bank (R133, R230). -/
def Core.inHandler (c : Core) : Bool := c.handler != .main || c.sup

/-- An emulation trap is due and may be entered: no handler is active (R228, R237). -/
def Core.trapDue (c : Core) : Bool := c.emul.isSome && !c.inHandler

/-- Applies one effect of the bundle at its commit. A bounded write makes an earlier one to its destination whose bound has passed the older value, so
that one can no longer be what two later writes leave (R120). A trap is taken at the boundary after it, as a deferred-precise fault (R222). -/
def Core.apply (c : Core) (e : Effect) : Core :=
  match e with
  | .landed key cell => c.landCell key cell
  | .reg key cell lat =>
    { c with flights := c.flights.filter (fun x => x.key != key || decide (c.cycle < x.ready)) ++ [{ key := key, cell := cell, ready := c.cycle + lat }] }
  | .cr n v => c.setCtl n v
  | .tile z v lat =>
    { c with tiles := SMap.put c.tiles z v, tflights := c.tflights ++ [{ z := z, row := none, v := 0, ready := c.cycle + lat }] }
  | .tileRows z h v lat =>
    { c with tflights := c.tflights.filter (fun x => x.z != z || x.row != some h || decide (c.cycle < x.ready)) ++ [{ z := z, row := some h, v := v, ready := c.cycle + lat }] }
  | .pattern slot entry v lat =>
    let key := patternKey slot (1 - nth 0 c.patBank slot) entry
    { c with pflights := c.pflights.filter (fun x => x.key != key || decide (c.cycle < x.ready)) ++ [{ key := key, v := v, ready := c.cycle + lat }] }
  | .swapPatterns slot => { c with patBank := c.patBank.set slot (1 - nth 0 c.patBank slot) }
  | .maps m fr sp => { c with maps := m, frames := fr, spilled := sp }
  | .rets r => { c with rets := r }
  | .clearTaint key => c.clearTaint key
  | .clearPath => { c with order := { c.order with ptaint := 0, pdm := false } }
  | .leave l h sup =>
    { c with level := l, handler := h, sup := sup,
             deferred := if h = .main ∧ sup = false then c.deferred.map (fun (f : FaultInfo) => { f with held := false }) else c.deferred }
  | .leaveRestore => c.setCtl 0x36 0
  | .swtrap imm => { c with deferred := c.deferred ++ [{ c.faultOf 0x40 with slot := 0, kind := 1, d0 := BitVec.ofNat 64 imm }] }
  | .emulate e => { c with emul := some e }
  | .fmt b v => { c with bfmt := SMap.set 0 c.bfmt b v }
  | .carve tagged fmts => c.carveTo tagged fmts
  | .endNest => c.endNest
  | .endTask => { c with run := .ending, endPc := c.pc }
  | .leaveStub => { c with run := .leaving, endPc := c.pc }
  | .give n => { c with ring := { c.ring with ci := c.ring.ci + n } }

/-- Commits the effects of the bundle in issue; what is on its way to a register of a block that it frees is discarded (R277). -/
def State.applyEffects (s : State) : State :=
  let c := s.core.defer.foldl Core.apply { s.core with defer := [] }
  { s with core := if c.maps = s.core.maps then c else c.dropFreed s.core.maps }

end Sys2Proof.Machine
end

