-- ==== Sys2Proof/Machine/Access.lean ====
section
/-!
DEFINITION. Accesses to global memory: their order at issue, tags, forwarding, and their performance (R154 to R156, R169 to R184).
-/
namespace Sys2Proof.Machine

/-- A load or a returning atomic (R177). -/
def AccKind.returns (k : AccKind) : Bool :=
  match k with | .load _ _ | .vload | .amo _ | .cas | .cas2 => true | _ => false

/-- An access that may write memory: everything but a plain load. -/
def AccKind.writes (k : AccKind) : Bool := match k with | .load _ _ | .vload => false | _ => true

/-- An access reads or writes the byte at `p`: an inactive lane makes no access (R300). -/
def Access.touches (a : Access) (p : Nat) : Bool := decide (a.pa ≤ p) && decide (p < a.pa + a.len) && nth true a.enable (p - a.pa)

/-- The lines that an access touches. -/
def Access.lines (a : Access) : List Nat :=
  (linesOf a.pa a.len).filter (fun l => a.enable.isEmpty || (List.range a.len).any (fun i => (a.pa + i) / 128 == l && nth true a.enable i))

/-- Two byte ranges meet. -/
def overlaps (a n b k : Nat) : Bool := a < b + k && b < a + n

/-- An access reads or writes a byte of those from `pa` on that `need` enables (R169, R300). -/
def Access.meets (x : Access) (pa len : Nat) (need : List Bool) : Bool :=
  overlaps x.pa x.len pa len &&
  ((x.enable.isEmpty && need.isEmpty) || (List.range len).any (fun i => nth true need i && x.touches (pa + i)))

/-- The earlier accesses that must be performed before a new one: of its class (R171), named by its taints (R176, R177), of its release
mask (R183), held back by a fence or acquire (R182 to R184), or to the same bytes (R169). -/
def Order.before (o : Order) (cls : Nat) (taint release : BitVec 16) (pa len : Nat) (need : List Bool) : List Nat :=
  (o.acc.filter (fun x =>
    (cls != 0 && x.cls == cls) ||
    (match x.tag with | some t => taint.getLsbD t | none => false) ||
    (taint.getLsbD 15 && x.kind.returns) ||
    release.getLsbD x.cls ||
    x.meets pa len need)).map (fun x => x.id) ++
  (o.holds.filter (fun h => h.ma.getLsbD cls)).flatMap (fun h => h.ids)

/-- The returning qcels on their way whose tags a taint set names: they hold tags as loads do (R173, R176, R180). -/
def Core.named (c : Core) (taint : BitVec 16) : List Nat :=
  ((c.queues.flatMap (fun q => q.entries)).filter (fun e =>
    match e.tag with | some t => taint.getLsbD t || taint.getLsbD 15 | none => false)).map (fun e => e.id)

/-- An access that is not yet performed, or a returning qcel on its way. -/
def Core.isOut (c : Core) (id : Nat) : Bool :=
  c.order.acc.any (fun x => x.id == id) || c.queues.any (fun q => q.entries.any (fun e => e.tag.isSome && e.id == id))

/-- The lowest free tag of 0 to 14, or 15 when all are outstanding (R173, R177). -/
def Core.newTag (c : Core) : Nat :=
  match (List.range 15).find? (fun t => !c.outstanding.getLsbD t) with | some t => t | none => 15

/-- An empty access, to be filled in. -/
def Access.blank : Access :=
  { id := 0, kind := .store, va := 0, pa := 0, len := 0, data := [], enable := [], operand := 0, expect := 0, operandHi := 0,
    expectHi := 0, cls := 0, after := [], tag := none, dsts := [], taint := 0, dm := false, old := 0, l1 := false, acquire := false,
    failAcquire := false, merge := 0, clean := [], pc := 0, cyc := 0 }

/-- The update-only lines of the classes in a mask that a core holds are merged (R156). -/
def State.mergeClasses (s : State) (mb : BitVec 16) : State :=
  (s.core.upd.filter (fun u => mb.getLsbD u.cls)).foldl (fun s u => s.mergeOf s.core.id u.line) s

/-- Issues an access: it takes its place in the order and its tag; `cells` are its operands (a store's entry
already holds its data's taint, R179), `release` and `hold` the class masks of its
release and acquire orders (R171, R173, R176, R183, R184). A release merges the update-only lines of its classes when it is performed, after the
updates of those classes (R156, R183). -/
def issue (a : Access) (cells : List RegCell) (release hold : BitVec 16) : M Unit :=
  setCore (fun c =>
    let o := c.order
    let taint := taintOf cells
    let id := o.nextId
    let tag := if a.kind.returns then some c.newTag else none
    { c with order := { o with
      acc := o.acc ++ [{ a with id := id, after := o.before a.cls (taint ||| o.ptaint) release a.pa a.len a.enable ++ c.named (taint ||| o.ptaint),
                                tag := tag,
                                taint := if a.kind = .store then a.taint else taint, dm := if a.kind = .store then a.dm else dmOf cells,
                                merge := release, pc := c.pc, cyc := c.cycle }],
      nextId := id + 1,
      holds := if hold = 0 then o.holds else o.holds ++ [{ ids := [id], ma := hold, mb := 0, l1 := false }] } })

/-- The youngest earlier access that writes the byte at `p`. -/
def Order.lastWriter (o : Order) (p : Nat) : Option Access := (o.acc.filter (fun x => x.kind.writes && x.touches p)).getLast?

/-- The store-buffer entry that supplies the byte at `p` to a later load: a plain store (R179, R183). -/
def Order.supplier (o : Order) (p : Nat) : Option Access :=
  match o.lastWriter p with
  | some x => if x.kind = .store ∧ x.acquire = false then some x else none
  | none => none

/-- The bytes of a load that stores of the own store buffer supply in full, of those in `need`, and these stores (R179). -/
def Order.forward (o : Order) (pa len : Nat) (need : List Bool) : Option (List Byte × List Access) :=
  let from_ (i : Nat) : Option Access := o.supplier (pa + i)
  if (List.range len).all (fun i => !(nth true need i) || (from_ i).isSome) then
    some ((List.range len).map (fun i => match from_ i with | some x => nth 0 x.data (pa + i - x.pa) | none => 0),
          o.acc.filter (fun x => (List.range len).any (fun i => nth true need i && (from_ i).map (fun y => y.id) == some x.id)))
  else none

/-- Something but the stores that supply it keeps a load waiting: an earlier access of its class (R171), a load that its taints name (R176), a fence or
an acquire before it (R182 to R184), or an earlier load of its bytes, after one of the supplying stores, that is still to read (R169). -/
def Order.holdsBack (o : Order) (cls : Nat) (taint : BitVec 16) (pa len : Nat) (need : List Bool) (fwd : List Access) : Bool :=
  o.acc.any (fun x =>
    (cls != 0 && x.cls == cls) ||
    (match x.tag with | some t => taint.getLsbD t | none => false) ||
    (taint.getLsbD 15 && x.kind.returns) ||
    (x.kind.returns && x.meets pa len need && fwd.any (fun y => decide (y.id < x.id)))) ||
  o.holds.any (fun h => h.ma.getLsbD cls && !h.ids.isEmpty)

/-- What serves a load at once: stores of the own store buffer that supply all its bytes, where nothing else keeps it waiting (R179, log 41). -/
def Order.served (o : Order) (cls : Nat) (cells : List RegCell) (pa len : Nat) (need : List Bool) : Option (List Byte × List Access) :=
  match o.forward pa len need with
  | some r => if o.holdsBack cls (taintOf cells ||| o.ptaint) pa len need r.2 then none else some r
  | none => none

/-- What serves a load at once on a core: its store buffer, unless the load's taints name a qcel on its way (R176, R179) or its bytes lie in the own
attic (R129). -/
def Core.served (c : Core) (cls : Nat) (cells : List RegCell) (va pa len : Nat) (need : List Bool) : Option (List Byte × List Access) :=
  if (List.range len).any (fun i => nth true need i && c.ownsAttic (va + i)) || !(c.named (taintOf cells ||| c.order.ptaint)).isEmpty then none else c.order.served cls cells pa len need

/-- A load may be served by the L1 (R170); one that an access of the store buffer partly covers reads at the Larder (R179). -/
def l1Allowed (c : Core) (cls : Nat) (cells : List RegCell) (pa len : Nat) (need : List Bool) : Bool :=
  cls == 0 && taintOf cells == 0 && !dmOf cells && c.order.ptaint == 0 && !c.order.pdm &&
  !(c.order.acc.any (fun x => x.kind.writes && x.meets pa len need))

/-- The register value of loaded bytes (R278). -/
def loadValue (size : Nat) (signed : Bool) (bs : List Byte) : Nat :=
  if signed then ((BitVec.ofNat (8 * size) (ofBytes bs)).signExtend 64).toNat else ofBytes bs

/-- Issues a scalar load: from the store buffer at once when it supplies every byte, otherwise as an access (R173, R179). -/
def issueLoad (size : Nat) (signed : Bool) (f : File) (d : Nat) (va : Word) (pa cls : Nat) (cells : List RegCell)
    (acquire : Bool) (hold : BitVec 16) : M Unit := do
  let key ← target f d
  let c ← core
  match (if acquire then none else c.served cls cells va.toNat pa size []) with
  | some (bs, older) =>
    later (.landed key { val := BitVec.ofNat 2048 (loadValue size signed bs),
                         taint := older.foldl (fun t x => t ||| x.taint) (taintOf cells),
                         dm := dmOf cells || older.any (fun x => x.dm) })
  | none =>
    issue { Access.blank with kind := .load size signed, va := va, pa := pa, len := size, cls := cls, dsts := [key],
                              l1 := !acquire && l1Allowed c cls cells pa size [], acquire := acquire } cells 0 hold

/-- An effect with its register cell changed. -/
def Effect.mapCell (e : Effect) (f : RegCell → RegCell) : Effect :=
  match e with
  | .landed key cell => .landed key (f cell)
  | .reg key cell lat => .reg key (f cell) lat
  | e => e

/-- A tag is freed: it leaves every taint set, and each set that held it gets D (R178). Tag 15 stays while another load holds it (R177). -/
def Core.freeTag (c : Core) (t : Nat) : Core :=
  if c.order.acc.any (fun a => a.tag == some t) || c.queues.any (fun q => q.entries.any (fun e => e.tag == some t)) then c
  else
    let m : BitVec 16 := ~~~ (BitVec.ofNat 16 (2 ^ t))
    let fix (r : RegCell) : RegCell := if r.taint.getLsbD t then { r with taint := r.taint &&& m, dm := true } else r
    let fixE (e : Entry) : Entry := if e.taint.getLsbD t then { e with taint := e.taint &&& m, dm := true } else e
    { c with
      regs := c.regs.map (fun p => (p.1, fix p.2)),
      defer := c.defer.map (fun e => e.mapCell fix),
      flights := c.flights.map (fun x => { x with cell := fix x.cell }),
      specials := c.specials.map (fun x => { x with cell := fix x.cell }),
      queues := c.queues.map (fun (q : Queue) => { q with entries := q.entries.map fixE }),
      order := { c.order with
        ptaint := c.order.ptaint &&& m, pdm := c.order.pdm || c.order.ptaint.getLsbD t,
        acc := c.order.acc.map (fun a => if a.taint.getLsbD t then { a with taint := a.taint &&& m, dm := true } else a) } }

/-- An acquire at device or fabric scope: the L1 is invalidated and every dependence mark is cleared, in the results of the bundle in issue too (R154,
R178). -/
def Core.acquired (c : Core) : Core :=
  { c with l1 := [],
           regs := (c.regs.map (fun p => (p.1, { p.2 with dm := false }))).filter (fun p => p.2 != RegCell.zero),
           defer := c.defer.map (fun e => e.mapCell (fun r => { r with dm := false })),
           flights := c.flights.map (fun x => { x with cell := { x.cell with dm := false } }),
           specials := c.specials.map (fun x => { x with cell := { x.cell with dm := false } }),
           order := { c.order with pdm := false,
                                   acc := c.order.acc.map (fun a => if a.kind.returns then { a with dm := false } else a) },
           queues := c.queues.map (fun (q : Queue) => { q with
             entries := q.entries.map (fun e => if e.key.isSome then { e with dm := false } else e) }) }

/-- Replaces or adds an L1 line (R154, R170; log 10). -/
def Core.l1Put (c : Core) (line : Nat) (bs : List Byte) : Core :=
  { c with l1 := pushBounded 1024 (c.l1.filter (fun x => x.line != line)) { line := line, data := bs } }

/-- Drops an L1 line. -/
def Core.l1Drop (c : Core) (line : Nat) : Core := { c with l1 := c.l1.filter (fun x => x.line != line) }

/-- Reads for a load: from the held L1 lines where allowed, otherwise the lines it touches at the Larder, which replaces their L1 copies (R170). -/
def State.loadBytes (s : State) (a : Access) : List Byte × State :=
  let held (l : Nat) : Option (List Byte) := (s.core.l1.find? (fun x => x.line == l)).map (fun x => x.data)
  if a.l1 && a.lines.all (fun l => (held l).isSome) then
    ((List.range a.len).map (fun i => nth 0 ((held ((a.pa + i) / 128)).getD []) ((a.pa + i) % 128)), s)
  else
    let s := a.lines.foldl State.settle s
    (s.bytesFrom a.pa a.len, a.lines.foldl (fun s l => { s with core := s.core.l1Put l (s.bytesFrom (128 * l) 128) }) s)

/-- Combines a delta into the core's update-only line, allocating it first where needed (R155, R157); the own L1 copy of the line goes (R154). -/
def State.combine (s : State) (op width cls pa : Nat) (x : Nat) : State :=
  let line := pa / 128
  let n := s.core.id
  let same (u : UpdLine) : Bool := u.op == op && u.width == width && u.cls == cls
  let s := match s.core.upd.find? (fun u => u.line == line) with
    | some u => if same u then s else s.mergeOf n line
    | none => s
  let idn := BitVec.ofNat 64 (atomicIdentity op (8 * width))
  let s := if s.core.upd.any (fun u => u.line == line) then s
    else
      let s := s.resolve line
      let s := if s.core.upd.length < 256 then s else match s.core.upd with | u :: _ => s.mergeOf n u.line | [] => s
      { s with core := { s.core with upd := s.core.upd ++ [{ line := line, op := op, width := width, cls := cls, deltas := [] }] } }
  { s with core := { s.core.l1Drop line with upd := s.core.upd.map (fun u =>
      if u.line = line then
        let old := SMap.get idn u.deltas (pa % 128)
        { u with deltas := SMap.put u.deltas (pa % 128) (BitVec.ofNat 64 (atomicOp op (8 * width) old.toNat x)) }
      else u) } }

/-- A store of the bytes that its mask enables; a line with none of them is left alone (R300, R321). -/
def State.putMasked (s : State) (a : Access) : State :=
  let s := (a.lines.foldl State.settle s).spoilSpills a.pa a.len
  let s := if a.enable.isEmpty then { s with larder := larderPut s.larder a.pa a.data }
    else (List.range a.len).foldl (fun (s : State) i =>
      if nth true a.enable i then { s with larder := SMap.set none s.larder (a.pa + i) (some (nth 0 a.data i)) } else s) s
  let s := a.lines.foldl State.hitWatch s
  { s with core := s.core.l1Store a.pa a.enable a.data }

/-- Bytes with a mask: those enabled come from `new`. -/
def blend (en : List Bool) (old new : List Byte) : List Byte :=
  (List.range old.length).map (fun i => if nth true en i then nth 0 new i else nth 0 old i)

/-- The word of an update-only or exact addition as it is applied: a free one in the own attic (R8, R129). -/
def State.atticWord (s : State) (a : Access) : Word × State :=
  if s.core.meetsAttic a.va.toNat a.len then ((Config.freeBits s.fresh).truncate 64, { s with fresh := s.fresh + 1 }) else (a.operand, s)

/-- An atomic at the Larder: its bytes are read, and where it applies written; the old value, and whether it was written (R184, R281). -/
def State.atomicAt (s : State) (a : Access) (n : Nat) (new : Nat → Option (List Byte)) : State × Nat × Bool :=
  let r := s.larderRead a.pa n
  let (bs, s) := r.2.atticBytes s.core.id a.va.toNat r.1
  let old := ofBytes bs
  match new old with
  | none => ({ s with core := s.core.l1Drop (a.pa / 128) }, old, false)
  | some bs =>
    let (bs, s) := s.atticBytes s.core.id a.va.toNat bs
    let s := s.larderWrite a.pa bs
    ({ s with core := s.core.l1Drop (a.pa / 128) }, old, true)

/-- The effect of an access at the Larder: the state, the returned value, and whether it acted as an acquire (R154 to R160, R184); in the core's own
attic it reads or leaves free bytes (R129). -/
def State.performAt (s : State) (a : Access) : State × Nat × Bool :=
  match a.kind with
  | .load size signed =>
    let r := s.loadBytes a
    let m := r.2.atticBytes s.core.id a.va.toNat r.1
    (m.2, loadValue size signed m.1, a.acquire)
  | .vload =>
    let r := s.loadBytes a
    let m := r.2.atticBytes s.core.id a.va.toNat r.1
    (m.2, ofBytes (blend a.enable (toBytes 256 a.old.toNat) m.1), false)
  | .store =>
    let m := s.atticBytes s.core.id a.va.toNat a.data
    (m.2.putMasked { a with data := m.1 }, 0, false)
  | .amo op =>
    let r := s.atomicAt a a.len (fun old => some (toBytes a.len (atomicOp op (8 * a.len) old a.operand.toNat)))
    (r.1, r.2.1, a.acquire)
  | .cas =>
    let r := s.atomicAt a a.len (fun old => if old == a.expect.toNat % 2 ^ (8 * a.len) then some (toBytes a.len a.operand.toNat) else none)
    (r.1, r.2.1, if r.2.2 then a.acquire else a.failAcquire)
  | .cas2 =>
    let r := s.atomicAt a 16 (fun old => if old == a.expect.toNat + 2 ^ 64 * a.expectHi.toNat
      then some (toBytes 8 a.operand.toNat ++ toBytes 8 a.operandHi.toNat) else none)
    (r.1, r.2.1, if r.2.2 then a.acquire else a.failAcquire)
  | .redx =>
    let (x, s) := s.atticWord a
    let s1 := { s with core := s.core.l1Drop (a.pa / 128) }
    match s1.exactAdd s1.core.task.fn a.pa [x.toNat % 2 ^ 32] with
    | some s => (s, 0, false)
    | none =>
      let f := { s1.core.faultOf 0x23 with
        slot := 0, kind := 1, pc := a.pc, age := a.cyc, addr := a.va, taint := a.taint, dm := a.dm, d0 := a.va &&& ~~~ 127, d1 := 1 }
      ({ s1 with core := { s1.core with deferred := s1.core.deferred ++ [f] } }, 0, false)
  | .update op =>
    let (x, s) := s.atticWord a
    (s.combine op a.len a.cls a.pa x.toNat, 0, false)
  | .discard => ({ s.discardLine (a.pa / 128) with core := s.core.l1Drop (a.pa / 128) }, 0, false)

/-- The registers an access returns to (R281: cas2 returns a pair), with its own tag and its operands' taints (R174), or none after a tclr (R181). -/
def Core.land (c : Core) (a : Access) (v : Nat) : Core :=
  let own : BitVec 16 := match a.tag with | some t => BitVec.ofNat 16 (2 ^ t) | none => 0
  let cell (k x : Nat) : RegCell :=
    if a.clean.contains k then { val := BitVec.ofNat 2048 x, taint := 0, dm := false }
    else { val := BitVec.ofNat 2048 x, taint := a.taint ||| own, dm := a.dm }
  match a.kind, a.dsts with
  | .cas2, k0 :: k1 :: _ => (c.landCell k0 (cell k0 (v % 2 ^ 64))).landCell k1 (cell k1 (v / 2 ^ 64))
  | _, k :: _ => c.landCell k (cell k v)
  | _, [] => c

/-- The order once access `id` is performed: nothing waits for it. -/
def Order.done (o : Order) (id : Nat) : Order :=
  { o with
    acc := (o.acc.filter (fun (x : Access) => x.id != id)).map (fun (x : Access) => { x with after := x.after.filter (fun i => i != id) }),
    holds := (o.holds.map (fun (h : Hold) => { h with ids := h.ids.filter (fun i => i != id) })).filter (fun h => !h.ids.isEmpty) }

/-- The holds that the performance of access `id` ends. -/
def Order.ends (o : Order) (id : Nat) : List Hold := o.holds.filter (fun h => h.ids.all (fun i => i == id))

/-- The holds whose earlier accesses are all performed end: for a fence that invalidates it, L1 lines filled before that serve no later load, and its
update-only lines are merged (R154, R156, R182). -/
def State.endHolds (s : State) (hs : List Hold) : State :=
  if hs.isEmpty then s
  else ({ s with core := { s.core with l1 := if hs.any (fun h => h.l1) then [] else s.core.l1 } } : State).mergeClasses
    (hs.foldl (fun m h => m ||| h.mb) 0)

/-- An access of the core in focus is performed (R165, R171): its effect, its result with its tag freed, and its acquire. -/
def State.perform (s : State) (id : Nat) : State :=
  match s.core.order.acc.find? (fun a => a.id == id) with
  | none => s
  | some a =>
    let r := (s.mergeClasses a.merge).performAt a
    let s := r.1
    let c := s.core
    let ended := c.order.ends id
    let strip (e : Entry) : Entry := { e with after := e.after.filter (fun i => i != id) }
    let c := { c with order := c.order.done id, queues := c.queues.map (fun (q : Queue) => { q with entries := q.entries.map strip }) }
    let c := c.land a r.2.1
    let c := match a.tag with | some t => c.freeTag t | none => c
    ({ s with core := if r.2.2 then c.acquired else c } : State).endHolds ended

/-- The accesses that may be performed next. -/
def Core.performable (c : Core) : List Access := c.order.acc.filter (fun a => a.after.all (fun i => !c.isOut i))

end Sys2Proof.Machine
end

