-- ==== Sys2Proof/Machine/Operands.lean ====
section
/-!
DEFINITION. Operand forms of the vector slots: lane views, guards, merged and reduced results, and the base address of a VM form
(R252, R299 to R302, R318).
-/
namespace Sys2Proof.Machine

/-- The lane width of a T code (R252). -/
def laneWidth (t : BitVec 2) : Nat := match t.toNat with | 0 => 32 | 1 => 16 | 2 => 8 | _ => 64

/-- `n` lanes of `e` bits of a number, lane 0 first (R299). -/
def lanesOf (e n x : Nat) : List Nat := (List.range n).map (fun j => bits x (e * j) e)

/-- Lanes of `e` bits put together, lane 0 lowest (R299). -/
def ofLanes (e : Nat) (ls : List Nat) : Nat := ls.foldr (fun l a => l % 2 ^ e + 2 ^ e * a) 0

/-- The lanes of a register in the view of width `e`. -/
def RegCell.lanes (r : RegCell) (e : Nat) : List Nat := lanesOf e (2048 / e) r.val.toNat

/-- The signed value of an `e`-bit lane. -/
def lane2int (e x : Nat) : Int := (BitVec.ofNat e x).toInt

/-- The lane of an integer, wrapped to `e` bits (R197). -/
def int2lane (e : Nat) (x : Int) : Nat := (BitVec.ofInt e x).toNat

/-- The value of a lane, signed unless `u`. -/
def laneVal (u : Bool) (e x : Nat) : Int := if u then (x : Int) else lane2int e x

/-- A guard: the mask's cell when the form has one. -/
abbrev Guard := Option RegCell

/-- Reads the guard of a vector op; m = 0 means none (R299). -/
def readGuard (v : VSlot) (m : BitVec 3) : M Guard :=
  if m = 0 then pure none else do return some (← readReg (vMasks v) m.toNat)

/-- Lane `j` is active (R300). -/
def Guard.active (g : Guard) (j : Nat) : Bool :=
  match g with | none => true | some r => r.val.getLsbD j

/-- The cells a guard adds to the operands read. -/
def Guard.cells (g : Guard) : List RegCell := g.toList

/-- Some lane among `n` is active. -/
def Guard.some_ (g : Guard) (n : Nat) : Bool := (List.range n).any g.active

/-- Writes a per-lane result of `e`-bit lanes: inactive lanes keep their value, so the old destination is read (R300). The lanes above
those given are zero. -/
def writeLanes (v : VSlot) (d : BitVec 5) (g : Guard) (e : Nat) (new : List Nat) (srcs : List RegCell) (lat : Nat) : M Unit := do
  match g with
  | none => writeReg (vFile v) d.toNat (ofLanes e new) srcs lat
  | some m =>
    let old ← readReg (vFile v) d.toNat
    let merged := new.zipIdx.map (fun p => if g.active p.2 then p.1 else nth 0 (old.lanes e) p.2)
    writeReg (vFile v) d.toNat (ofLanes e merged) (srcs ++ [m, old]) lat

/-- Writes lane 0 of a register, every other lane zero (R307, R311). -/
def writeLane0 (v : VSlot) (d : BitVec 5) (x : Nat) (srcs : List RegCell) (lat : Nat) : M Unit := writeReg (vFile v) d.toNat x srcs lat

/-- Writes a mask: the bits of inactive lanes and those at or above the lane count are zero (R300), latency 2. -/
def writeMask (v : VSlot) (d : Nat) (g : Guard) (bs : List Bool) (srcs : List RegCell) : M Unit :=
  writeReg (vMasks v) d (ofLanes 1 (bs.zipIdx.map (fun p => if p.1 && g.active p.2 then 1 else 0))) (srcs ++ g.cells) 2

/-- Reads vector register `n`. -/
def readV (v : VSlot) (n : BitVec 5) : M RegCell := readReg (vFile v) n.toNat

/-- The registers of a group of `n` from `r`, as one number of 256n bytes, with their cells (R302). -/
def readGroup (v : VSlot) (r : BitVec 5) (n : Nat) : M (Nat × List RegCell) := do
  let cs ← (List.range n).mapM (fun i => readReg (vFile v) (r.toNat + i))
  return (ofLanes 2048 (cs.map (fun c => c.val.toNat)), cs)

/-- Writes a group of `n` registers (R302). -/
def writeGroup (v : VSlot) (d : BitVec 5) (n x : Nat) (srcs : List RegCell) (lat : Nat) : M Unit :=
  (List.range n).forM (fun i => writeReg (vFile v) (d.toNat + i) (bits x (2048 * i) 2048) srcs lat)

/-! VM forms (R318) -/

/-- DISP, zero when the extension is absent (R318). -/
def vmDisp (o : VM) : Word := match o.g with | none => 0 | some g => g.disp.signExtend 64
/-- CL of vld and vst (R318). -/
def vmCls (o : VM) : Nat := match o.g with | none => 0 | some g => g.cl.toNat

/-- The base address of a VM form: lane 0 of the 64-bit view of a (R318). -/
def RegCell.base (r : RegCell) : Word := r.val.truncate 64

/-- The address of vldp, vstp, vld and vst (R318). -/
def vmAddr (a : RegCell) (o : VM) : Word := a.base + 256 * vmDisp o

/-- The address of lane `j` of vgath and vscat (R318). -/
def vmLaneAddr (a b : RegCell) (o : VM) (j : Nat) : Word := a.base + vmDisp o + BitVec.ofNat 64 (nth 0 (b.lanes 32) j)

/-- The byte enables of the active 32-bit lanes. -/
def Guard.bytes (g : Guard) : List Bool := match g with | none => [] | some _ => (List.range 256).map (fun i => g.active (i / 4))

end Sys2Proof.Machine
end

