-- ==== Sys2Proof/Machine/Flags.lean ====
section
/-!
DEFINITION. The conditions the machine computes: compares of lanes in their integer and floating-point orders (R306, R308). The machine
has no status flags; a compare writes a predicate (R273) or a mask.
-/
namespace Sys2Proof.Machine

/-- The integer compares (R273, R306). -/
inductive IntCmp where
  | eq
  | ne
  | lt
  | ltu
  | ge
  | geu
  deriving DecidableEq, Repr

/-- An integer compare of two lanes of `e` bits (R306). -/
def IntCmp.holds (c : IntCmp) (e a b : Nat) : Bool :=
  match c with
  | .eq => a == b
  | .ne => a != b
  | .lt => decide (lane2int e a < lane2int e b)
  | .ltu => decide (a < b)
  | .ge => decide (lane2int e b ≤ lane2int e a)
  | .geu => decide (b ≤ a)

/-- The floating-point compares (R308). -/
inductive FpCmp where
  | eq
  | ne
  | lt
  | le
  | un
  deriving DecidableEq, Repr

/-- A floating-point compare of two codes: ne and un hold when either is a NaN, the others do not (R308). -/
def FpCmp.holds (c : FpCmp) (f : Fmt) (a b : Nat) : Bool :=
  match fpOrder (fpDecode f a) (fpDecode f b) with
  | none => (match c with | .ne | .un => true | _ => false)
  | some x => (match c with
    | .eq => decide (x = 0)
    | .ne => decide (x ≠ 0)
    | .lt => decide (x < 0)
    | .le => decide (x ≤ 0)
    | .un => false)

end Sys2Proof.Machine
end

