-- ==== Sys2Proof/Machine/Functions.lean ====
section
/-!
DEFINITION. The correctly rounded functions (R220): each value is enclosed by fixed-point bounds of rising precision, until both bounds round
to one code; the algebraic ones are rounded from their exact quotient or root.
-/
namespace Sys2Proof.Machine

/-! Fixed-point series. A number x stands for x divided by 2^p. -/

/-- The terms of the exponential series from r^k / k! on. -/
def expTerms (p : Nat) (r : Int) (n k : Nat) (t acc : Int) : Int :=
  match n with
  | 0 => acc
  | m + 1 => let u := t * r / (2 ^ p * (k : Int)); expTerms p r m (k + 1) u (acc + u)

/-- e^r for |r| at most 1. -/
def expFix (p : Nat) (r : Int) : Int := expTerms p r p 1 (2 ^ p) (2 ^ p)

/-- Sum of y^(2i+1) / (2i+1) from term `i` on; `t` is the power, `s` 1 or -1 the factor of y squared's sign. -/
def atanTerms (p : Nat) (y2 : Int) (n i : Nat) (t acc : Int) : Int :=
  match n with
  | 0 => acc
  | m + 1 => atanTerms p y2 m (i + 1) (t * y2 / 2 ^ p) (acc + t / (2 * (i : Int) + 1))

/-- ln of m / 2^p for m from 2^p to 2^(p+1). -/
def lnFix (p : Nat) (m : Int) : Int :=
  let y := (m - 2 ^ p) * 2 ^ p / (m + 2 ^ p)
  2 * atanTerms p (y * y / 2 ^ p) p 0 y 0

/-- ln 2. -/
def ln2Fix (p : Nat) : Int := 2 * atanTerms p (2 ^ p / 9) p 0 (2 ^ p / 3) 0

/-- The arc tangent of 1 / k. -/
def atanInv (p : Nat) (k : Int) : Int := atanTerms p (-(2 ^ p / (k * k))) p 0 (2 ^ p / k) 0

/-- The number pi. -/
def piFix (p : Nat) : Int := 16 * atanInv p 5 - 4 * atanInv p 239

/-- The terms of an alternating Taylor series whose k-th factor is x^2 / (k (k + 1)). -/
def trigTerms (p : Nat) (x2 : Int) (n k : Nat) (t acc : Int) : Int :=
  match n with
  | 0 => acc
  | m + 1 => let u := -(t * x2) / (2 ^ p * ((k * (k + 1) : Nat) : Int)); trigTerms p x2 m (k + 2) u (acc + u)

/-- sin r for |r| at most 1. -/
def sinFix (p : Nat) (r : Int) : Int := trigTerms p (r * r / 2 ^ p) p 2 r r
/-- cos r for |r| at most 1. -/
def cosFix (p : Nat) (r : Int) : Int := trigTerms p (r * r / 2 ^ p) p 1 (2 ^ p) (2 ^ p)

/-- The terms (-1)^k x^(2k+1) / (k! (2k+1)); `t` is (-1)^k x^(2k+1) / k!. -/
def erfTerms (p : Nat) (x2 : Int) (n k : Nat) (t acc : Int) : Int :=
  match n with
  | 0 => acc
  | m + 1 => erfTerms p x2 m (k + 1) (-(t * x2) / (2 ^ p * ((k : Int) + 1))) (acc + t / (2 * (k : Int) + 1))

/-- Integer square root of `x`, from bit `i` downward. -/
def isqrtBits (x : Nat) (i r : Nat) : Nat :=
  match i with
  | 0 => r
  | k + 1 => let c := r + 2 ^ k; isqrtBits x k (if c * c ≤ x then c else r)

/-- Integer square root. -/
def isqrt (x : Nat) : Nat := isqrtBits x (Nat.log2 x / 2 + 1) 0

/-! Enclosures -/

/-- An enclosure: the value lies strictly between `lo` and `hi` times 2^e, with its sign. -/
structure Encl where
  neg : Bool
  lo : Nat
  hi : Nat
  e : Int
  deriving DecidableEq, Repr

/-- The code that every value of an enclosure rounds to, if there is one. -/
def Encl.code (x : Encl) (f : Fmt) (rm : Nat) : Option Nat :=
  let a := fpRoundFin f rm x.neg x.lo x.e true
  if x.lo < x.hi ∧ a = fpRoundFin f rm x.neg (x.hi - 1) x.e true then some a else none

/-- The error bound of the fixed-point results, in units: below 2^40 for every series here. -/
def slack : Int := 2 ^ 40

/-- An enclosure of width 2 `slack` about x / 2^p times 2^k; none when it does not exclude zero. -/
def around (x : Int) (p : Nat) (k : Int) : Option Encl :=
  if x.natAbs ≤ slack.toNat then none
  else some { neg := decide (x < 0), lo := x.natAbs - slack.toNat, hi := x.natAbs + slack.toNat, e := k - p }

/-- A positive value too small, or too near 1 or another bound, to be told from it in any format. -/
def tiny (neg : Bool) : Encl := { neg := neg, lo := 0, hi := 1, e := -500 }
/-- A value just below 1 in magnitude. -/
def nearOne (neg : Bool) : Encl := { neg := neg, lo := 2 ^ 500 - 1, hi := 2 ^ 500, e := -500 }
/-- A value beyond every format's range. -/
def huge (neg : Bool) : Encl := { neg := neg, lo := 2 ^ 500, hi := 2 ^ 500 + 1, e := 0 }

/-- x = (-1)^neg m 2^e at scale 2^p, rounded towards minus infinity. -/
def fixOf (p : Nat) (neg : Bool) (m : Nat) (e : Int) : Int :=
  let s := e + p
  let n : Int := if neg then -(m : Int) else m
  if 0 ≤ s then n * 2 ^ s.toNat else n / 2 ^ (-s).toNat

/-- The magnitude m 2^e is at least 2^k. -/
def magAtLeast (m : Nat) (e k : Int) : Bool := decide (m ≠ 0) && decide (k ≤ (Nat.log2 m : Int) + e)

/-- e^x as y 2^k, by x = k ln 2 + r. -/
def expParts (p : Nat) (x : Int) : Int × Int :=
  let l := ln2Fix p
  (expFix p (x - x / l * l), x / l)

/-- The enclosure of e^x. -/
def expEncl (p : Nat) (x : Int) : Option Encl := around (expParts p x).1 p (expParts p x).2

/-- e^x for x at most 0. -/
def expBelow (p : Nat) (x : Int) : Int := (expParts p x).1 / 2 ^ (-(expParts p x).2).toNat

/-- The transcendental functions. -/
inductive Func where
  | exp
  | exp2
  | log
  | log2
  | sin
  | cos
  | tanh
  | sigm
  | erf
  deriving DecidableEq, Repr

/-- The enclosure of sin or cos: reduction by multiples of pi / 2, exact for every finite argument (R220). -/
def trigEncl (isCos : Bool) (p : Nat) (neg : Bool) (m : Nat) (e : Int) : Option Encl :=
  let q := p + 192
  let half := piFix q / 2
  let x := fixOf q neg m e
  let k := (2 * x + half) / (2 * half)
  let r := (x - k * half) / 2 ^ 192
  let j := (k + (if isCos then 1 else 0)) % 4
  around (if j = 0 then sinFix p r else if j = 1 then cosFix p r else if j = 2 then -(sinFix p r) else -(cosFix p r)) p 0

/-- The enclosure of a function at a finite non-zero argument, with `p` fraction bits. -/
def Func.encl (f : Func) (p : Nat) (neg : Bool) (m : Nat) (e : Int) : Option Encl :=
  let x := fixOf p neg m e
  match f with
  | .exp => if magAtLeast m e 10 then some (if neg then tiny false else huge false) else expEncl p x
  | .exp2 =>
    if magAtLeast m e 10 then some (if neg then tiny false else huge false)
    else around (expFix p ((x % 2 ^ p) * ln2Fix p / 2 ^ p)) p (x / 2 ^ p)
  | .log | .log2 =>
    let k : Int := (Nat.log2 m : Int)
    let y := lnFix p (fixOf p false m (-k))
    let v := y + (k + e) * ln2Fix p
    match f with
    | .log => around v p 0
    | _ => around (v * 2 ^ p / ln2Fix p) p 0
  | .sin => trigEncl false p neg m e
  | .cos => trigEncl true p neg m e
  | .tanh =>
    if magAtLeast m e 7 then some (nearOne neg)
    else
      let u := expBelow p (-(2 * fixOf p false m e))
      let v := (2 ^ p - u) * 2 ^ p / (2 ^ p + u)
      around (if neg then -v else v) p 0
  | .sigm =>
    if magAtLeast m e 9 then some (if neg then tiny false else nearOne false)
    else
      let u := expBelow p (-(fixOf p false m e))
      around ((if neg then u else 2 ^ p) * 2 ^ p / (2 ^ p + u)) p 0
  | .erf =>
    if magAtLeast m e 4 then some (nearOne neg)
    else
      let q := p + 512
      let x := fixOf q neg m e
      let s := erfTerms q (x * x / 2 ^ q) (p + 1024) 0 x 0
      let root : Int := isqrt (piFix q * 2 ^ q).toNat
      around (2 * s * 2 ^ q / root / 2 ^ 512) p 0

/-- The results at arguments where a function's value is exact. -/
def Func.exact (f : Func) (neg : Bool) (m : Nat) (e : Int) : Option FpVal :=
  let pow2 := m == 2 ^ Nat.log2 m
  match f with
  | .exp => none
  | .exp2 =>
    let x := fixOf 0 neg m e
    if !magAtLeast m e 10 && (decide (0 ≤ e) || m % 2 ^ (-e).toNat == 0) then some (.fin false 1 x) else none
  | .log => if pow2 && decide ((Nat.log2 m : Int) + e = 0) then some (.fin false 0 0) else none
  | .log2 => if pow2 then some (ofInt ((Nat.log2 m : Int) + e)) else none
  | _ => none

/-- The results at zero and the infinities (R220). -/
def Func.special (f : Func) (v : FpVal) : Option FpVal :=
  let one : FpVal := .fin false 1 0
  match f, v with
  | _, .nan => some .nan
  | .exp, .inf n | .exp2, .inf n => some (if n then .fin false 0 0 else .inf false)
  | .log, .inf n | .log2, .inf n => some (if n then .nan else .inf false)
  | .sin, .inf _ | .cos, .inf _ => some .nan
  | .tanh, .inf n | .erf, .inf n => some (.fin n 1 0)
  | .sigm, .inf n => some (if n then .fin false 0 0 else one)
  | f, .fin n m e =>
    if m = 0 then
      match f with
      | .exp | .exp2 | .cos => some one
      | .log | .log2 => some (.inf true)
      | .sin | .tanh | .erf => some (.fin n 0 0)
      | .sigm => some (.fin false 1 (-1))
    else
      match f with
      | .log | .log2 => if n then some .nan else f.exact n m e
      | _ => f.exact n m e

/-- The correctly rounded value of a function (R220); none if the precisions tried do not decide it. -/
def Func.eval (f : Func) (out : Fmt) (rm : Nat) (v : FpVal) : Option Nat :=
  match f.special v, v with
  | some y, _ => some (fpRound out rm y)
  | none, .fin n m e => ([256, 640, 1400] : List Nat).findSome? (fun p => (f.encl p n m e).bind (fun x => x.code out rm))
  | none, _ => none

/-- a / b for finite non-zero values, rounded once: the quotient's first bits and whether it is exact (R220). -/
def fpQuot (out : Fmt) (rm : Nat) (neg : Bool) (m : Nat) (e : Int) (k : Nat) (q : Int) : Nat :=
  let sh := Nat.log2 k + 80
  fpRoundFin out rm neg (m * 2 ^ sh / k) (e - q - sh) (m * 2 ^ sh % k != 0)

/-- fdiv (R220). -/
def fpDiv (out : Fmt) (rm : Nat) (a b : FpVal) : Nat :=
  match a, b with
  | .nan, _ | _, .nan => out.nan
  | .inf _, .inf _ => out.nan
  | .inf n, .fin k _ _ => fpRound out rm (.inf (n != k))
  | .fin n _ _, .inf k => fpRound out rm (.fin (n != k) 0 0)
  | .fin n m e, .fin k p q =>
    if p = 0 then (if m = 0 then out.nan else fpRound out rm (.inf (n != k)))
    else if m = 0 then fpRound out rm (.fin (n != k) 0 0)
    else fpQuot out rm (n != k) m e p q

/-- frcp (R220). -/
def fpRcp (out : Fmt) (rm : Nat) (a : FpVal) : Nat := fpDiv out rm (.fin false 1 0) a

/-- fsqrt (R220). -/
def fpSqrt (out : Fmt) (rm : Nat) (a : FpVal) : Nat :=
  match a with
  | .nan => out.nan
  | .inf n => if n then out.nan else fpRound out rm (.inf false)
  | .fin n m e =>
    if m = 0 then fpRound out rm (.fin n 0 0)
    else if n then out.nan
    else
      let odd := (e % 2 == 1 : Bool)
      let x := (if odd then 2 * m else m) * 2 ^ 160
      let r := isqrt x
      fpRoundFin out rm false r ((if odd then e - 1 else e) / 2 - 80) (r * r != x)

/-- frsq (R220). -/
def fpRsq (out : Fmt) (rm : Nat) (a : FpVal) : Nat :=
  match a with
  | .nan => out.nan
  | .inf n => if n then out.nan else fpRound out rm (.fin false 0 0)
  | .fin n m e =>
    if m = 0 then fpRound out rm (.inf n)
    else if n then out.nan
    else
      let odd := (e % 2 == 1 : Bool)
      let k := if odd then 2 * m else m
      let sh := Nat.log2 k + 160
      let x := 2 ^ (2 * sh)
      let r := isqrt (x / k)
      fpRoundFin out rm false r (-((if odd then e - 1 else e) / 2) - sh) (r * r * k != x)

end Sys2Proof.Machine
end

