-- ==== Sys2Proof/Machine/Vector.lean ====
section
/-!
DEFINITION. Vector arithmetic (R303 to R317): integer lanes, floating-point lanes, conversions and functions, exact records, MX blocks,
shuffles and masks. One meaning per instruction over shared lane forms.
-/
namespace Sys2Proof.Machine

/-! Lane forms -/

/-- The lane width of a vector op. -/
def VR.e (o : VR) : Nat := laneWidth o.t

/-- Two sources per lane, guarded and merged (R300, R303). -/
def vec2 (o : VR) (e : Nat) (f : Nat → Nat → Nat) (lat : Nat) : M Unit := do
  let g ← readGuard o.v o.m
  let a ← readV o.v o.a
  let b ← readV o.v o.b
  writeLanes o.v o.d g e ((a.lanes e).zipWith f (b.lanes e)) [a, b] lat

/-- One source per lane. -/
def vec1 (o : VR) (e : Nat) (f : Nat → Nat) (lat : Nat) : M Unit := do
  let g ← readGuard o.v o.m
  let a ← readV o.v o.a
  writeLanes o.v o.d g e ((a.lanes e).map f) [a] lat

/-- Three sources per lane: a, b and C. -/
def vec3 (o : VR) (e : Nat) (f : Nat → Nat → Nat → Nat) (lat : Nat) : M Unit := do
  let g ← readGuard o.v o.m
  let a ← readV o.v o.a
  let b ← readV o.v o.b
  let c ← readV o.v o.third
  writeLanes o.v o.d g e (((a.lanes e).zip (b.lanes e)).zipWith (fun p x => f p.1 p.2 x) (c.lanes e)) [a, b, c] lat

/-- A compare of lanes into the mask numbered by d (R300, R306, R308). -/
def vecCmp (o : VR) (e : Nat) (f : Nat → Nat → Bool) : M Unit := do
  let g ← readGuard o.v o.m
  let a ← readV o.v o.a
  let b ← readV o.v o.b
  writeMask o.v o.d.toNat g ((a.lanes e).zipWith f (b.lanes e)) [a, b]

/-- The active lanes of a list (R300, terms). -/
def activeOf {α : Type} (g : Guard) (ls : List α) : List α := (ls.zipIdx.filter (fun p => g.active p.2)).map (fun p => p.1)

/-- A reduction of the active lanes to lane 0 (R307). -/
def vecRed (o : VR) (e : Nat) (f : List Nat → Nat) (lat : Nat) : M Unit := do
  let g ← readGuard o.v o.m
  let a ← readV o.v o.a
  writeLane0 o.v o.d (f (activeOf g (a.lanes e)) % 2 ^ e) ([a] ++ g.cells) lat

/-- Smaller or larger of two lanes. -/
def pick2 (isMax u : Bool) (e x y : Nat) : Nat :=
  if laneVal u e x < laneVal u e y then (if isMax then y else x) else (if isMax then x else y)

/-- A shift count: the low log2(e) bits of the lane (R303). -/
def laneShift (e b : Nat) : Nat := b % e

/-- A right shift with rounding, saturated to half the width (R304). -/
def qshrLane (u : Bool) (e sh x : Nat) : Nat :=
  let v := laneVal u e x
  let v := if sh = 0 then v else (v + 2 ^ (sh - 1)) / 2 ^ sh
  int2lane (e / 2) (saturate (!u) (e / 2) v)

/-- The narrowing forms: lanes from a, then from b, in the result view of half width (R304). -/
def vecNarrow (o : VR) (f : Nat → Nat) : M Unit := do
  let e := VR.e o
  let g ← readGuard o.v o.m
  let a ← readV o.v o.a
  let b ← readV o.v o.b
  writeLanes o.v o.d g (e / 2) ((a.lanes e ++ b.lanes e).map f) [a, b] 3

/-- vunpk (R304). -/
def vunpkOp (o : VR) : M Unit := do
  let e := VR.e o
  let n := 2048 / e
  let g ← readGuard o.v o.m
  let a ← readV o.v o.a
  let ls := ((a.lanes (e / 2)).drop (if o.imm.getLsbD 0 then n else 0)).take n
  writeLanes o.v o.d g e (ls.map (fun x => int2lane e (laneVal o.unsig (e / 2) x))) [a] 3

/-- vdot2 (R305). -/
def vdot2Op (o : VR) : M Unit := do
  let g ← readGuard o.v o.m
  let a ← readV o.v o.a
  let b ← readV o.v o.b
  let dot (j : Nat) : Int :=
    let x (r : RegCell) (i : Nat) : Int := lane2int 16 (bits r.val.toNat (16 * i) 16)
    x a (2 * j) * x b (2 * j) + x a (2 * j + 1) * x b (2 * j + 1)
  if o.imm.getLsbD 0 then do
    let c ← readV o.v o.third
    writeLanes o.v o.d g 32 ((c.lanes 32).zipIdx.map (fun p => int2lane 32 (dot p.2 + p.1))) [a, b, c] 4
  else writeLanes o.v o.d g 32 ((List.range 64).map (fun j => int2lane 32 (dot j))) [a, b] 4

/-- vsel: m names the selector (R306). -/
def vselOp (o : VR) : M Unit := do
  let s ← readReg (vMasks o.v) o.m.toNat
  let a ← readV o.v o.a
  let b ← readV o.v o.b
  let e := VR.e o
  let ls := ((a.lanes e).zip (b.lanes e)).zipIdx.map (fun p => if s.val.getLsbD p.2 then p.1.1 else p.1.2)
  writeReg (vFile o.v) o.d.toNat (ofLanes e ls) [a, b, s] 2

/-! Floating-point lanes (R308 to R311) -/

/-- The lane format of T (R308). -/
def VR.fp (o : VR) : Fmt := if o.t = 0 then fp32 else bf16

/-- One rounding of an exact lane result (R308). -/
def fpLane2 (o : VR) (f : FpVal → FpVal → FpVal) : M Unit :=
  let k := VR.fp o
  vec2 o k.w (fun a b => fpRound k o.rm.toNat (f (fpDecode k a) (fpDecode k b))) 4

/-- fabs and fneg: the sign bit is cleared or inverted; a NaN is made canonical (R308). -/
def fpSignOp (o : VR) (f : Nat → Nat → Nat) : M Unit :=
  let k := VR.fp o
  vec1 o k.w (fun a => if fpDecode k a = .nan then k.nan else f (2 ^ (k.w - 1)) a) 2

/-- The width of a conversion format; code 0 stands for INT32 (R309). -/
def cvtWidth (code : Nat) : Nat := fmtBits code

/-- The value of a lane in a conversion format (R309). -/
def cvtValue (code x : Nat) : FpVal := if code = 0 then ofInt (lane2int 32 x) else elemValue code x 127

/-- A value in a conversion format (R203, R309). -/
def cvtCode (code rm : Nat) (v : FpVal) : Nat :=
  if code = 0 then int2lane 32 (fpToInt rm true 32 v) else elemCode code rm v

/-- fcvt (R309): the lanes at and above the count are zero whatever the guard. -/
def fcvtOp (o : VR) : M Unit := do
  let wi := cvtWidth o.fin.toNat
  let wo := cvtWidth o.fout.toNat
  let n := 2048 / max wi wo
  let g ← readGuard o.v o.m
  let a ← readV o.v o.a
  writeLanes o.v o.d g wo (((a.lanes wi).take n).map (fun x => cvtCode o.fout.toNat o.rm.toNat (cvtValue o.fin.toNat x))) [a] 4

/-- The output format of a function or a rounded record: 0 stands for `own` (R310 to R312). -/
def outFormat (code : BitVec 4) (own : Fmt) : Fmt := if code = 0 then own else fmtOf code.toNat

/-- The lanes of an interlocked function, each decided or free; the inactive lanes keep their value (R300, R310). -/
def fpFunc (o : VR) (srcs : List RegCell) (vals : List (Option Nat)) : M Unit := do
  let k := VR.fp o
  let out := outFormat o.fout k
  let g ← readGuard o.v o.m
  let key ← target (vFile o.v) o.d.toNat
  let old ← (match g with | none => pure RegCell.zero | some _ => readV o.v o.d)
  let n := 2048 / max k.w out.w
  let ls ← (vals.take n).zipIdx.mapM (fun p =>
    if g.active p.2 then (match p.1 with | some x => pure x | none => do return (← freeVal out.w).toNat)
    else pure (nth 0 (old.lanes out.w) p.2))
  let cells := srcs ++ (match g with | none => [] | some m => [m, old])
  setCore (fun c => { c with specials := c.specials ++ [{ id := c.order.nextId, cyc := c.cycle, key := key, cell := result (ofLanes out.w ls) cells }],
                             order := { c.order with nextId := c.order.nextId + 1 } })

/-- A function of one source (R310). -/
def fpFunc1 (o : VR) (f : Fmt → Nat → FpVal → Option Nat) : M Unit := do
  let k := VR.fp o
  let a ← readV o.v o.a
  fpFunc o [a] ((a.lanes k.w).map (fun x => f (outFormat o.fout k) o.rm.toNat (fpDecode k x)))

/-- fdiv (R310). -/
def fdivOp (o : VR) : M Unit := do
  let k := VR.fp o
  let a ← readV o.v o.a
  let b ← readV o.v o.b
  fpFunc o [a, b] ((a.lanes k.w).zipWith (fun x y => some (fpDiv (outFormat o.fout k) o.rm.toNat (fpDecode k x) (fpDecode k y)))
    (b.lanes k.w))

/-- fred (R311). -/
def fredOp (o : VR) : M Unit := do
  let g ← readGuard o.v o.m
  let a ← readV o.v o.a
  let r := Exact.ofList xsForm ((activeOf g (a.lanes 32)).map (fpDecode fp32))
  writeLane0 o.v o.d (r.round xsForm (outFormat o.fout fp32) o.rm.toNat) ([a] ++ g.cells) 8

/-! Exact records (R312, R313) -/

/-- The record of slot `j` of a register group: slots of `w` bytes (R205, R206). -/
def slotAt (xs : Bool) (x j : Nat) : Exact :=
  if xs then Exact.unpackXs (bits x (512 * j) 384) else Exact.unpackXp (bits x (1024 * j) 768)

/-- A register group from its eight records, the rest of each slot zero (R312). -/
def slotsOf (xs : Bool) (rs : List Exact) : Nat :=
  if xs then ofLanes 512 (rs.map Exact.packXs) else ofLanes 1024 (rs.map Exact.packXp)

/-- The form of a record kind. -/
def formOf (xs : Bool) : ExactForm := if xs then xsForm else xpForm
/-- Registers of a record group (R302). -/
def groupLen (xs : Bool) : Nat := if xs then 2 else 4

/-- Adds the active FP32 lanes 8j to 8j + 7 of b to slot j of a (R312, R313). -/
def recAddLanes (xs : Bool) (o : VR) : M Unit := do
  let g ← readGuard o.v o.m
  let (x, cs) ← readGroup o.v o.a (groupLen xs)
  let b ← readV o.v o.b
  let slot (j : Nat) : Exact :=
    (List.range 8).foldl (fun r i =>
      if g.active (8 * j + i) then r.add (formOf xs) (fpDecode fp32 (nth 0 (b.lanes 32) (8 * j + i))) else r) (slotAt xs x j)
  writeGroup o.v o.d (groupLen xs) (slotsOf xs ((List.range 8).map slot)) (cs ++ [b] ++ g.cells) 6

/-- Adds two record groups slot by slot (R312, R313). -/
def recJoin (xs : Bool) (o : VR) : M Unit := do
  let (x, cs) ← readGroup o.v o.a (groupLen xs)
  let (y, ds) ← readGroup o.v o.b (groupLen xs)
  writeGroup o.v o.d (groupLen xs)
    (slotsOf xs ((List.range 8).map (fun j => Exact.join (formOf xs) (slotAt xs x j) (slotAt xs y j)))) (cs ++ ds) 6

/-- Adds the eight slots of a into slot 0; the others are empty (R312, R313). -/
def recFold (xs : Bool) (o : VR) : M Unit := do
  let (x, cs) ← readGroup o.v o.a (groupLen xs)
  let all := (List.range 8).foldl (fun r j => Exact.join (formOf xs) r (slotAt xs x j)) Exact.empty
  writeGroup o.v o.d (groupLen xs) (slotsOf xs (all :: List.replicate 7 Exact.empty)) cs 6

/-- Rounds the eight slots of a into the low lanes of d (R208, R312). -/
def recRound (xs : Bool) (o : VR) : M Unit := do
  let (x, cs) ← readGroup o.v o.a (groupLen xs)
  let out := outFormat o.fout fp32
  writeReg (vFile o.v) o.d.toNat
    (ofLanes out.w ((List.range 8).map (fun j => (slotAt xs x j).round (formOf xs) out o.rm.toNat))) cs 4

/-- xpmul (R313). -/
def xpmulOp (o : VR) : M Unit := do
  let g ← readGuard o.v o.m
  let (x, cs) ← readGroup o.v o.d 4
  let a ← readV o.v o.a
  let b ← readV o.v o.b
  let slot (j : Nat) : Exact :=
    (List.range 16).foldl (fun r i =>
      let k := 16 * j + i
      if g.active k then r.add xpForm (fpMul (fpDecode bf16 (nth 0 (a.lanes 16) k)) (fpDecode bf16 (nth 0 (b.lanes 16) k))) else r)
      (slotAt false x j)
  writeGroup o.v o.d 4 (slotsOf false ((List.range 8).map slot)) (cs ++ [a, b] ++ g.cells) 8

/-! MX blocks (R314) -/

/-- vmxq (R204, R314). -/
def vmxqOp (o : VR) : M Unit := do
  let a ← readV o.v o.a
  let code := o.fout.toNat
  let vs := (a.lanes 32).map (fpDecode fp32)
  let q0 := quantize code (vs.take 32)
  let q1 := quantize code (vs.drop 32)
  writeReg (vFile o.v) o.d.toNat
    (ofLanes (fmtBits code) (q0.2 ++ q1.2) + q0.1 * 2 ^ (8 * 248) + q1.1 * 2 ^ (8 * 249)) [a] 6

/-- vmxd (R201, R314). -/
def vmxdOp (o : VR) : M Unit := do
  let g ← readGuard o.v o.m
  let a ← readV o.v o.a
  let code := o.fin.toNat
  let w := fmtBits code
  let x := a.val.toNat
  let ls := (List.range 64).map (fun j =>
    fpRound fp32 o.rm.toNat (elemValue code (bits x (w * j) w) (bits x (8 * (248 + j / 32)) 8)))
  writeLanes o.v o.d g 32 ls [a] 4

/-! Shuffles (R315, R316) -/

/-- The lane a selector byte takes from two registers (R315). -/
def shuffleLane (a b : List Nat) (sel : Nat) : Nat :=
  if bit sel 7 then 0 else nth 0 (if bit sel 6 then b else a) (sel % 64)

/-- An active pattern entry; undefined while a write of it is on its way (R316). -/
def readPattern (slot entry : Nat) : M (BitVec 512) := do
  let c ← core
  let key := patternKey slot (nth 0 c.patBank slot) entry
  if c.pflights.any (fun p => p.key == key) then freeVal 512 else return SMap.get 0 c.patterns key

/-- vshuf (R316). -/
def vshufOp (o : VR) : M Unit := do
  let g ← readGuard o.v o.m
  let a ← readV o.v o.a
  let b ← readV o.v o.b
  let p ← readPattern (vNum o.v) o.imm.toNat
  writeLanes o.v o.d g 32 ((lanesOf 8 64 p.toNat).map (shuffleLane (a.lanes 32) (b.lanes 32))) [a, b] 3

/-- vpld (R316). -/
def vpldOp (o : VR) : M Unit := do
  let a ← readV o.v o.a
  later (.pattern (vNum o.v) o.imm.toNat (a.val.truncate 512) 2)

/-- vbcst (R316). -/
def vbcstOp (o : VR) : M Unit := do
  let e := VR.e o
  let g ← readGuard o.v o.m
  let a ← readV o.v o.a
  writeLanes o.v o.d g e (List.replicate (2048 / e) (nth 0 (a.lanes e) o.imm.toNat)) [a] 2

/-! Masks (R317) -/

/-- A mask from two masks, all 256 bits (R317). -/
def mask2 (o : VR) (f : BitVec 256 → BitVec 256 → BitVec 256) : M Unit := do
  let a ← readReg (vMasks o.v) o.a.toNat
  let b ← readReg (vMasks o.v) o.b.toNat
  writeReg (vMasks o.v) o.d.toNat (f (a.val.truncate 256) (b.val.truncate 256)).toNat [a, b] 2

/-- mnot (R317). -/
def mnotOp (o : VR) : M Unit := do
  let a ← readReg (vMasks o.v) o.a.toNat
  writeReg (vMasks o.v) o.d.toNat (~~~ (a.val.truncate 256 : BitVec 256)).toNat [a] 2

/-- mpop (R317). -/
def mpopOp (o : VR) : M Unit := do
  let a ← readReg (vMasks o.v) o.a.toNat
  writeReg (vFile o.v) o.d.toNat ((List.range (2048 / VR.e o)).filter (fun j => a.val.getLsbD j)).length [a] 2

/-! One meaning per instruction -/

/-- Vadd (R303). -/
def execVadd (o : VR) (s : State) : Host.Outcome State Fault Refusal := finish (vec2 o (VR.e o) (fun a b => (a + b) % 2 ^ VR.e o) 2) s

/-- Vsub (R303). -/
def execVsub (o : VR) (s : State) : Host.Outcome State Fault Refusal := finish (vec2 o (VR.e o) (fun a b => int2lane (VR.e o) ((a : Int) - b)) 2) s

/-- Vmul (R303). -/
def execVmul (o : VR) (s : State) : Host.Outcome State Fault Refusal := finish (vec2 o (VR.e o) (fun a b => a * b % 2 ^ VR.e o) 4) s

/-- Vmulh (R303). -/
def execVmulh (o : VR) (s : State) : Host.Outcome State Fault Refusal := finish (vec2 o (VR.e o) (fun a b => int2lane (VR.e o) (laneVal o.unsig (VR.e o) a * laneVal o.unsig (VR.e o) b / 2 ^ VR.e o)) 4) s

/-- Vmad (R303). -/
def execVmad (o : VR) (s : State) : Host.Outcome State Fault Refusal := finish (vec3 o (VR.e o) (fun a b c => (a * b + c) % 2 ^ VR.e o) 4) s

/-- Vmin (R303). -/
def execVmin (o : VR) (s : State) : Host.Outcome State Fault Refusal := finish (vec2 o (VR.e o) (fun a b => pick2 false o.unsig (VR.e o) a b) 2) s

/-- Vmax (R303). -/
def execVmax (o : VR) (s : State) : Host.Outcome State Fault Refusal := finish (vec2 o (VR.e o) (fun a b => pick2 true o.unsig (VR.e o) a b) 2) s

/-- Vabs (R303). -/
def execVabs (o : VR) (s : State) : Host.Outcome State Fault Refusal := finish (vec1 o (VR.e o) (fun a => int2lane (VR.e o) (lane2int (VR.e o) a).natAbs) 2) s

/-- Vneg (R303). -/
def execVneg (o : VR) (s : State) : Host.Outcome State Fault Refusal := finish (vec1 o (VR.e o) (fun a => int2lane (VR.e o) (-(a : Int))) 2) s

/-- Vand (R303). -/
def execVand (o : VR) (s : State) : Host.Outcome State Fault Refusal := finish (vec2 o (VR.e o) (fun a b => a &&& b) 2) s

/-- Vor (R303). -/
def execVor (o : VR) (s : State) : Host.Outcome State Fault Refusal := finish (vec2 o (VR.e o) (fun a b => a ||| b) 2) s

/-- Vxor (R303). -/
def execVxor (o : VR) (s : State) : Host.Outcome State Fault Refusal := finish (vec2 o (VR.e o) (fun a b => a ^^^ b) 2) s

/-- Vshl (R303). -/
def execVshl (o : VR) (s : State) : Host.Outcome State Fault Refusal := finish (vec2 o (VR.e o) (fun a b => a * 2 ^ laneShift (VR.e o) b % 2 ^ VR.e o) 2) s

/-- Vshr (R303). -/
def execVshr (o : VR) (s : State) : Host.Outcome State Fault Refusal := finish (vec2 o (VR.e o) (fun a b => a / 2 ^ laneShift (VR.e o) b) 2) s

/-- Vsra (R303). -/
def execVsra (o : VR) (s : State) : Host.Outcome State Fault Refusal := finish (vec2 o (VR.e o) (fun a b => int2lane (VR.e o) (lane2int (VR.e o) a / 2 ^ laneShift (VR.e o) b)) 2) s

/-- Vadds (R304). -/
def execVadds (o : VR) (s : State) : Host.Outcome State Fault Refusal := finish (vec2 o (VR.e o) (fun a b => int2lane (VR.e o) (saturate (!o.unsig) (VR.e o) (laneVal o.unsig (VR.e o) a + laneVal o.unsig (VR.e o) b))) 3) s

/-- Vsubs (R304). -/
def execVsubs (o : VR) (s : State) : Host.Outcome State Fault Refusal := finish (vec2 o (VR.e o) (fun a b => int2lane (VR.e o) (saturate (!o.unsig) (VR.e o) (laneVal o.unsig (VR.e o) a - laneVal o.unsig (VR.e o) b))) 3) s

/-- Vqshr (R304). -/
def execVqshr (o : VR) (s : State) : Host.Outcome State Fault Refusal := finish (vecNarrow o (qshrLane o.unsig (VR.e o) (o.imm.toNat % 64))) s

/-- Vdot2 (R305). -/
def execVdot2 (o : VR) (s : State) : Host.Outcome State Fault Refusal := finish (vdot2Op o) s

/-- Vpack (R304). -/
def execVpack (o : VR) (s : State) : Host.Outcome State Fault Refusal := finish (vecNarrow o (fun x => x % 2 ^ (VR.e o / 2))) s

/-- Vunpk (R304). -/
def execVunpk (o : VR) (s : State) : Host.Outcome State Fault Refusal := finish (vunpkOp o) s

/-- Vsel (R306). -/
def execVsel (o : VR) (s : State) : Host.Outcome State Fault Refusal := finish (vselOp o) s

/-- VcmpEq (R306). -/
def execVcmpEq (o : VR) (s : State) : Host.Outcome State Fault Refusal := finish (vecCmp o (VR.e o) (IntCmp.eq.holds (VR.e o))) s

/-- VcmpNe (R306). -/
def execVcmpNe (o : VR) (s : State) : Host.Outcome State Fault Refusal := finish (vecCmp o (VR.e o) (IntCmp.ne.holds (VR.e o))) s

/-- VcmpLt (R306). -/
def execVcmpLt (o : VR) (s : State) : Host.Outcome State Fault Refusal := finish (vecCmp o (VR.e o) (IntCmp.lt.holds (VR.e o))) s

/-- VcmpLtu (R306). -/
def execVcmpLtu (o : VR) (s : State) : Host.Outcome State Fault Refusal := finish (vecCmp o (VR.e o) (IntCmp.ltu.holds (VR.e o))) s

/-- VcmpGe (R306). -/
def execVcmpGe (o : VR) (s : State) : Host.Outcome State Fault Refusal := finish (vecCmp o (VR.e o) (IntCmp.ge.holds (VR.e o))) s

/-- VcmpGeu (R306). -/
def execVcmpGeu (o : VR) (s : State) : Host.Outcome State Fault Refusal := finish (vecCmp o (VR.e o) (IntCmp.geu.holds (VR.e o))) s

/-- VredAdd (R307). -/
def execVredAdd (o : VR) (s : State) : Host.Outcome State Fault Refusal := finish (vecRed o (VR.e o) List.sum 6) s

/-- VredMin (R307). -/
def execVredMin (o : VR) (s : State) : Host.Outcome State Fault Refusal := finish (vecRed o (VR.e o) (fun ls => ls.foldl (pick2 false o.unsig (VR.e o)) (int2lane (VR.e o) (intMax (!o.unsig) (VR.e o)))) 6) s

/-- VredMax (R307). -/
def execVredMax (o : VR) (s : State) : Host.Outcome State Fault Refusal := finish (vecRed o (VR.e o) (fun ls => ls.foldl (pick2 true o.unsig (VR.e o)) (int2lane (VR.e o) (intMin (!o.unsig) (VR.e o)))) 6) s

/-- Fadd (R308). -/
def execFadd (o : VR) (s : State) : Host.Outcome State Fault Refusal := finish (fpLane2 o (fpAdd o.rm.toNat)) s

/-- Fsub (R308). -/
def execFsub (o : VR) (s : State) : Host.Outcome State Fault Refusal := finish (fpLane2 o (fun a b => fpAdd o.rm.toNat a (fpNeg b))) s

/-- Fmul (R308). -/
def execFmul (o : VR) (s : State) : Host.Outcome State Fault Refusal := finish (fpLane2 o fpMul) s

/-- Ffma (R308). -/
def execFfma (o : VR) (s : State) : Host.Outcome State Fault Refusal := finish (vec3 o (VR.fp o).w (fun a b c => fpRound (VR.fp o) o.rm.toNat (fpAdd o.rm.toNat (fpMul (fpDecode (VR.fp o) a) (fpDecode (VR.fp o) b)) (fpDecode (VR.fp o) c))) 4) s

/-- Fmin (R199, R308). -/
def execFmin (o : VR) (s : State) : Host.Outcome State Fault Refusal := finish (vec2 o (VR.fp o).w (fpMinMax (VR.fp o) false) 2) s

/-- Fmax (R199, R308). -/
def execFmax (o : VR) (s : State) : Host.Outcome State Fault Refusal := finish (vec2 o (VR.fp o).w (fpMinMax (VR.fp o) true) 2) s

/-- Fabs (R308). -/
def execFabs (o : VR) (s : State) : Host.Outcome State Fault Refusal := finish (fpSignOp o (fun s a => a % s)) s

/-- Fneg (R308). -/
def execFneg (o : VR) (s : State) : Host.Outcome State Fault Refusal := finish (fpSignOp o (fun s a => (a + s) % (2 * s))) s

/-- FcmpEq (R308). -/
def execFcmpEq (o : VR) (s : State) : Host.Outcome State Fault Refusal := finish (vecCmp o (VR.fp o).w (FpCmp.eq.holds (VR.fp o))) s

/-- FcmpNe (R308). -/
def execFcmpNe (o : VR) (s : State) : Host.Outcome State Fault Refusal := finish (vecCmp o (VR.fp o).w (FpCmp.ne.holds (VR.fp o))) s

/-- FcmpLt (R308). -/
def execFcmpLt (o : VR) (s : State) : Host.Outcome State Fault Refusal := finish (vecCmp o (VR.fp o).w (FpCmp.lt.holds (VR.fp o))) s

/-- FcmpLe (R308). -/
def execFcmpLe (o : VR) (s : State) : Host.Outcome State Fault Refusal := finish (vecCmp o (VR.fp o).w (FpCmp.le.holds (VR.fp o))) s

/-- FcmpUn (R308). -/
def execFcmpUn (o : VR) (s : State) : Host.Outcome State Fault Refusal := finish (vecCmp o (VR.fp o).w (FpCmp.un.holds (VR.fp o))) s

/-- Fcvt (R309). -/
def execFcvt (o : VR) (s : State) : Host.Outcome State Fault Refusal := finish (fcvtOp o) s

/-- Fdiv (R220, R310). -/
def execFdiv (o : VR) (s : State) : Host.Outcome State Fault Refusal := finish (fdivOp o) s

/-- Fred (R311). -/
def execFred (o : VR) (s : State) : Host.Outcome State Fault Refusal := finish (fredOp o) s

/-- Fexp (R220, R310). -/
def execFexp (o : VR) (s : State) : Host.Outcome State Fault Refusal := finish (fpFunc1 o Func.exp.eval) s

/-- Fexp2 (R220, R310). -/
def execFexp2 (o : VR) (s : State) : Host.Outcome State Fault Refusal := finish (fpFunc1 o Func.exp2.eval) s

/-- Flog (R220, R310). -/
def execFlog (o : VR) (s : State) : Host.Outcome State Fault Refusal := finish (fpFunc1 o Func.log.eval) s

/-- Flog2 (R220, R310). -/
def execFlog2 (o : VR) (s : State) : Host.Outcome State Fault Refusal := finish (fpFunc1 o Func.log2.eval) s

/-- Fsin (R220, R310). -/
def execFsin (o : VR) (s : State) : Host.Outcome State Fault Refusal := finish (fpFunc1 o Func.sin.eval) s

/-- Fcos (R220, R310). -/
def execFcos (o : VR) (s : State) : Host.Outcome State Fault Refusal := finish (fpFunc1 o Func.cos.eval) s

/-- Ftanh (R220, R310). -/
def execFtanh (o : VR) (s : State) : Host.Outcome State Fault Refusal := finish (fpFunc1 o Func.tanh.eval) s

/-- Fsigm (R220, R310). -/
def execFsigm (o : VR) (s : State) : Host.Outcome State Fault Refusal := finish (fpFunc1 o Func.sigm.eval) s

/-- Ferf (R220, R310). -/
def execFerf (o : VR) (s : State) : Host.Outcome State Fault Refusal := finish (fpFunc1 o Func.erf.eval) s

/-- Frcp (R220, R310). -/
def execFrcp (o : VR) (s : State) : Host.Outcome State Fault Refusal := finish (fpFunc1 o (fun k rm x => some (fpRcp k rm x))) s

/-- Frsq (R220, R310). -/
def execFrsq (o : VR) (s : State) : Host.Outcome State Fault Refusal := finish (fpFunc1 o (fun k rm x => some (fpRsq k rm x))) s

/-- Fsqrt (R220, R310). -/
def execFsqrt (o : VR) (s : State) : Host.Outcome State Fault Refusal := finish (fpFunc1 o (fun k rm x => some (fpSqrt k rm x))) s

/-- Xsadd (R312). -/
def execXsadd (o : VR) (s : State) : Host.Outcome State Fault Refusal := finish (recAddLanes true o) s

/-- Xsfold (R312). -/
def execXsfold (o : VR) (s : State) : Host.Outcome State Fault Refusal := finish (if o.imm = 0 then recJoin true o else recFold true o) s

/-- Xsround (R312). -/
def execXsround (o : VR) (s : State) : Host.Outcome State Fault Refusal := finish (recRound true o) s

/-- Xpmul (R313). -/
def execXpmul (o : VR) (s : State) : Host.Outcome State Fault Refusal := finish (xpmulOp o) s

/-- Xpadd (R313). -/
def execXpadd (o : VR) (s : State) : Host.Outcome State Fault Refusal := finish (if o.imm = 0 then recJoin false o else if o.imm = 1 then recAddLanes false o else recFold false o) s

/-- Xpround (R313). -/
def execXpround (o : VR) (s : State) : Host.Outcome State Fault Refusal := finish (recRound false o) s

/-- Vmxq (R314). -/
def execVmxq (o : VR) (s : State) : Host.Outcome State Fault Refusal := finish (vmxqOp o) s

/-- Vmxd (R314). -/
def execVmxd (o : VR) (s : State) : Host.Outcome State Fault Refusal := finish (vmxdOp o) s

/-- Vshuf (R316). -/
def execVshuf (o : VR) (s : State) : Host.Outcome State Fault Refusal := finish (vshufOp o) s

/-- Vpld (R316). -/
def execVpld (o : VR) (s : State) : Host.Outcome State Fault Refusal := finish (vpldOp o) s

/-- Vbcst (R316). -/
def execVbcst (o : VR) (s : State) : Host.Outcome State Fault Refusal := finish (vbcstOp o) s

/-- Mand (R317). -/
def execMand (o : VR) (s : State) : Host.Outcome State Fault Refusal := finish (mask2 o (fun a b => a &&& b)) s

/-- Mor (R317). -/
def execMor (o : VR) (s : State) : Host.Outcome State Fault Refusal := finish (mask2 o (fun a b => a ||| b)) s

/-- Mnot (R317). -/
def execMnot (o : VR) (s : State) : Host.Outcome State Fault Refusal := finish (mnotOp o) s

/-- Mpop (R317). -/
def execMpop (o : VR) (s : State) : Host.Outcome State Fault Refusal := finish (mpopOp o) s

/-- Vnop (R255). -/
def execVnop (_o : VN) (s : State) : Host.Outcome State Fault Refusal := finish (pure ()) s

/-- Vpsw (R316). -/
def execVpsw (o : VN) (s : State) : Host.Outcome State Fault Refusal := finish (later (.swapPatterns (vNum o.v))) s

end Sys2Proof.Machine
end

