-- ==== Sys2Proof/Machine/Banks.lean ====
section
/-!
DEFINITION. Elements of pantry banks by their format: areas, counts, scales, decoding and conversion (R145 to R149, R201, R204).
-/
namespace Sys2Proof.Machine

/-- The usable bytes of a bank at a rung (R147). -/
def usableBytes (rung : Nat) : Nat := if rung = 2 then 0x6000 else 0xC000

/-- Bytes of the element area (R147). -/
def elemArea (fmt u : Nat) : Nat := if isMx fmt then 11 * u / 12 else u

/-- Elements of a bank whose area, and scale where there is one, fit (R147). -/
def elemCount (fmt u : Nat) : Nat :=
  let n := elemArea fmt u * 8 / fmtBits fmt
  if isMx fmt then min n (32 * (u / 12)) else n

/-- The usable bytes of bank `b` of a core. -/
def State.usableAt (s : State) (coreN b : Nat) : Nat := usableBytes (s.rung coreN b)

/-- The address of the scale byte of element `i` of bank `b` (R147). -/
def State.scaleAddr (s : State) (coreN b fmt i : Nat) : Nat :=
  b * Config.bankBytes + elemArea fmt (s.usableAt coreN b) + i / 32

/-- The address of the byte that holds the first bit of element `i` of bank `b` (R147). -/
def elemAddr (b fmt i : Nat) : Nat := b * Config.bankBytes + i * fmtBits fmt / 8

/-- The bytes that hold elements `i` to `i + n - 1` of a bank: their address and number, and those of their scales in an MX format (R147). -/
def State.elemSpan (s : State) (coreN b fmt i n : Nat) : (Nat × Nat) × Option (Nat × Nat) :=
  let w := fmtBits fmt
  ((elemAddr b fmt i, (i * w % 8 + n * w + 7) / 8),
   if isMx fmt then some (s.scaleAddr coreN b fmt i, (i + n - 1) / 32 - i / 32 + 1) else none)

/-- `n` element codes from element `i` on, with the scale of each, from their bytes and those of their scales. -/
def elemsOf (fmt i n : Nat) (bs : List Byte) (scales : Option (List Byte)) : List (Nat × Nat) :=
  let w := fmtBits fmt
  let x := ofBytes bs / 2 ^ (i * w % 8)
  (List.range n).map (fun j => (bits x (w * j) w, match scales with | some q => (nth 0 q ((i + j) / 32 - i / 32)).toNat | none => 127))

/-- `n` element codes from element `i` of a bank on, with the scale of each. -/
def State.readElems (s : State) (self : Option Nat) (coreN b fmt i n : Nat) : List (Nat × Nat) × State :=
  let p := s.elemSpan coreN b fmt i n
  let r := s.pantryReadFor self coreN p.1.1 p.1.2
  match p.2 with
  | some k =>
    let q := r.2.pantryReadFor self coreN k.1 k.2
    (elemsOf fmt i n r.1 (some q.1), q.2)
  | none => (elemsOf fmt i n r.1 none, r.2)

/-- A vldp.dec lane: FP32, or INT32 for the integer formats (R320). -/
def decodedLane (fmt x e : Nat) : Nat :=
  if fmt = 9 then int2lane 32 (lane2int 16 x)
  else if fmt = 10 then int2lane 32 (lane2int 8 x)
  else fpRound fp32 0 (elemValue fmt x e)

end Sys2Proof.Machine
end

