-- ==== Sys2Proof/Machine/Matrix.lean ====
section
/-!
DEFINITION. The matrix engine and the accumulator store: descriptors, dense and sparse products, tile operations, rotation, drains, engine
status, and operations that lack their class (R116, R117, R140, R209 to R219, R235 to R237, R324 to R341).
-/
namespace Sys2Proof.Machine

/-! Descriptors (R116, R327, R328) -/

/-- A tile descriptor's fields (R116); `core` is a device core number, `mc` its MCID where MC is set (R141); `taint` and `dm` are its register's. -/
structure Desc where
  core : Nat
  fmt : Nat
  kn : Nat
  rows : Nat
  cols : Nat
  stride : Nat
  paddr : Nat
  spare : Bool
  mc : Option Nat
  taint : BitVec 16
  dm : Bool
  deriving DecidableEq, Repr

/-- The fields of a descriptor register in a core's cluster (R116). -/
def descOf (cluster : Nat) (g : Nat) : Desc :=
  { core := 8 * cluster + bits g 120 3, fmt := bits g 116 4, kn := bits g 111 3, rows := bits g 100 11, cols := bits g 89 11,
    stride := bits g 20 20, paddr := bits g 0 20, spare := bits g 114 2 == 0 && bits g 40 49 == 0,
    mc := if bit g 123 then some (bits g 124 4) else none, taint := 0, dm := false }

/-- Bytes of one row (R328). -/
def Desc.rowBytes (d : Desc) : Nat := (d.cols * fmtBits d.fmt + 7) / 8

/-- The address of row `r` (R327). -/
def Desc.row (d : Desc) (r : Nat) : Nat := d.paddr + r * d.stride

/-- What PADDR and STRIDE are multiples of: 8, and in MX formats one block's bytes too (R328). -/
def blockBytes (fmt : Nat) : Nat := match fmt with | 5 | 8 => 16 | 7 => 24 | 6 => 32 | _ => 8

/-- The checks of a descriptor at issue, but for FMT, ROWS, COLS and KN (R328). -/
def Desc.formOk (d : Desc) : Bool :=
  d.spare && decide (d.rowBytes ≤ d.stride) && d.paddr % blockBytes d.fmt == 0 && d.stride % blockBytes d.fmt == 0 &&
  (List.range d.rows).all (fun r => decide (d.row r % Config.bankBytes + d.rowBytes ≤ Config.bankBytes))

/-- The checks of one row at the owning core, by their rank in R416: the address, the bank's rung, its withheld part and its last element, its format
(R328, R144, R147, R149). -/
def State.rowCode (s : State) (d : Desc) (rank r : Nat) : Option Nat :=
  let a := d.row r
  let b := a / Config.bankBytes
  let u := s.usableAt d.core b
  match rank with
  | 0 => if Config.pantryBytes < a + d.rowBytes then some 0x15 else none
  | 1 => if s.rung d.core b = 3 then some 0x16 else none
  | 2 => if elemCount d.fmt u < a % Config.bankBytes * 8 / fmtBits d.fmt + d.cols then some 0x15 else none
  | _ => if s.fmtAt d.core b ≠ d.fmt then some 0x17 else none

/-- A deferred-precise pantry fault of an operand at address `a` of a core, with the taint of the register that names it (R225). -/
def State.operandFault (s : State) (d : Desc) (code owner a : Nat) : FaultInfo :=
  { s.pantryFault (s.core.faultOf code) code owner a 0 with kind := 1, slot := 3, taint := d.taint, dm := d.dm }

/-- The deferred-precise fault of an operand: the first condition of R416 that a row breaks, at its first such row (R328). -/
def State.descFault (s : State) (d : Desc) : Option FaultInfo :=
  (List.range 4).findSome? (fun rank => (List.range d.rows).findSome? (fun r => (s.rowCode d rank r).map (fun code =>
    s.operandFault d code d.core (d.row r))))

/-- The bank, the first element and the bytes of row `r` (R327, R147). -/
def State.rowSpan (s : State) (d : Desc) (r : Nat) : Nat × Nat × ((Nat × Nat) × Option (Nat × Nat)) :=
  let a := d.row r
  let b := a / Config.bankBytes
  let i := a % Config.bankBytes * 8 / fmtBits d.fmt
  (b, i, s.elemSpan d.core b d.fmt i d.cols)

/-- The ranges of pantry bytes of a matrix: each row's elements and scales (R327, R147). -/
def State.descSpans (s : State) (d : Desc) : List (Nat × Nat × Nat) :=
  (List.range d.rows).flatMap (fun r =>
    let p := (s.rowSpan d r).2.2
    (d.core, p.1.1, p.1.1 + p.1.2) :: p.2.toList.map (fun k => (d.core, k.1, k.1 + k.2)))

/-- A matrix read by rows, each element with its scale byte (R327). -/
def State.readMatrix (s : State) (d : Desc) : List (List (Nat × Nat)) × State :=
  (List.range d.rows).foldl (fun acc r =>
    let p := acc.2.rowSpan d r
    let x := acc.2.readElems (some s.core.id) d.core p.1 d.fmt p.2.1 d.cols
    (acc.1 ++ [x.1], x.2)) ([], s)

/-! Multicast (R141) -/

/-- The multicast read that the core in focus joins: of its gang, with the same MCID, CORE and PADDR, at most 64 cycles apart (R141). -/
def State.joinable (s : State) (d : Desc) (mcid : Nat) : Option Multicast :=
  let t := s.core.task
  s.dist.merged.find? (fun m => !t.root && m.launch == t.launch && m.gang == t.gang && m.mcid == mcid && m.core == d.core && m.paddr == d.paddr &&
    decide (s.core.since ≤ m.since + 64) && decide (m.since ≤ s.core.since + 64))

/-- Bytes from `a` on of a read that others share: those at hand, and the rest as the pantry holds them (R141). -/
def State.sharedBytes (s : State) (d : Desc) (got : List (Nat × Byte)) (a n : Nat) : List Byte × State :=
  let r := s.pantryReadFor (some s.core.id) d.core a n
  ((List.range n).map (fun i => match got.find? (fun p => p.1 == a + i) with | some p => p.2 | none => nth 0 r.1 i), r.2)

/-- A matrix of a multicast read: one read gives all its members the same bytes (R141). -/
def State.readShared (s : State) (d : Desc) (mcid : Nat) : List (List (Nat × Nat)) × State :=
  let t := s.core.task
  let first : Multicast := match s.joinable d mcid with
    | some m => m
    | none => { launch := t.launch, gang := t.gang, mcid := mcid, core := d.core, paddr := d.paddr, since := s.core.since, bytes := [] }
  let addrs (a : Nat) (bs : List Byte) : List (Nat × Byte) := bs.zipIdx.map (fun p => (a + p.2, p.1))
  let r := (List.range d.rows).foldl (fun (acc : (List (List (Nat × Nat)) × List (Nat × Byte)) × State) r =>
    let p := acc.2.rowSpan d r
    let x := acc.2.sharedBytes d first.bytes p.2.2.1.1 p.2.2.1.2
    match p.2.2.2 with
    | some k =>
      let q := x.2.sharedBytes d first.bytes k.1 k.2
      ((acc.1.1 ++ [elemsOf d.fmt p.2.1 d.cols x.1 (some q.1)], acc.1.2 ++ addrs p.2.2.1.1 x.1 ++ addrs k.1 q.1), q.2)
    | none => ((acc.1.1 ++ [elemsOf d.fmt p.2.1 d.cols x.1 none], acc.1.2 ++ addrs p.2.2.1.1 x.1), x.2)) (([], first.bytes), s)
  let same (m : Multicast) : Bool := m.launch == t.launch && m.gang == t.gang && m.mcid == mcid && m.core == d.core && m.paddr == d.paddr
  let kept : Multicast := { first with bytes := r.1.2 }
  (r.1.1, if t.root then r.2
    else { r.2 with dist := { r.2.dist with merged := r.2.dist.merged.filter (fun m => !same m) ++ [kept] } })

/-- Element (r, c) of a matrix that was read. -/
def elemAt (m : List (List (Nat × Nat))) (r c : Nat) : Nat × Nat := nth (0, 127) (nth [] m r) c

/-- The bytes that an operand moves over the cluster network (R122). -/
def Desc.remoteBytes (d : Desc) (self : Nat) : Nat :=
  if d.core = self then 0 else d.rows * (d.rowBytes + (if isMx d.fmt then d.cols / 32 else 0))

/-! Tiles (R117, R325) -/

/-- Word (i, j) of a tile. -/
def tileWord (t : BitVec 32768) (i j : Nat) : Nat := (t.toNat / 2 ^ (32 * (32 * i + j))) % 2 ^ 32

/-- A tile from its words. -/
def tileOf (f : Nat → Nat → Nat) : BitVec 32768 :=
  BitVec.ofNat 32768 (ofLanes 32 ((List.range 1024).map (fun k => f (k / 32) (k % 32))))

/-- A free tile. -/
def freeTile : M (BitVec 32768) := do
  let vs ← (List.range 16).mapM (fun _ => freeVal 2048)
  return BitVec.ofNat 32768 (ofLanes 2048 (vs.map (fun v => v.toNat)))

/-- A tile that a steered or emulated operation has as destination, from the cycle after its issue on (R121, R325). -/
def Core.tilePending (c : Core) (z : Nat) : Bool :=
  c.steered.any (fun x => x.names.contains z && x.cyc != c.cycle) ||
  (match c.emul with | some e => decide (e.z ≤ z) && decide (z < e.z + e.n) | none => false) ||
  (match c.serving with | some e => decide (e.z ≤ z) && decide (z < e.z + e.n) | none => false)

/-- A tile as an M-slot operation reads it: rows that an xmov.vz has not landed in are undefined (R120, R325). -/
def readTile (z : Nat) : M (BitVec 32768) := do
  let c ← core
  if c.tilePending z then stall
  let hs := (c.tflights.filter (fun x => x.z == z)).filterMap (fun x => x.row)
  hs.foldlM (fun t h => do return setRows t h (← freeVal 2048)) (c.tileAt z)

/-- An M-slot operation waits for a pending destination tile (R121, R325). -/
def awaitTile (z : Nat) : M Unit := do if (← core).tilePending z then stall

/-- When an M-slot operation writes a tile: of its result and an xmov.vz not yet landed, either may remain (R120). -/
def claimTile (z : Nat) : M Unit := do
  let c ← core
  if c.tflights.any (fun x => x.z == z && x.row.isSome) then
    if (← chooseOf 2) = 1 then setCore (fun c => { c with tflights := c.tflights.filter (fun x => x.z != z || x.row.isNone) })

/-! Issue (R122, R325) and missing classes (R235, R236, R237, R341) -/

/-- Occupies the engine for `o` cycles, after the occupancy of the operation before (R122, R325). -/
def occupy (o : Nat) : M Unit := do
  let c ← core
  if c.cycle < c.mFree then stall
  setCore (fun c => { c with mFree := c.cycle + o })

/-- What an operation leaves: tiles, pantry bytes by core and address, or its deferred-precise fault; and what it is made from: ranges of pantry bytes
(core, first, end) and tiles. -/
structure MResult where
  tiles : List (Nat × BitVec 32768)
  bytes : List (Nat × Nat × List Byte)
  fault : Option FaultInfo
  spans : List (Nat × Nat × Nat)
  source : List Nat
  deriving DecidableEq, Repr

/-- A result that is a fault. -/
def MResult.failed (f : FaultInfo) : MResult := { tiles := [], bytes := [], fault := some f, spans := [], source := [] }

/-- The core with the reads of an operation open until a cycle, or until it is done, for what its result stands in: its own of `spans`, and those of which
the tiles of `source` are made. Tiles that it writes are made of nothing older (R193, R325, log 13). -/
def Core.opens (c : Core) (spans : List (Nat × Nat × Nat)) (source : List Nat) (until_ : Option Nat) (targets : List ReadFor) : Core :=
  let old := c.reads.filter (fun r => source.any (fun z => r.target == .tile z) && r.open_ c.cycle)
  let own : List OpenRead := if spans.isEmpty then [] else [{ spans := spans, until_ := until_, target := .tile 0 }]
  { c with reads := c.reads.filter (fun r => !targets.contains r.target) ++
      targets.flatMap (fun t => (own ++ old).map (fun r => { r with target := t })) }

/-- What a local result stands in. -/
def MResult.targets (r : MResult) : List ReadFor :=
  r.tiles.map (fun t => ReadFor.tile t.1) ++
  (if r.bytes.isEmpty then [] else [.bytes (r.bytes.map (fun b => (b.1, b.2.1, b.2.1 + b.2.2.length)))])

/-- The issuing engine's bitmap (R232). -/
def State.bitmap (s : State) (coreN : Nat) : BitVec 16 := SMap.get 0x003F s.ladders.engines coreN

/-- Where an operation is performed. -/
inductive Place where
  | here
  | steer (engine : Nat)
  | emulate
  deriving DecidableEq, Repr

/-- The first able engine after the cluster's pointer (R236). -/
def State.ableEngine (s : State) (need : BitVec 16) : Option Nat :=
  let k := s.core.cluster
  let p := nth 7 s.dist.pointers k
  ((List.range 8).map (fun i => 8 * k + (p + 1 + i) % 8)).find? (fun n => n != s.core.id && s.bitmap n &&& need == need)

/-- An operation that may not go to the issuing engine is sent to another one (R235, R236): that engine. -/
def State.steersTo (s : State) (need : BitVec 16) : Option Nat :=
  let c := s.core
  let mode := (c.ctl 9).toNat
  if s.bitmap c.id &&& need = need ∨ c.inHandler = true ∨ (mode ≠ 1 ∧ mode ≠ 3) then none else s.ableEngine need

/-- The dispatcher has room for an operation that it would take: at most four are outstanding (R236). -/
def awaitDispatcher (need : BitVec 16) : M Unit := do
  let s ← get
  if (s.steersTo need).isSome && decide (4 ≤ s.core.steered.length) then stall

/-- What an operation waits for before it issues and its checks are made: a fence before its pantry accesses (R182), pending tiles that it names, and the
occupancy of the M-slot operation before it (R119, R121, R122, R324, R325). -/
def awaitEngine (tiles : List Nat) : M Unit := do
  awaitFence
  tiles.forM awaitTile
  let c ← core
  if c.cycle < c.mFree then stall

/-- A CAP_MISS or CAP_RETIRED fault of the operation in issue (R225, R235). -/
def State.capMiss (s : State) (code : Nat) (need : BitVec 16) (toS : Bool) : FaultInfo :=
  { s.core.faultOf code with
      d0 := (need &&& ~~~ (s.bitmap s.core.id)).zeroExtend 64, d1 := (s.bitmap s.core.id).zeroExtend 64,
      d2 := s.core.cur.syl.zeroExtend 64, toS := toS }

/-- The resident emulation library stands in the job's capability page (R235). -/
def State.hasLibrary (s : State) : Bool := s.libraryOf s.core.task.fn

/-- Where an operation that needs classes is performed (R133, R235, R341). -/
def placeOf (need : BitVec 16) : M Place := do
  let s ← get
  let c := s.core
  if s.bitmap c.id &&& need = need then return .here
  if c.handler ≠ .main ∨ c.sup then throw (.fault (s.capMiss 0x20 need true))
  let emulated : M Place := if s.hasLibrary then pure .emulate else throw (.fault (s.capMiss 0x20 need true))
  match (c.ctl 9).toNat, s.ableEngine need with
  | 1, some n => return .steer n
  | 1, none => throw (.fault (s.capMiss 0x21 need false))
  | 2, _ => emulated
  | 3, some n => return .steer n
  | 3, none => emulated
  | _, _ => throw (.fault (s.capMiss 0x20 need false))

/-- Leaves a local result: tiles and their bounds, pantry bytes undefined until theirs, or the fault due at the boundary (R193, R325). -/
def leaveResult (r : MResult) (lat : Nat) : M Unit := do
  match r.fault with
  | some f => setCore (fun c => { c with deferred := c.deferred ++ [f] })
  | none =>
    r.tiles.forM (fun t => do claimTile t.1; later (.tile t.1 t.2 lat))
    setCore (fun c => c.opens r.spans r.source (some (c.cycle + lat)) r.targets)
    modify (fun s => r.bytes.foldl (fun s b =>
      let s := s.pantryWriteFor (some s.core.id) b.1 b.2.1 b.2.2
      { s with core := { s.core with
          drains := s.core.drains ++ [{ owner := b.1, lo := b.2.1, hi := b.2.1 + b.2.2.length, ready := s.core.cycle + lat,
                                          fenced := false }] } }) s)

/-- Sends an operation through the cluster's dispatcher, after the occupancy of the M-slot operation before it (R236, R325). Its tiles `names` are pending until it is done; its pantry bytes are there for the core's own M-slot operations and undefined to every other
reader until then (R325, R341). -/
def steerResult (engine o : Nat) (names : List Nat) (res : M MResult) : M Unit := do
  occupy 1
  let r ← res
  modify (fun s =>
    let s := { s with dist := { s.dist with pointers := s.dist.pointers.set (engine / 8) (engine % 8) } }
    let s := s.modCore engine (fun e => { e with mFree := max e.mFree e.cycle + o })
    let s := r.bytes.foldl (fun s b => s.pantryWriteFor (some s.core.id) b.1 b.2.1 b.2.2) s
    { s with core := { s.core.opens r.spans r.source none [.steered s.core.order.nextId] with
        steered := s.core.steered ++ [{ id := s.core.order.nextId, cyc := s.core.cycle, names := names, fenced := false, tiles := r.tiles,
                                        bytes := r.bytes, fault := r.fault.map (fun f => { f with steered := true }) }],
        order := { s.core.order with nextId := s.core.order.nextId + 1 } } })

/-- An engine operation that has waited and passed its checks: its classes, destination tiles, bytes over the cluster network, occupancy and latency above
it, and its result (R122, R235, R324, R325, R341). Where it is emulated, `outs` are the pantry bytes it writes. -/
def engineOp (need : BitVec 16) (z n remote o extra : Nat) (outs : List (Nat × Nat × Nat)) (res : M MResult) : M Unit := do
  let place ← placeOf need
  let far := if remote = 0 then 0 else 16
  let occ := max o ((remote + 511) / 512)
  match place with
  | .here =>
    occupy occ
    leaveResult (← res) ((if extra = 0 then occ + 8 else extra) + far)
  | .steer e => steerResult e occ ((List.range n).map (fun i => z + i)) res
  | .emulate =>
    let s ← get
    let e : EmulInfo :=
      { syl := s.core.cur.syl, ext := s.core.cur.ext, pc := s.core.pc, cyc := s.core.cycle, missing := (need &&& ~~~ (s.bitmap s.core.id)).toNat,
        bitmap := (s.bitmap s.core.id).toNat, z := z, n := n, outs := outs, ptaint := 0, pdm := false }
    occupy 1
    later (.emulate e)

/-- Reads descriptor register `g` (R114, R326). -/
def readDesc (g : BitVec 4) : M Desc := do
  let r ← readReg .g g.toNat
  return { descOf (← core).cluster (r.val.toNat % 2 ^ 128) with taint := r.taint, dm := r.dm }

/-- The check of a descriptor at issue: its form and the formats, rows and columns its use requires (R328). -/
def checkDesc (d : Desc) (fmts : List Nat) (rows cols : Nat) : M Unit :=
  checkReg { val := 0, taint := d.taint, dm := d.dm } (d.formOk && fmts.contains d.fmt && d.rows == rows && d.cols == cols)

/-- Reads an operand, or says why it cannot be read. -/
def operand (d : Desc) : M (Except FaultInfo (List (List (Nat × Nat)))) := do
  let s ← get
  match s.descFault d with
  | some f => return .error f
  | none =>
    let x := match d.mc with | some m => s.readShared d m | none => s.readMatrix d
    set x.2
    return .ok x.1

/-! Products (R209 to R216, R329 to R332) -/

/-- The exact sum of terms, rounded by R208 (R209, R211): a record wide enough for any operands. -/
def exactSum (vs : List FpVal) : FpVal :=
  if vs.any (fun v => v == .nan) || (vs.any (fun v => v == .inf false) && vs.any (fun v => v == .inf true)) then .nan
  else if vs.any (fun v => v == .inf false) then .inf false
  else if vs.any (fun v => v == .inf true) then .inf true
  else
    let low := vs.foldl (fun (a : Int) v => match v with | .fin _ m e => if m = 0 then a else min a e | _ => a) 0
    let sum := vs.foldl (fun (a : Int) v => match v with | .fin n m e => if m = 0 then a else a + atScale n m e low | _ => a) 0
    ofScaled sum low (vs.all (fun v => match v with | .fin true 0 _ => true | _ => false) && !vs.isEmpty)

/-- What a dense or sparse form multiplies: the formats of each operand, integer signs, its classes and its cycles per 256 of K. -/
structure Product where
  fmtA : List Nat
  fmtB : List Nat
  int : Bool
  unsA : Bool
  unsB : Bool
  need : BitVec 16
  kmax : Nat
  rate : Nat
  deriving DecidableEq, Repr

/-- mma.bf16 (R329). -/
def prodBf16 : Product := { fmtA := [2], fmtB := [2], int := false, unsA := false, unsB := false, need := 4, kmax := 1, rate := 32 }
/-- mma.f8: the p bits choose E5M2 (R329). -/
def prodF8 (p : BitVec 2) : Product :=
  { fmtA := [if p.getLsbD 1 then 4 else 3], fmtB := [if p.getLsbD 0 then 4 else 3], int := false, unsA := false, unsB := false,
    need := 2, kmax := 2, rate := 8 }
/-- mma.e2m1 (R329). -/
def prodE2m1 : Product := { fmtA := [5], fmtB := [5], int := false, unsA := false, unsB := false, need := 1, kmax := 4, rate := 2 }
/-- mma.i8 (R329). -/
def prodI8 : Product := { fmtA := [6, 10], fmtB := [6, 10], int := true, unsA := false, unsB := false, need := 4, kmax := 1, rate := 32 }
/-- mma.i6 (R329). -/
def prodI6 : Product := { fmtA := [7], fmtB := [7], int := true, unsA := false, unsB := false, need := 4, kmax := 1, rate := 32 }
/-- mma.i4: the p bits choose unsigned elements (R329). -/
def prodI4 (p : BitVec 2) : Product :=
  { fmtA := [8], fmtB := [8], int := true, unsA := p.getLsbD 1, unsB := p.getLsbD 0, need := 2, kmax := 2, rate := 8 }

/-- One chunk of a floating-point product: the accumulator and the terms, rounded once (R211). -/
def fpChunk (acc : Nat) (terms : List FpVal) : Nat := fpRound fp32 0 (exactSum (fpDecode fp32 acc :: terms))

/-- One chunk of an integer product, modulo 2^32 (R213). -/
def intChunk (acc : Nat) (terms : List Int) : Nat := int2lane 32 (terms.foldl (fun a x => a + x) (acc : Int))

/-- Word (i, j) after a product of `n` chunks; `pairs i j c` lists the element pairs of chunk `c` with their formats' codes (R211 to R216). -/
def productWord (k : Product) (fa fb n acc : Nat) (pairs : Nat → List ((Nat × Nat) × (Nat × Nat))) : Nat :=
  (List.range n).foldl (fun acc c =>
    if k.int then intChunk acc ((pairs c).map (fun p => laneVal k.unsA (fmtBits fa) p.1.1 * laneVal k.unsB (fmtBits fb) p.2.1))
    else fpChunk acc ((pairs c).map (fun p => fpMul (elemValue fa p.1.1 p.1.2) (elemValue fb p.2.1 p.2.2)))) acc

/-- KN of a product's descriptors: within the form's range, and equal (R328). -/
def checkKn (k : Product) (a b : Desc) : M Unit := do
  checkReg { val := 0, taint := a.taint, dm := a.dm } (decide (1 ≤ a.kn) && decide (a.kn ≤ k.kmax))
  checkReg { val := 0, taint := b.taint, dm := b.dm } (b.kn == a.kn)

/-- What a dense product leaves (R209 to R214, R330). -/
def mmaResult (k : Product) (o : MA) (a b : Desc) : M MResult := do
  let t ← readTile o.z.toNat
  match ← operand a, ← operand b with
  | .ok x, .ok y =>
    let word (i j : Nat) : Nat := productWord k a.fmt b.fmt a.kn (tileWord t i j) (fun c =>
      (List.range 256).map (fun q => (elemAt x i (256 * c + q), elemAt y j (256 * c + q))))
    let s ← get
    return { tiles := [(o.z.toNat, tileOf word)], bytes := [], fault := none, spans := s.descSpans a ++ s.descSpans b, source := [o.z.toNat] }
  | .error f, _ | _, .error f => return MResult.failed f

/-- A dense product (R329, R330). -/
def mmaOp (k : Product) (o : MA) : M Unit := do
  awaitEngine [o.z.toNat]
  awaitDispatcher k.need
  let a ← readDesc o.ga
  let b ← readDesc o.gb
  let n := a.kn
  checkKn k a b
  checkDesc a k.fmtA 32 (256 * n)
  checkDesc b k.fmtB 32 (256 * n)
  let self := (← core).id
  engineOp k.need o.z.toNat 1 (a.remoteBytes self + b.remoteBytes self) (k.rate * n) 0 [] (mmaResult k o a b)

/-- The positions a metadata code keeps; none for a code that R215 does not list. -/
def sparsePair (code : Nat) : Option (Nat × Nat) :=
  match code with
  | 0x4 => some (0, 1)
  | 0x8 => some (0, 2)
  | 0xC => some (0, 3)
  | 0x9 => some (1, 2)
  | 0xD => some (1, 3)
  | 0xE => some (2, 3)
  | _ => none

/-- The fault of a metadata area (R332). -/
def State.metaFault (s : State) (owner a len : Nat) : Option FaultInfo :=
  let b := a / Config.bankBytes
  let code : Option Nat :=
    if Config.pantryBytes < a + len then some 0x15
    else if s.rung owner b = 3 then some 0x16
    else if s.usableAt owner b < a % Config.bankBytes + len then some 0x15
    else none
  code.map (fun code => { s.pantryFault (s.core.faultOf code) code owner a 0 with kind := 1, slot := 3 })

/-- SPARSE_META at a group index (R215, R225). -/
def State.sparseFault (s : State) (idx code : Nat) : FaultInfo :=
  { s.core.faultOf 0x22 with kind := 1, slot := 3, d0 := BitVec.ofNat 64 idx, d1 := BitVec.ofNat 64 code }

/-- What a sparse product leaves (R215, R331, R332). -/
def mmasResult (k : Product) (o : MAS) (a b : Desc) : M MResult := do
  let n := a.kn
  let self := (← core).id
  let owner := 8 * (← core).cluster + o.mc.toNat
  let t ← readTile o.z.toNat
  match ← operand a, ← operand b with
  | .ok x, .ok y =>
    let s ← get
    match s.metaFault owner o.md.toNat (1024 * n) with
    | some f => return MResult.failed f
    | none =>
      let r := s.pantryReadFor (some self) owner o.md.toNat (1024 * n)
      set r.2
      let codeAt (i g : Nat) : Nat := bits (nth 0 r.1 (32 * n * i + g / 2)).toNat (4 * (g % 2)) 4
      match (List.range (2048 * n)).find? (fun q => (sparsePair (codeAt (q / (64 * n)) (q % (64 * n)))).isNone) with
      | some q => return MResult.failed (s.sparseFault q (codeAt (q / (64 * n)) (q % (64 * n))))
      | none =>
        let word (i j : Nat) : Nat := productWord k a.fmt b.fmt n (tileWord t i j) (fun c =>
          (List.range 128).map (fun h =>
            let g := 64 * c + h / 2
            let p := (sparsePair (codeAt i g)).getD (0, 1)
            (elemAt x i (128 * c + h), elemAt y j (4 * g + (if h % 2 = 0 then p.1 else p.2)))))
        return { tiles := [(o.z.toNat, tileOf word)], bytes := [], fault := none, source := [o.z.toNat],
                 spans := s.descSpans a ++ s.descSpans b ++ [(owner, o.md.toNat, o.md.toNat + 1024 * n)] }
  | .error f, _ | _, .error f => return MResult.failed f

/-- A sparse product (R331, R332). -/
def mmasOp (k : Product) (o : MAS) : M Unit := do
  awaitEngine [o.z.toNat]
  awaitDispatcher (k.need ||| 8)
  let a ← readDesc o.ga
  let b ← readDesc o.gb
  let n := a.kn
  checkKn k a b
  checkDesc a k.fmtA 32 (128 * n)
  checkDesc b k.fmtB 32 (256 * n)
  check (o.md.toNat % 64 == 0)
  let self := (← core).id
  let owner := 8 * (← core).cluster + o.mc.toNat
  let remote := a.remoteBytes self + b.remoteBytes self + (if owner = self then 0 else 1024 * n)
  engineOp (k.need ||| 8) o.z.toNat 1 remote (k.rate * n / 2) 0 [] (mmasResult k o a b)

/-! Tile operations (R333, R334) -/

/-- A tile from the tiles of `source`, performed at every rung (R333). -/
def tileOp (z : BitVec 10) (source : List Nat) (lat : Nat) (val : M (BitVec 32768)) : M Unit := do
  awaitTile z.toNat
  occupy 1
  let v ← val
  claimTile z.toNat
  setCore (fun c => c.opens [] source none [.tile z.toNat])
  later (.tile z.toNat v lat)

/-- madd: FP32 words added, one rounding each (R333). -/
def maddVal (o : MT) : M (BitVec 32768) := do
  let x ← readTile o.z.toNat
  let y ← readTile o.y.toNat
  return tileOf (fun i j => fpRound fp32 0 (fpAdd 0 (fpDecode fp32 (tileWord x i j)) (fpDecode fp32 (tileWord y i j))))

/-- mtrn (R333). -/
def mtrnVal (o : MT) : M (BitVec 32768) := do
  let y ← readTile o.y.toNat
  return tileOf (fun i j => tileWord y j i)

/-- mload (R334). -/
def mloadOp (o : MLD) : M Unit := do
  awaitEngine [o.z.toNat]
  let g ← readDesc o.g
  checkDesc g [0, 1, 2, 3, 4, 9, 10] 32 32
  engineOp 0 o.z.toNat 1 (g.remoteBytes (← core).id) 1 20 [] (do
    match ← operand g with
    | .error f => return MResult.failed f
    | .ok x =>
      let word (i j : Nat) : Nat := if g.fmt = 0 then (elemAt x i j).1 else decodedLane g.fmt (elemAt x i j).1 127
      return { tiles := [(o.z.toNat, tileOf word)], bytes := [], fault := none, spans := (← get).descSpans g, source := [] })

/-! Rotation (R217, R335) -/

/-- The sign of the Sylvester matrix (R217). -/
def hadamardNeg (i j : Nat) : Bool := (List.range 8).foldl (fun b k => b != (bit i k && bit j k)) false

/-- The size of a rotation (R335). -/
def rotSize (p : BitVec 2) : Nat := match p.toNat with | 0 => 16 | 1 => 64 | _ => 256

/-- What a rotation leaves (R217, R335). -/
def mrotResult (o : MG) (g : Desc) : M MResult := do
  let n := rotSize o.p
  match ← operand g with
  | .error f => return MResult.failed f
  | .ok x =>
    let val (i c : Nat) : Nat :=
      fpRound fp32 0 (exactSum ((List.range n).map (fun m =>
        let e := elemAt x i (c / n * n + m)
        let v := elemValue g.fmt e.1 e.2
        if hadamardNeg (c % n) m then fpNeg v else v)))
    return { tiles := (List.range (rotTiles o.p)).map (fun q => (o.z.toNat + q, tileOf (fun i j => val i (32 * q + j)))), bytes := [],
             fault := none, spans := (← get).descSpans g, source := [] }

/-- mrot (R335). -/
def mrotOp (o : MG) : M Unit := do
  awaitEngine ((List.range (rotTiles o.p)).map (fun i => o.z.toNat + i))
  awaitDispatcher 16
  let g ← readDesc o.g
  let n := rotSize o.p
  checkDesc g [1, 2, 3, 4, 5, 6, 7, 8] 32 (max 32 n)
  engineOp 16 o.z.toNat (rotTiles o.p) (g.remoteBytes (← core).id) (n / 8) 0 [] (mrotResult o g)

/-! Drains (R218, R219, R336 to R338) -/

/-- The bytes that 32 rows of 32 values write in a descriptor's format: element rows, and the scales of MX blocks (R204, R336). -/
def State.drainBytes (s : State) (d : Desc) (rm : Nat) (f : Nat → Nat → FpVal) : List (Nat × Nat × List Byte) :=
  (List.range 32).flatMap (fun i =>
    let a := d.row i
    let vs := (List.range 32).map (f i)
    if isMx d.fmt then
      let q := quantize d.fmt vs
      let b := a / Config.bankBytes
      [(d.core, a, toBytes d.rowBytes (ofLanes (fmtBits d.fmt) q.2)),
       (d.core, s.scaleAddr d.core b d.fmt (a % Config.bankBytes * 8 / fmtBits d.fmt), [BitVec.ofNat 8 q.1])]
    else [(d.core, a, toBytes d.rowBytes (ofLanes (fmtBits d.fmt) (vs.map (elemCode d.fmt rm))))])

/-- Where a drain to a descriptor writes: core, first address and end of each run of bytes (R336). -/
def State.drainRanges (s : State) (d : Desc) : List (Nat × Nat × Nat) :=
  (s.drainBytes d 0 (fun _ _ => .nan)).map (fun b => (b.1, b.2.1, b.2.1 + b.2.2.length))

/-- The words of a tile as raw rows (R336, FMT 0). -/
def rawRows (d : Desc) (t : BitVec 32768) : List (Nat × Nat × List Byte) :=
  (List.range 32).map (fun i => (d.core, d.row i, toBytes 128 (ofLanes 32 ((List.range 32).map (tileWord t i)))))

/-- mdrain (R336). -/
def mdrainOp (o : MG) : M Unit := do
  awaitEngine [o.z.toNat]
  let g ← readDesc o.g
  checkDesc g (List.range 11) 32 32
  checkReg { val := 0, taint := g.taint, dm := g.dm } (o.p == 0 || !(isMx g.fmt || g.fmt == 0))
  engineOp 0 0 0 (g.remoteBytes (← core).id) 1 20 [] (do
    let t ← readTile o.z.toNat
    let s ← get
    match s.descFault g with
    | some f => return MResult.failed f
    | none =>
      return { tiles := [], fault := none, spans := [], source := [o.z.toNat],
               bytes := if g.fmt = 0 then rawRows g t else s.drainBytes g o.p.toNat (fun i j => fpDecode fp32 (tileWord t i j)) })

/-- A round of GCH-4 (R219). -/
def gchRound (xk : Word × Word) : Word × Word :=
  let x := (xk.1 ^^^ xk.2) * 0x9E3779B97F4A7C15
  (x ^^^ (x >>> 29), xk.2.rotateLeft 17 + 0x6A09E667F3BCC909)

/-- keep(i, j) for a global row and column (R219). -/
def gchKeep (seed layer : Word) (row col : BitVec 32) (t : Nat) : Bool :=
  let x := gchRound (gchRound (gchRound (gchRound (row ++ col, seed ^^^ layer))))
  decide (t ≤ x.1.toNat / 2 ^ 40)

/-- A drain parameter block (R337). -/
structure DrainParam where
  scale : Nat
  keepq : Nat
  seed : Word
  layer : Word
  thresh : Nat
  row0 : Nat
  col0 : Nat
  drop : Bool
  res : Bool
  int : Bool
  rot : Nat
  resDesc : Desc
  ok : Bool
  deriving DecidableEq, Repr

/-- Reads a drain parameter block (R337): `ok` says its reserved bits are zero and a residual's core and format exist. -/
def drainParam (cluster : Nat) (bs : List Byte) : DrainParam :=
  let f (o n : Nat) : Nat := ofBytes ((bs.drop o).take n)
  let flags := f 0x20 2
  let res := bit flags 1
  { scale := f 0 4, keepq := f 4 4, seed := BitVec.ofNat 64 (f 8 8), layer := BitVec.ofNat 64 (f 0x10 4), thresh := f 0x14 3,
    row0 := f 0x18 4, col0 := f 0x1C 4, drop := bit flags 0, res := res, int := bit flags 2, rot := bits flags 3 2,
    resDesc := { core := 8 * cluster + f 0x22 1 % 8, fmt := f 0x23 1, kn := 0, rows := 32, cols := 32, stride := f 0x28 4,
                 paddr := f 0x24 4 % 2 ^ 20, spare := true, mc := none, taint := 0, dm := false },
    ok := f 0x17 1 == 0 && bits flags 5 11 == 0 && f 0x24 4 < 2 ^ 20 && f 0x2C 20 == 0 &&
      (!res || (decide (f 0x22 1 < 8) && decide (1 ≤ f 0x23 1) && decide (f 0x23 1 ≤ 10))) }

/-- Step 1 to 3 of a drain for one element, given its residual (R218). -/
def DrainParam.value (p : DrainParam) (acc i j : Nat) (res : FpVal) : FpVal :=
  let k : Int := if p.rot = 0 then 0 else (p.rot : Int) + 1
  let rne (v : FpVal) : FpVal := fpDecode fp32 (fpRound fp32 0 v)
  let a := if p.int then ofInt (lane2int 32 acc) else fpDecode fp32 acc
  let v := rne (match fpMul a (fpDecode fp32 p.scale) with | .fin n m e => .fin n m (e - k) | w => w)
  let v := if p.drop then
      (if gchKeep p.seed p.layer (BitVec.ofNat 32 (p.row0 + i)) (BitVec.ofNat 32 (p.col0 + j)) p.thresh
        then rne (fpMul v (fpDecode fp32 p.keepq)) else .fin false 0 0)
    else v
  if p.res then rne (fpAdd 0 v res) else v

/-- What mdrainx leaves, given its parameters (R218, R338). -/
def mdrainxResult (o : MGX) (p : DrainParam) (g : Desc) : M MResult := do
  let t ← readTile o.z.toNat
  let s ← get
  match s.descFault g with
  | some f => return MResult.failed f
  | none =>
    match ← (if p.res then operand p.resDesc else pure (.ok [])) with
    | .error f => return MResult.failed f
    | .ok x =>
      let val (i j : Nat) : FpVal :=
        let e := elemAt x i j
        p.value (tileWord t i j) i j (elemValue p.resDesc.fmt e.1 e.2)
      return { tiles := [], bytes := s.drainBytes g o.p.toNat val, fault := none, source := [o.z.toNat],
               spans := if p.res then s.descSpans p.resDesc else [] }

/-- Reads the parameter block of a drain, as a pantry read of the own core (R337). -/
def readParam (o : MGX) : M DrainParam := do
  let at_ ← pantryAddr (BitVec.ofNat 64 o.pa.toNat) 64 RegCell.zero
  let self := (← core).id
  let s ← get
  let blk := s.pantryReadFor (some self) self at_ 64
  set blk.2
  return drainParam (← core).cluster blk.1

/-- The classes of a drain (R338). -/
def DrainParam.need (p : DrainParam) : BitVec 16 := if p.drop || p.res then 32 else 0

/-- mdrainx (R337, R338); wherever it is performed, it waits for a pending tile that it reads (R121, R325). -/
def mdrainxOp (o : MGX) : M Unit := do
  awaitEngine [o.z.toNat]
  let self := (← core).id
  let p ← readParam o
  awaitDispatcher p.need
  check p.ok
  let g ← readDesc o.g
  checkDesc g (List.range' 1 10) 32 32
  checkReg { val := 0, taint := g.taint, dm := g.dm } (o.p == 0 || !isMx g.fmt)
  if p.res then check p.resDesc.formOk
  let outs := (← get).drainRanges g
  let later_ : M MResult := mdrainxResult o p g
  engineOp p.need 0 0 (g.remoteBytes self + (if p.res then p.resDesc.remoteBytes self else 0)) 1 28 outs later_

/-! Descriptor moves and engine status (R326, R339, R340) -/

/-- The file that F names (R326). -/
def MD.file (o : MD) : File := if o.f = 0 then .c else .d

/-- gset (R326). -/
def gsetOp (o : MD) : M Unit := do
  occupy 1
  let lo ← readReg (MD.file o) o.c.toNat
  let hi ← readReg (MD.file o) (o.c.toNat + 1)
  writeReg .g o.g.toNat (lo.word.toNat + 2 ^ 64 * hi.word.toNat) [lo, hi] 2

/-- gget (R326). -/
def ggetOp (o : MD) : M Unit := do
  occupy 1
  let g ← readReg .g o.g.toNat
  writeReg (MD.file o) o.c.toNat (bits g.val.toNat 0 64) [g] 2
  writeReg (MD.file o) (o.c.toNat + 1) (bits g.val.toNat 64 64) [g] 2

/-- mcap (R339). -/
def mcapOp (o : MK) : M Unit := do
  occupy 1
  let s ← get
  let b := s.bitmap s.core.id
  (List.range 6).forM (fun i => writeReg .k (o.k.toNat + i) (b.getLsbD i).toNat [] 2)

/-- mwait (R340). -/
def mwaitOp : M Unit := do
  let c ← core
  if c.steered.isEmpty && c.emul.isNone && c.serving.isNone && c.drains.isEmpty && c.tflights.all (fun x => x.row.isSome) then occupy 1
  else stall

/-! Meanings -/

/-- A steered operation completes: its tiles are written and its pantry bytes defined, or its fault is due (R236, R341). -/
def State.steeredDone (s : State) (id : Nat) : State :=
  match s.core.steered.find? (fun x => x.id == id) with
  | none => s
  | some x =>
    let on : List ReadFor := x.tiles.map (fun t => ReadFor.tile t.1) ++ [.bytes (x.bytes.map (fun b => (b.1, b.2.1, b.2.1 + b.2.2.length)))]
    let now (r : OpenRead) : List OpenRead :=
      if r.target ≠ .steered id then [r] else if r.until_.isNone then [] else on.map (fun t => { r with target := t })
    let s := { s with core := { s.core with steered := s.core.steered.filter (fun y => y.id != id), reads := s.core.reads.flatMap now } }
    match x.fault with
    | some f => { s with core := { s.core with deferred := s.core.deferred ++ [f] } }
    | none => { s with core := { s.core with tiles := x.tiles.foldl (fun m t => SMap.put m t.1 t.2) s.core.tiles } }

/-! One meaning per instruction -/

/-- MmaBf16 (R330). -/
def execMmaBf16 (o : MA) (s : State) : Host.Outcome State Fault Refusal := finish (mmaOp prodBf16 o) s

/-- MmaF8 (R330). -/
def execMmaF8 (o : MA) (s : State) : Host.Outcome State Fault Refusal := finish (mmaOp (prodF8 o.p) o) s

/-- MmaE2m1 (R330). -/
def execMmaE2m1 (o : MA) (s : State) : Host.Outcome State Fault Refusal := finish (mmaOp prodE2m1 o) s

/-- MmaI8 (R330). -/
def execMmaI8 (o : MA) (s : State) : Host.Outcome State Fault Refusal := finish (mmaOp prodI8 o) s

/-- MmaI6 (R330). -/
def execMmaI6 (o : MA) (s : State) : Host.Outcome State Fault Refusal := finish (mmaOp prodI6 o) s

/-- MmaI4 (R330). -/
def execMmaI4 (o : MA) (s : State) : Host.Outcome State Fault Refusal := finish (mmaOp (prodI4 o.p) o) s

/-- MmasBf16 (R331). -/
def execMmasBf16 (o : MAS) (s : State) : Host.Outcome State Fault Refusal := finish (mmasOp prodBf16 o) s

/-- MmasF8 (R331). -/
def execMmasF8 (o : MAS) (s : State) : Host.Outcome State Fault Refusal := finish (mmasOp (prodF8 o.p) o) s

/-- MmasE2m1 (R331). -/
def execMmasE2m1 (o : MAS) (s : State) : Host.Outcome State Fault Refusal := finish (mmasOp prodE2m1 o) s

/-- MmasI8 (R331). -/
def execMmasI8 (o : MAS) (s : State) : Host.Outcome State Fault Refusal := finish (mmasOp prodI8 o) s

/-- MmasI4 (R331). -/
def execMmasI4 (o : MAS) (s : State) : Host.Outcome State Fault Refusal := finish (mmasOp (prodI4 o.p) o) s

/-- Mzero (R333). -/
def execMzero (o : MZ) (s : State) : Host.Outcome State Fault Refusal := finish (tileOp o.z [] 2 (pure 0)) s

/-- Mload (R334). -/
def execMload (o : MLD) (s : State) : Host.Outcome State Fault Refusal := finish (mloadOp o) s

/-- Madd (R333). -/
def execMadd (o : MT) (s : State) : Host.Outcome State Fault Refusal := finish (tileOp o.z [o.z.toNat, o.y.toNat] 8 (maddVal o)) s

/-- Mcopy (R333). -/
def execMcopy (o : MT) (s : State) : Host.Outcome State Fault Refusal := finish (tileOp o.z [o.y.toNat] 8 (readTile o.y.toNat)) s

/-- Mtrn (R333). -/
def execMtrn (o : MT) (s : State) : Host.Outcome State Fault Refusal := finish (tileOp o.z [o.y.toNat] 12 (mtrnVal o)) s

/-- Mrot (R335). -/
def execMrot (o : MG) (s : State) : Host.Outcome State Fault Refusal := finish (mrotOp o) s

/-- Mdrain (R336). -/
def execMdrain (o : MG) (s : State) : Host.Outcome State Fault Refusal := finish (mdrainOp o) s

/-- Mdrainx (R338). -/
def execMdrainx (o : MGX) (s : State) : Host.Outcome State Fault Refusal := finish (mdrainxOp o) s

/-- Gset (R326). -/
def execGset (o : MD) (s : State) : Host.Outcome State Fault Refusal := finish (gsetOp o) s

/-- Gget (R326). -/
def execGget (o : MD) (s : State) : Host.Outcome State Fault Refusal := finish (ggetOp o) s

/-- Mcap (R339). -/
def execMcap (o : MK) (s : State) : Host.Outcome State Fault Refusal := finish (mcapOp o) s

/-- Mwait (R340). -/
def execMwait (s : State) : Host.Outcome State Fault Refusal := finish (mwaitOp) s

/-- SteeredComplete (R236). -/
def execSteeredComplete (id : Nat) (s : State) : Host.Outcome State Fault Refusal := deviceStep (fun s => s.steeredDone id) s

end Sys2Proof.Machine
end

