-- ==== Sys2Proof/Machine/Copy.lean ====
section
/-!
DEFINITION. The copy slots: cross-file moves, address arithmetic, the tag table, bank formats and pcarve (R91, R150 to R152, R343 to R347,
R373 to R375).
-/
namespace Sys2Proof.Machine

/-! Cross-file moves (R345, R346) -/

/-- A whole register moved between two files. -/
def moveReg (src dst : File) (lat : Nat) (o : CX0) : M Unit := do
  let a ← readReg src o.a.toNat
  writeReg dst o.d.toNat (a.val.toNat % 2 ^ src.width) [a] lat

/-- A word placed in lane `l` of the 64-bit view, every other lane zero. -/
def inLane (x l : Nat) : Nat := x * 2 ^ (64 * l)

/-- xmov.sv (R345). -/
def xmovSvOp (o : CX) : M Unit := do
  let a ← readReg .s o.a.toNat
  writeReg .v o.d.toNat (inLane a.word.toNat o.l.toNat) [a] 3

/-- xmov.vs (R345). -/
def xmovVsOp (o : CX) : M Unit := do
  let a ← readReg .v o.a.toNat
  writeReg .s o.d.toNat (bits a.val.toNat (64 * o.l.toNat) 64) [a] 3

/-- xmov.kv: the image of k0 to k15 (R345). -/
def xmovKvOp (o : CXK) : M Unit := do
  let ks ← (List.range 16).mapM (fun i => readReg .k i)
  writeReg .v o.d.toNat (inLane (ofLanes 1 (ks.map (fun k => k.val.toNat))) o.l.toNat) ks 2

/-- A tile pending to xmov.zv and xmov.vz: not one that the emulation library itself serves (R325, R346). -/
def awaitMove (z : Nat) : M Unit := do
  let c ← core
  if (if c.handler = .emul ∧ c.sup = false then { c with serving := none } else c).tilePending z then stall

/-- xmov.zv: undefined before the bounds of the tile's writers have passed (R325, R345, R346). -/
def xmovZvOp (o : CZ) : M Unit := do
  let z := o.z.toNat
  let h := o.h.toNat
  awaitMove z
  let c ← core
  let v ← if c.tflights.any (fun x => x.z == z && (x.row.isNone || x.row == some h)) then freeVal 2048
          else pure (BitVec.ofNat 2048 (bits (c.tileAt z).toNat (2048 * h) 2048))
  writeReg .v o.r.toNat v.toNat [] 8

/-- xmov.vz: of it and an M-slot result whose bound has not passed, either may remain (R120, R345). -/
def xmovVzOp (o : CZ) : M Unit := do
  let z := o.z.toNat
  awaitMove z
  let a ← readReg .v o.r.toNat
  let c ← core
  let lost ← (if c.tflights.any (fun x => x.z == z && x.row.isNone) then do return (← chooseOf 2) == 1 else pure false)
  if lost then pure () else later (.tileRows z o.h.toNat (a.val.truncate 2048) 8)

/-! Address arithmetic (R347) -/

/-- cadd (R347). -/
def caddOp (o : CA) : M Unit := do
  let a ← readReg (cFile o.v) o.a.toNat
  writeReg (cFile o.v) o.d.toNat (a.word + joinImm o.i o.e).toNat [a] 1

/-- cmovi (R347). -/
def cmoviOp (o : CM) : M Unit := writeReg (cFile o.v) o.d.toNat (joinImm o.i o.e).toNat [] 1

/-- clea (R347). -/
def cleaOp (o : CE) : M Unit := do
  let a ← readReg (cFile o.v) o.a.toNat
  let b ← readReg (cFile o.v) o.b.toNat
  writeReg (cFile o.v) o.d.toNat (a.word + (b.word <<< o.sh.toNat)).toNat [a, b] 1

/-! The tag table (R150 to R152, R373) -/

/-- Slots of the tag table (R150). -/
def Core.slots (c : Core) : Nat := min 1024 (192 * c.tagged)

/-- The pantry address of slot `i` (R150). -/
def Core.slotAddr (c : Core) (i : Nat) : Nat := (16 - c.tagged) * Config.bankBytes + 256 * i

/-- Slot `i` is usable (R150). -/
def State.slotUsable (s : State) (i : Nat) : Bool :=
  let a := s.core.slotAddr i
  let b := a / Config.bankBytes
  s.rung s.core.id b != 3 && decide (a % Config.bankBytes + 256 ≤ s.usableAt s.core.id b)

/-- The entry of slot `i` (R150). -/
def Core.tag (c : Core) (i : Nat) : Word := SMap.get 0 c.tags i

/-- Sets the entry of slot `i`. -/
def Core.setTag (c : Core) (i : Nat) (w : Word) : Core := { c with tags := SMap.set 0 c.tags i w }

/-- V, REF and LINE of an entry (R150). -/
def tagV (w : Word) : Bool := w.getLsbD 63
/-- REF. -/
def tagRef (w : Word) : Bool := w.getLsbD 61
/-- LINE. -/
def tagLine (w : Word) : Nat := bits w.toNat 8 48
/-- An entry with REF cleared. -/
def clearRef (w : Word) : Word := w &&& ~~~ (BitVec.ofNat 64 (2 ^ 61))

/-- The clock scan from slot `i`, at most `fuel` steps: the victim, with REF cleared on the way (R151). -/
def State.clock (s : State) (c : Core) (i : Nat) : Nat → Nat × Core
  | 0 => (i, c)
  | fuel + 1 =>
    if s.slotUsable i then
      if !tagV (c.tag i) || !tagRef (c.tag i) then (i, c)
      else State.clock s (c.setTag i (clearRef (c.tag i))) ((i + 1) % c.slots) fuel
    else State.clock s c ((i + 1) % c.slots) fuel

/-- tlook (R151, R373). -/
def tlookOp (o : CT2) : M Unit := do
  let a ← readReg (cFile o.v) o.a.toNat
  let s ← get
  let c := s.core
  let n := c.slots
  check (n != 0)
  let put (w : Nat) : M Unit := writeReg (cFile o.v) o.r.toNat w [a] 4
  match (List.range n).find? (fun i => tagV (c.tag i) && tagLine (c.tag i) == tagLine a.word) with
  | some i =>
    setCore (fun c => c.setTag i (c.tag i ||| BitVec.ofNat 64 (2 ^ 61)))
    put (2 ^ 63 + i)
  | none =>
    if (List.range n).any s.slotUsable then do
      let r := s.clock c c.hand (2 * n)
      setCore (fun c => { c with tags := r.2.tags, hand := (r.1 + 1) % n })
      put r.1
    else put (2 ^ 62)

/-- tins (R152, R373). -/
def tinsOp (o : CTI) : M Unit := do
  let a ← readReg (cFile o.v) o.a.toNat
  let b ← readReg (cFile o.v) o.b.toNat
  let s ← get
  let n := s.core.slots
  let i := a.word.toNat
  checkReg a (decide (i < n) && s.slotUsable i)
  checkReg b (b.word.toNat % 256 == 0)
  let w := b.word ||| BitVec.ofNat 64 (2 ^ 63 + 2 ^ 61)
  setCore (fun c =>
    let c := (List.range n).foldl (fun c j =>
      if j ≠ i ∧ tagV (c.tag j) ∧ tagLine (c.tag j) = tagLine w then c.setTag j (c.tag j &&& ~~~ (BitVec.ofNat 64 (2 ^ 63))) else c) c
    c.setTag i w)

/-- tdel (R152, R373). -/
def tdelOp (o : CTD) : M Unit := do
  let a ← readReg (cFile o.v) o.a.toNat
  let s ← get
  let i := a.word.toNat
  checkReg a (decide (i < s.core.slots) && s.slotUsable i)
  setCore (fun c => c.setTag i (c.tag i &&& ~~~ (BitVec.ofNat 64 (2 ^ 63))))

/-- tscan (R373). -/
def tscanOp (o : CT2) : M Unit := do
  let a ← readReg (cFile o.v) o.a.toNat
  let c ← core
  checkReg a (decide (a.word.toNat < c.slots))
  writeReg (cFile o.v) o.r.toNat (c.tag a.word.toNat).toNat [a] 4

/-! Bank formats and carving (R91, R374, R375) -/

/-- bfmt, reading (R374). -/
def bfmtReadOp (o : CTB) : M Unit := do
  let s ← get
  writeReg (cFile o.v) o.r.toNat (s.bfmtWord s.core.id o.b.toNat) [] 2

/-- bfmt, writing (R374). -/
def bfmtWriteOp (o : CTB) : M Unit := do
  let r ← readReg (cFile o.v) o.r.toNat
  checkReg r (decide (r.word.toNat ≤ 10))
  let s ← get
  if s.rung s.core.id o.b.toNat = 3 then
    throw (.fault { s.pantryFault (s.core.faultOf 0x16) 0x16 s.core.id (o.b.toNat * Config.bankBytes) 1 with addr := 0 })
  later (.fmt o.b.toNat r.word.toNat)

/-- pcarve: stalls during an earlier one's drain (R91, R375). -/
def pcarveOp : M Unit := do
  let s ← get
  let c := s.core
  if c.carve.isSome then stall
  match s.jobAt c.task.fn with
  | none => pure ()
  | some j =>
    let e := nth (0, 0) (nth { attic := 0, carve := [] } j.phases c.task.phase).carve c.id
    let lo := (16 - max e.1 c.tagged) * Config.bankBytes
    let hi := (16 - min e.1 c.tagged) * Config.bankBytes
    modify (fun s => State.spoilReads s.openReads none [(c.id, lo, hi)] s)
    later (.carve e.1 e.2)

/-- The drain of a pcarve ends: the changed banks hold undefined bytes (R91). A core that issues nothing lets its cycles pass unseen. -/
def State.carveEnd (s : State) : State :=
  match s.core.carve with
  | none => s
  | some d =>
    if s.core.cycle < d.until_ ∧ s.core.run = .running then s
    else
      let n := d.banks.length * Config.bankBytes
      let byteAt (i : Nat) : Byte := BitVec.ofNat 8 ((Config.freeBits (s.fresh + i / 256)).toNat / 2 ^ (8 * (i % 256)))
      let base := (d.banks.headD 0) * Config.bankBytes
      { s with pantry := (List.range n).foldl (fun m i => SMap.set 0 m (pantryKey s.core.id (base + i)) (byteAt i)) s.pantry,
               fresh := s.fresh + n / 256,
               core := { s.core with carve := none, cycle := max s.core.cycle d.until_ } }

/-! One meaning per instruction -/

/-- XmovSv (R345). -/
def execXmovSv (o : CX) (s : State) : Host.Outcome State Fault Refusal := finish (xmovSvOp o) s

/-- XmovVs (R345). -/
def execXmovVs (o : CX) (s : State) : Host.Outcome State Fault Refusal := finish (xmovVsOp o) s

/-- XmovVw (R345). -/
def execXmovVw (o : CX0) (s : State) : Host.Outcome State Fault Refusal := finish (moveReg .v .w 2 o) s

/-- XmovWv (R345). -/
def execXmovWv (o : CX0) (s : State) : Host.Outcome State Fault Refusal := finish (moveReg .w .v 2 o) s

/-- XmovSc (R345). -/
def execXmovSc (o : CX0) (s : State) : Host.Outcome State Fault Refusal := finish (moveReg .s .c 1 o) s

/-- XmovCs (R345). -/
def execXmovCs (o : CX0) (s : State) : Host.Outcome State Fault Refusal := finish (moveReg .c .s 1 o) s

/-- XmovSd (R345). -/
def execXmovSd (o : CX0) (s : State) : Host.Outcome State Fault Refusal := finish (moveReg .s .d 1 o) s

/-- XmovDs (R345). -/
def execXmovDs (o : CX0) (s : State) : Host.Outcome State Fault Refusal := finish (moveReg .d .s 1 o) s

/-- XmovZv (R345). -/
def execXmovZv (o : CZ) (s : State) : Host.Outcome State Fault Refusal := finish (xmovZvOp o) s

/-- XmovVz (R345). -/
def execXmovVz (o : CZ) (s : State) : Host.Outcome State Fault Refusal := finish (xmovVzOp o) s

/-- XmovKv (R345). -/
def execXmovKv (o : CXK) (s : State) : Host.Outcome State Fault Refusal := finish (xmovKvOp o) s

/-- Cadd (R347). -/
def execCadd (o : CA) (s : State) : Host.Outcome State Fault Refusal := finish (caddOp o) s

/-- Cmovi (R347). -/
def execCmovi (o : CM) (s : State) : Host.Outcome State Fault Refusal := finish (cmoviOp o) s

/-- Clea (R347). -/
def execClea (o : CE) (s : State) : Host.Outcome State Fault Refusal := finish (cleaOp o) s

/-- Tlook (R151, R373). -/
def execTlook (o : CT2) (s : State) : Host.Outcome State Fault Refusal := finish (tlookOp o) s

/-- Tins (R152, R373). -/
def execTins (o : CTI) (s : State) : Host.Outcome State Fault Refusal := finish (tinsOp o) s

/-- Tdel (R152, R373). -/
def execTdel (o : CTD) (s : State) : Host.Outcome State Fault Refusal := finish (tdelOp o) s

/-- Tscan (R373). -/
def execTscan (o : CT2) (s : State) : Host.Outcome State Fault Refusal := finish (tscanOp o) s

/-- BfmtRead (R374). -/
def execBfmtRead (o : CTB) (s : State) : Host.Outcome State Fault Refusal := finish (bfmtReadOp o) s

/-- BfmtWrite (R374). -/
def execBfmtWrite (o : CTB) (s : State) : Host.Outcome State Fault Refusal := finish (bfmtWriteOp o) s

/-- Pcarve (R91, R375). -/
def execPcarve (_o : CN) (s : State) : Host.Outcome State Fault Refusal := finish pcarveOp s

/-- Cnop (R344). -/
def execCnop (_o : CN) (s : State) : Host.Outcome State Fault Refusal := finish (pure ()) s

/-- PcarveDrainEnd (R91). -/
def execPcarveDrainEnd (s : State) : Host.Outcome State Fault Refusal := deviceStep State.carveEnd s

end Sys2Proof.Machine
end

