-- ==== Sys2Proof/Machine/Counters.lean ====
section
/-!
DEFINITION. Packets handed to the links (R27 to R36), and the Distributor's counters (R71 to R73) with the events they post (R132).
-/
namespace Sys2Proof.Machine

/-! Packets (R27, R29) -/

/-- Bits [239:0] of a header, as 30 bytes (R27). -/
def headerBytes (p : Packet) : List Byte :=
  toBytes 30 (p.dst.toNat + p.src.toNat * 2 ^ 12 + p.lane.toNat * 2 ^ 24 + p.cls.toNat * 2 ^ 27 + p.ord.toNat * 2 ^ 29 +
    p.op.toNat * 2 ^ 30 + p.seq.toNat * 2 ^ 36 + p.len.toNat * 2 ^ 52 + p.rsv2.toNat * 2 ^ 61 + p.addr.toNat * 2 ^ 64 +
    p.phys.toNat * 2 ^ 120 + p.rsv1.toNat * 2 ^ 121 + p.group.toNat * 2 ^ 128 + p.cnode.toNat * 2 ^ 144 + p.aux.toNat * 2 ^ 176 +
    p.pchk.toNat * 2 ^ 192 + p.tag.toNat * 2 ^ 224)

/-- The header check (R27). -/
def headerCheck (p : Packet) : BitVec 16 := (crc32c (headerBytes p)).truncate 16

/-- The payload check: zero for no payload (R27). -/
def payloadCheck (bs : List Byte) : BitVec 32 := if bs.isEmpty then 0 else crc32c bs

/-- A packet with its length and checks filled in (R27). -/
def sealPacket (p : Packet) : Packet :=
  let p := { p with len := BitVec.ofNat 9 p.payload.length, pchk := payloadCheck p.payload }
  { p with hchk := headerCheck p }

/-- An empty packet from this device of operation `op`. -/
def State.newPacket (s : State) (op : Nat) : Packet :=
  { hchk := 0, tag := 0, pchk := 0, aux := 0, cnode := 0, group := 0, rsv1 := 0, phys := 0, addr := 0, rsv2 := 0, len := 0, seq := 0,
    op := BitVec.ofNat 6 op, ord := 0, cls := 0, lane := 0, src := BitVec.ofNat 12 (s.fabric.devnum.getD 0), dst := 0, payload := [] }

/-- Hands an unsequenced packet to the links (R29). -/
def State.emit (s : State) (p : Packet) : State := { s with fabric := { s.fabric with sent := s.fabric.sent ++ [sealPacket p] } }

/-- The connection of an outgoing packet (R29). -/
def connOf (p : Packet) : Conn :=
  if p.op = 5 then { mcast := true, peer := p.group.toNat, lane := p.lane.toNat }
  else { mcast := false, peer := p.dst.toNat, lane := p.lane.toNat }

/-- The next sequence number of a connection (R29). -/
def Fabric.seqOf (f : Fabric) (c : Conn) : Nat := match f.nextSeq.find? (fun p => p.1 == c) with | some p => p.2 | none => 0

/-- The function for whose job a packet is sent (R26, R34, R106, R17). -/
def State.senderFn (s : State) (o : Origin) : Option Nat :=
  match o with
  | .queue c _ _ => some (s.coreAt c).task.fn
  | .granary uid => (s.sessions.find? (fun x => x.uid == uid)).map (fun x => x.fn)
  | .mover => s.fabric.mover.map (fun m => m.fn)
  | .nobody => none

/-- The job for which a packet is sent: its function, and the root task's number, which no other job has. -/
def State.sender (s : State) (o : Origin) : Option (Nat × Nat) :=
  match s.senderFn o with
  | none => none
  | some fn => (s.jobAt fn).map (fun j => (fn, j.rootTask))

/-- Sends a sequenced packet: numbered in issue order and kept until it is acknowledged (R29, R34). -/
def State.send (s : State) (p : Packet) (origin : Origin) (response : Bool) (members : List Nat) (loc : Word) : State :=
  let c := connOf p
  let n := s.fabric.seqOf c
  let p := sealPacket { p with seq := BitVec.ofNat 16 n }
  { s with fabric := { s.fabric with
      nextSeq := s.fabric.nextSeq.filter (fun x => x.1 != c) ++ [(c, (n + 1) % 2 ^ 16)],
      unacked := s.fabric.unacked ++
        [{ conn := c, pkt := p, origin := origin, resends := 0, response := response, members := members, loc := loc,
           job := s.sender origin }],
      sent := s.fabric.sent ++ [p] } }

/-- Packets of a connection that are not acknowledged (R34). -/
def State.inWindow (s : State) (c : Conn) : Nat := (s.fabric.unacked.filter (fun u => u.conn == c)).length

/-- Sends a message of session `uid`: none on a closed connection, and one that finds its connection's window of 4,096 full waits (R34, R112). -/
def State.sendMessage (s : State) (p : Packet) (uid : Nat) : State :=
  if s.fabric.closed.contains (connOf p) then s
  else if 4096 ≤ s.inWindow (connOf p) then { s with fabric := { s.fabric with backlog := s.fabric.backlog ++ [(p, uid)] } }
  else s.send p (.granary uid) false [] 0

/-- The messages that waited are sent, in their order, as far as their windows let them (R34). -/
def State.flushBacklog (s : State) : State :=
  s.fabric.backlog.foldl (fun s x => s.sendMessage x.1 x.2) { s with fabric := { s.fabric with backlog := [] } }

/-! Events to tasks (R132) -/

/-- Posts an event to a task: to its core if it runs, kept if it is suspended, lost if it has ended (R132). -/
def State.postTask (s : State) (task b v : Nat) : State :=
  match s.cores.find? (fun c => c.run != .idle && c.task.num == task) with
  | some c => s.post c.id b v
  | none =>
    { s with dist := { s.dist with suspended := s.dist.suspended.map (fun x =>
        if x.core.task.num = task then { x with posts := x.posts.filter (fun e => e.bit != b) ++ [{ bit := b, value := v }] } else x) } }

/-! Counters (R71, R72) -/

/-- A launch counter of a job. -/
def Job.launches (j : Job) (n : Nat) : Nat := SMap.get 0 j.lctr n
/-- A graph counter of a job. -/
def Job.graphs (j : Job) (n : Nat) : Nat := SMap.get 0 j.gctr n
/-- A phase counter of a job. -/
def Job.phasesAt (j : Job) (n : Nat) : Nat := SMap.get 0 j.pctr n

/-- A launch or session is bound to a graph; a graph rising from zero is bound to the current phase (R72). -/
def Job.bindGraph (j : Job) (g : Nat) : Job :=
  let n := j.graphs g
  let j1 := { j with gctr := SMap.set 0 j.gctr g (n + 1) }
  if n ≠ 0 then j1
  else
    let p := j.phasesAt j.phase
    { j1 with gphase := SMap.set 0 j.gphase g j.phase, pctr := SMap.set 0 j.pctr j.phase (p + 1), jctr := if p = 0 then j.jctr + 1 else j.jctr }

/-- A graph counter falls by one; at zero the graph is unbound and its mark ends (R72, R83). -/
def Job.dropGraph (j : Job) (g : Nat) : Job :=
  let n := j.graphs g
  let j1 := { j with gctr := SMap.set 0 j.gctr g (n - 1) }
  if n ≠ 1 then j1
  else
    let ph := SMap.get 0 j.gphase g
    let p := j.phasesAt ph
    { j1 with gmarks := j.gmarks.filter (fun x => x != g), pctr := SMap.set 0 j.pctr ph (p - 1), jctr := if p = 1 then j.jctr - 1 else j.jctr }

/-- The job ends once its counter is zero (R59, R72); a cancelled job ends with CAUSE 2 (R60). -/
def State.checkJob (s : State) (f : Nat) : State :=
  match s.jobAt f with
  | some j => if j.jctr = 0 then s.endJob f (if j.cancelled then 2 else 1) 0 true else s
  | none => s

/-- A graph counter falls by one (R72). -/
def State.dropGraph (s : State) (f g : Nat) : State := (s.modJob f (fun j => j.dropGraph g)).checkJob f

/-- A launch counter falls by one: at zero it posts its event, frees those that wait for it, and its graph counter falls (R72, R77, R132). -/
def State.dropLaunch (s : State) (f l : Nat) : State :=
  match s.jobAt f with
  | none => s
  | some j =>
    let n := j.launches l
    let s := s.modJob f (fun j => { j with lctr := SMap.set 0 j.lctr l (n - 1) })
    if n ≠ 1 then s
    else
      let s := s.modJob f (fun j => { j with lmarks := j.lmarks.filter (fun x => x != l) })
      let (mine, others) := s.dist.launches.partition (fun x => x.fn == f && x.lctr == l)
      let s := { s with dist := { s.dist with launches := others.map (fun x =>
        if x.fn = f then { x with deps := x.deps.filter (fun d => d != l) } else x) } }
      mine.foldl (fun s x =>
        (if x.evt then s.postTask x.issuer 4 l else s).dropGraph f x.gctr) s

end Sys2Proof.Machine
end

