-- ==== Sys2Proof/Machine/Cellarer.lean ====
section
/-!
DEFINITION. Engine addresses and accesses (R348, R350), and the Cellarer operations (R48, R49, R364).
-/
namespace Sys2Proof.Machine

/-! Ranges of virtual memory -/

/-- The physical pieces of `n` bytes from `va` on, in 64 KiB steps; or the code and address of what fails: a
failed translation of any page before a permission (R163, R416). -/
def State.gPieces (s : State) (coreN fn : Nat) (need : Need) : Nat → Nat → Nat → Except (Nat × Nat) (List (Nat × Nat) × State)
  | 0, _, _ => .ok ([], s)
  | fuel + 1, va, n =>
    if n = 0 then .ok ([], s)
    else
      let len := min n (65536 - va % 65536)
      match s.xlate coreN fn va need with
      | .error c =>
        match c == 0x12, State.gPieces s coreN fn need fuel (va + len) (n - len) with
        | true, .error (0x11, a) => .error (0x11, a)
        | _, _ => .error (c, va)
      | .ok (pa, s) =>
        match State.gPieces s coreN fn need fuel (va + len) (n - len) with
        | .error e => .error e
        | .ok (ps, s) => .ok ((pa, len) :: ps, s)

/-- The mapping of a job that covers an address and is pinned (R26, R51). -/
def State.pinned (s : State) (fn va : Nat) : Option Mapping :=
  match s.jobAt fn with
  | none => none
  | some j => (j.maps.find? (fun m => m.covers va && m.pin)).bind (fun m => let p := m.pageAt va; if s.regionOk p.pa then some p else none)

/-- The physical pieces of a remote packet's access: pinned pages only (R26, R51). -/
def State.rPieces (s : State) (fn : Nat) (need : Need) : Nat → Nat → Nat → Except (Nat × Nat) (List (Nat × Nat) × State)
  | 0, _, _ => .ok ([], s)
  | fuel + 1, va, n =>
    if n = 0 then .ok ([], s)
    else
      let len := min n (65536 - va % 65536)
      match s.pinned fn va with
      | none => .error (0x11, va)
      | some m =>
        if need = .write ∧ m.w = false then
          match State.rPieces s fn need fuel (va + len) (n - len) with
          | .error (0x11, a) => .error (0x11, a)
          | _ => .error (0x12, va)
        else
          match State.rPieces s fn need fuel (va + len) (n - len) with
          | .error e => .error e
          | .ok (ps, s) => .ok ((m.pa + (va - m.va), len) :: ps, s)

/-- Who translates: a core of the device for its own job, or a remote packet for the job it names. -/
inductive Reach where
  | own (core fn : Nat)
  | remote (fn : Nat)
  deriving DecidableEq, Repr

/-- The function whose job an access is for. -/
def Reach.fn (r : Reach) : Nat := match r with | .own _ f => f | .remote f => f

/-- The physical pieces of an access. -/
def State.pieces (s : State) (r : Reach) (need : Need) (va n : Nat) : Except (Nat × Nat) (List (Nat × Nat) × State) :=
  match r with
  | .own c f => s.gPieces c f need (n / 65536 + 2) va n
  | .remote f => s.rPieces f need (n / 65536 + 2) va n

/-- Reads pieces at the Larder. -/
def State.readPieces (s : State) (ps : List (Nat × Nat)) : List Byte × State :=
  ps.foldl (fun acc p => let r := acc.2.larderRead p.1 p.2; (acc.1 ++ r.1, r.2)) ([], s)

/-- Writes bytes to pieces at the Larder. -/
def State.writePiecesAt (s : State) (ps : List (Nat × Nat)) (bs : List Byte) : State :=
  match ps with
  | [] => s
  | p :: r => State.writePiecesAt (s.larderWrite p.1 (bs.take p.2)) r (bs.drop p.2)

/-- Bytes that pass between an agent and virtual memory: free ones where a core's own engines reach its attic (R129). -/
def State.passBytes (s : State) (r : Reach) (va : Nat) (bs : List Byte) : List Byte × State :=
  match r with | .own c _ => s.atticBytes c va bs | .remote _ => (bs, s)

/-- Reads `n` bytes of virtual memory. -/
def State.readAt (s : State) (r : Reach) (va n : Nat) : Except (Nat × Nat) (List Byte × State) :=
  match s.pieces r .read va n with
  | .error e => .error e
  | .ok (ps, s) => let b := s.readPieces ps; .ok (b.2.passBytes r va b.1)

/-- Writes bytes of virtual memory, all or none. -/
def State.writeAt (s : State) (r : Reach) (va : Nat) (bs : List Byte) : Except (Nat × Nat) State :=
  match s.pieces r .write va bs.length with
  | .error e => .error e
  | .ok (ps, s) => let b := s.passBytes r va bs; .ok (b.2.writePiecesAt ps b.1)

/-! Engine addresses (R348) -/

/-- An engine address (R348). -/
inductive ELoc where
  | glob (va : Nat)
  | pan (core a : Nat)
  deriving DecidableEq, Repr

/-- The engine address of a register value; none where a reserved field is not zero (R348). -/
def engineLoc (cluster : Nat) (w : Word) : Option ELoc :=
  let x := w.toNat
  match bits x 60 4 with
  | 0 => if bits x 56 4 = 0 then some (.glob (bits x 0 56)) else none
  | 8 => if bits x 23 37 = 0 then some (.pan (8 * cluster + bits x 20 3) (bits x 0 20)) else none
  | _ => none

/-- An engine address moved by an exact offset, in 64 bits (R353). -/
def ELoc.shift (l : ELoc) (d : Int) : ELoc :=
  match l with
  | .glob a => .glob (((a : Int) + d) % 2 ^ 64).toNat
  | .pan c a => .pan c (((a : Int) + d) % 2 ^ 64).toNat

/-- The bytes two ranges share. -/
def ELoc.meet (l : ELoc) (n : Nat) (k : ELoc) (m : Nat) : Option (ELoc × Nat) :=
  let common (a b : Nat) : Option (Nat × Nat) :=
    let lo := max a b
    let hi := min (a + n) (b + m)
    if lo < hi then some (lo, hi - lo) else none
  match l, k with
  | .glob a, .glob b => (common a b).map (fun x => (.glob x.1, x.2))
  | .pan c a, .pan d b => if c = d then (common a b).map (fun x => (.pan c x.1, x.2)) else none
  | _, _ => none

/-- A range of pantry bytes cut at the banks: the start and length of each piece. -/
def bankPieces : Nat → Nat → Nat → List (Nat × Nat)
  | 0, _, _ => []
  | fuel + 1, a, n =>
    if n = 0 then []
    else
      let len := min n (Config.bankBytes - a % Config.bankBytes)
      (a, len) :: bankPieces fuel (a + len) (n - len)

/-- The usable bytes of a bank at a rung (R147). -/
def rungBytes (rung : Nat) : Nat := if rung = 2 then 0x6000 else Config.bankBytes

/-- The pantry fault of a range of bytes: each condition over all its banks, in the order of R416. -/
def State.panCode (s : State) (owner fuel a n : Nat) : Option (Nat × Nat) :=
  let ps := bankPieces fuel a n
  let rung (p : Nat × Nat) : Nat := s.rung owner (p.1 / Config.bankBytes)
  match ps.find? (fun p => decide (Config.pantryBytes ≤ p.1)), ps.find? (fun p => rung p == 3),
        ps.find? (fun p => decide (rungBytes (rung p) < p.1 % Config.bankBytes + p.2)) with
  | some p, _, _ => some (0x15, p.1)
  | none, some p, _ => some (0x16, p.1)
  | none, none, some p => some (0x15, p.1)
  | none, none, none => none

/-- The queue fault of a failed translation or permission at element `elem` (R225, R350). -/
def xlateFault (f : FaultInfo) (elem : Nat) (e : Nat × Nat) : FaultInfo :=
  if e.1 = 0x11 then { f with code := 0x30, addr := BitVec.ofNat 64 e.2, d0 := BitVec.ofNat 64 elem }
  else { f with code := e.1, addr := BitVec.ofNat 64 e.2 }

/-- Reads bytes at an engine address: the Larder, or a pantry at cluster scope (R166, R350). -/
def State.locRead (s : State) (f : FaultInfo) (elem : Nat) (l : ELoc) (n : Nat) : Except FaultInfo (List Byte × State) :=
  match l with
  | .glob va =>
    match s.readAt (.own s.core.id s.core.task.fn) va n with
    | .error e => .error (xlateFault f elem e)
    | .ok r => .ok r
  | .pan c a =>
    match s.panCode c (n / Config.bankBytes + 2) a n with
    | some e => .error (s.pantryFault f e.1 c e.2 1)
    | none => .ok (s.pantryRead c a n)

/-- Writes bytes at an engine address, all or none (R166, R350). -/
def State.locWrite (s : State) (f : FaultInfo) (elem : Nat) (l : ELoc) (bs : List Byte) : Except FaultInfo State :=
  match l with
  | .glob va =>
    match s.writeAt (.own s.core.id s.core.task.fn) va bs with
    | .error e => .error (xlateFault f elem e)
    | .ok s => .ok s
  | .pan c a =>
    match s.panCode c (bs.length / Config.bankBytes + 2) a bs.length with
    | some e => .error (s.pantryFault f e.1 c e.2 1)
    | none => .ok (s.pantryWrite c a bs)

/-- Leaves the bytes of a range undefined (R8), where it can be written. -/
def State.locUndef (s : State) (f : FaultInfo) (l : ELoc) (n : Nat) : State :=
  let r := s.freeBytes n
  match r.2.locWrite f 0 l r.1 with | .ok s => s | .error _ => s

/-! Cellarer operations (R48, R49) -/

/-- How a Cellarer operation ends: its returned bytes, or why it is refused. -/
inductive CelOut where
  | done (s : State) (ret : List Byte)
  | xlate (code addr : Nat)
  | align
  | shadows
  | form
  deriving DecidableEq, Repr

/-- One 64-bit word read, refused in the order of R416: a non-zero [63:56] before the alignment. -/
def State.wordAt (s : State) (r : Reach) (a : Nat) : Except CelOut (Nat × State) :=
  if 2 ^ 56 ≤ a then .error (.xlate 0x11 a)
  else if a % 8 ≠ 0 then .error .align
  else match s.readAt r a 8 with
    | .error e => .error (.xlate e.1 e.2)
    | .ok (bs, s) => .ok (ofBytes bs, s)

/-- One 64-bit word written, refused in the order of R416. -/
def State.setWord (s : State) (r : Reach) (a v : Nat) : Except CelOut State :=
  if 2 ^ 56 ≤ a then .error (.xlate 0x11 a)
  else if a % 8 ≠ 0 then .error .align
  else match s.writeAt r a (toBytes 8 v) with
    | .error e => .error (.xlate e.1 e.2)
    | .ok s => .ok s

/-- The outcome of a computation that may be refused. -/
def celOut (x : Except CelOut (State × List Byte)) : CelOut := match x with | .error e => e | .ok r => .done r.1 r.2

/-- AUX is a form that R48 lists for the operation. -/
def celAuxOk (op aux : Nat) : Bool :=
  match op with
  | 0x10 => bits aux 0 4 ≤ 8 && aux < 32
  | 0x11 => aux ≤ 2
  | 0x12 | 0x13 => aux < 4096
  | 0x14 => aux < 256
  | 0x15 => aux < 32
  | _ => aux == 0

/-- The payload bytes of an operation (R364). -/
def celPayload (op aux : Nat) : Nat :=
  match op with
  | 0x11 => 16 * 2 ^ aux
  | 0x13 => 0
  | 0x14 => 24
  | 0x15 => 4 * (aux % 32 + 1)
  | 0x17 => 16
  | _ => 8

/-- The operation returns values (R48, R365). -/
def celReturns (op : Nat) : Bool := op == 0x10 || op == 0x11 || op == 0x13 || op == 0x14

/-- Word `i` of a payload. -/
def payWord (bs : List Byte) (i : Nat) : Nat := ofBytes ((bs.drop (8 * i)).take 8)

/-- The hops of a pointer chase (R48). -/
def chase (s : State) (r : Reach) (key noff koff : Nat) : Nat → Nat → Nat → Except CelOut (State × List Byte)
  | 0, p, h => .ok (s, toBytes 8 p ++ toBytes 8 0 ++ toBytes 8 h)
  | fuel + 1, p, h =>
    match s.wordAt r ((p + koff) % 2 ^ 64) with
    | .error e => .error e
    | .ok (k, s) =>
      if k = key then .ok (s, toBytes 8 p ++ toBytes 8 k ++ toBytes 8 h)
      else match s.wordAt r ((p + noff) % 2 ^ 64) with
        | .error e => .error e
        | .ok (q, s) =>
          if q = 0 ∨ fuel = 0 then .ok (s, toBytes 8 p ++ toBytes 8 k ++ toBytes 8 h)
          else chase s r key noff koff fuel q (h + 1)

/-- Exact additions of consecutive words, line by line; none when a slice has no shadow record left (R159). -/
def State.exactAddAll (s : State) (f : Nat) : Nat → Nat → List Nat → Option State
  | 0, _, _ => some s
  | fuel + 1, pa, xs =>
    if xs.isEmpty then some s
    else
      let n := (128 - pa % 128) / 4
      match s.exactAdd f pa (xs.take n) with
      | none => none
      | some s => State.exactAddAll s f fuel (pa + 4 * (xs.take n).length) (xs.drop n)

/-- Fetch-and-op, of 32 or 64 bits (R48). -/
def celFetch (s : State) (r : Reach) (aux a : Nat) (pay : List Byte) : CelOut :=
  let w := if bit aux 4 then 8 else 4
  if a % w ≠ 0 then .align
  else match s.readAt r a w with
    | .error e => .xlate e.1 e.2
    | .ok (bs, s) =>
      match s.writeAt r a (toBytes w (atomicOp (bits aux 0 4) (8 * w) (ofBytes bs) (payWord pay 0))) with
      | .error e => .xlate e.1 e.2
      | .ok s => .done s (toBytes 8 (ofBytes bs))

/-- Compare-and-swap of 1, 2 or 4 words (R48). -/
def celCas (s : State) (r : Reach) (aux a : Nat) (pay : List Byte) : CelOut :=
  let n := 8 * 2 ^ aux
  if a % n ≠ 0 then .align
  else match s.readAt r a n with
    | .error e => .xlate e.1 e.2
    | .ok (bs, s) =>
      match s.pieces r .write a n with
      | .error e => .xlate e.1 e.2
      | .ok (ps, s) =>
        let b := s.passBytes r a (pay.drop n)
        .done (if bs = pay.take n then b.2.writePiecesAt ps b.1 else s) bs

/-- List enqueue (R48). -/
def celEnqueue (s : State) (r : Reach) (off a : Nat) (pay : List Byte) : CelOut :=
  let node := payWord pay 0
  celOut (do
    let s ← s.setWord r ((node + off) % 2 ^ 64) 0
    let (tail, s) ← s.wordAt r (a + 8)
    let s ← if tail = 0 then s.setWord r a node else s.setWord r ((tail + off) % 2 ^ 64) node
    let s ← s.setWord r (a + 8) node
    return (s, []))

/-- List dequeue (R48). -/
def celDequeue (s : State) (r : Reach) (off a : Nat) : CelOut :=
  celOut (do
    let (h, s) ← s.wordAt r a
    if h = 0 then return (s, toBytes 8 0)
    let (nx, s) ← s.wordAt r ((h + off) % 2 ^ 64)
    let s ← s.setWord r a nx
    let s ← if nx = 0 then s.setWord r (a + 8) 0 else .ok s
    return (s, toBytes 8 h))

/-- Exact reduce (R48, R158, R159). -/
def celReduce (s : State) (r : Reach) (aux a : Nat) (pay : List Byte) : CelOut :=
  let n := aux % 32 + 1
  if a % 4 ≠ 0 then .align
  else match s.pieces r .write a (4 * n) with
    | .error e => .xlate e.1 e.2
    | .ok (ps, s) =>
      let (pay, s) := s.passBytes r a (pay.take (4 * n))
      let words (p : Nat × Nat) (from_ : Nat) : List Nat := (List.range (p.2 / 4)).map (fun i => ofBytes ((pay.drop (from_ + 4 * i)).take 4))
      let go := ps.foldl (fun (acc : Option State × Nat) p =>
        (acc.1.bind (fun s => s.exactAddAll r.fn 34 p.1 (words p acc.2)), acc.2 + p.2)) (some s, 0)
      match go.1 with | none => .shadows | some s => .done s []

/-- Bounded copy: a copy between overlapping ranges leaves its destination undefined (R48, R49). -/
def celCopy (s : State) (r : Reach) (a : Nat) (pay : List Byte) : CelOut :=
  let src := payWord pay 0
  let n := payWord pay 1
  if n = 0 ∨ 65536 < n then .form
  else match s.readAt r src n with
    | .error e => .xlate e.1 e.2
    | .ok (bs, s) =>
      let undef := s.freeBytes n
      let lap := decide (a < src + n) && decide (src < a + n)
      match (if lap then undef.2 else s).writeAt r a (if lap then undef.1 else bs) with
      | .error e => .xlate e.1 e.2
      | .ok s => .done s []

/-- A Cellarer operation at an address (R48). -/
def cellar (s : State) (r : Reach) (op aux a : Nat) (pay : List Byte) : CelOut :=
  if !celAuxOk op aux || pay.length != celPayload op aux then .form
  else match op with
    | 0x10 => celFetch s r aux a pay
    | 0x11 => celCas s r aux a pay
    | 0x12 => celEnqueue s r aux a pay
    | 0x13 => celDequeue s r aux a
    | 0x14 => celOut (chase s r (payWord pay 0) (payWord pay 1) (payWord pay 2) (aux + 1) a 0)
    | 0x15 => celReduce s r aux a pay
    | 0x16 => celOut (do
        let (v, s) ← s.wordAt r a
        let s ← s.setWord r a ((v + payWord pay 0) % 2 ^ 64)
        return (s, []))
    | _ => celCopy s r a pay

end Sys2Proof.Machine
end

