-- ==== Sys2Proof/Machine/Reduce.lean ====
section
/-!
DEFINITION. Fabric reductions (R37 to R43, R366 to R368): a member's contributions, the chunk tree, and the reductions a destination keeps.
-/
namespace Sys2Proof.Machine

/-- Bytes of one term or result of a reduction operator (R366). -/
def redWidth (op : Nat) : Nat := if op = 2 then 8 else 4

/-- Operands that one packet carries (R37, R39 to R41). -/
def redRunLen (op mode : Nat) : Nat := if op = 2 then 32 else if op = 0 ∧ mode = 0 then 5 else 64

/-- Bytes of one operand in a packet (R39, R40). -/
def redOperand (op mode : Nat) : Nat := if op = 0 ∧ mode = 0 then 48 else redWidth op

/-- Combines two operands of an operator other than the exact sum (R38, R40). -/
def redCombine (op a b : Nat) : Nat :=
  match op with
  | 0 => fpRound fp32 0 (fpAdd 0 (fpDecode fp32 a) (fpDecode fp32 b))
  | 1 => atomicOp 0 32 a b
  | 2 => atomicOp 0 64 a b
  | 3 => atomicOp 4 32 a b
  | 4 => atomicOp 5 32 a b
  | 5 => atomicOp 6 32 a b
  | 6 => atomicOp 7 32 a b
  | 7 => fpMinMax fp32 false a b
  | _ => fpMinMax fp32 true a b

/-- The exact record of FP32 terms (R207). -/
def exactTerms (xs : List Nat) : Exact := Exact.ofList xsForm (xs.map (fpDecode fp32))

/-- The exact local result of a member's terms (R367). -/
def localResult (op : Nat) (xs : List Nat) : Nat :=
  match xs with
  | [] => 0
  | x :: r => if op = 0 then (exactTerms xs).toFp32 else r.foldl (redCombine op) (if op ≤ 2 then x else redCombine op x x)

/-! The chunk tree (R41) -/

/-- Chunks of `t` terms. -/
def chunkCount (t : Nat) : Nat := (t + 255) / 256

/-- Levels of the tree of `n` chunks. -/
def chunkLevels (n : Nat) : Nat := ((List.range 33).find? (fun l => decide (n ≤ 2 ^ l))).getD 33

/-- The value of node (l, i) from what is known of nodes: a kept node, or the joined children; an empty sibling promotes (R41). -/
def nodeValue (known : Nat → Nat → Option Nat) (n : Nat) : Nat → Nat → Option Nat
  | 0, i => known 0 i
  | l + 1, i =>
    match known (l + 1) i with
    | some v => some v
    | none =>
      match nodeValue known n l (2 * i) with
      | none => none
      | some a =>
        if n ≤ (2 * i + 1) * 2 ^ l then some a
        else (nodeValue known n l (2 * i + 1)).map (redCombine 0 a)

/-- The value of chunk `j` of a member's terms t0 on. -/
def chunkValue (t t0 : Nat) (xs : List Nat) (j : Nat) : Nat :=
  (exactTerms ((xs.drop (256 * j - t0)).take (min 256 (t - 256 * j)))).toFp32

/-- The smallest set of whole nodes that covers chunks a to b - 1, in chunk order (R42). -/
def coverNodes (n b : Nat) : Nat → Nat → List (Nat × Nat)
  | 0, _ => []
  | fuel + 1, a =>
    if b ≤ a then []
    else
      let fits (l : Nat) : Bool := a % 2 ^ l == 0 && decide (min (a + 2 ^ l) n ≤ b)
      let top := ((List.range (chunkLevels n + 1)).filter fits).getLastD 0
      let fin := min (a + 2 ^ top) n
      let l := ((List.range (top + 1)).find? (fun l => min (a + 2 ^ l) n == fin)).getD top
      (l, a / 2 ^ l) :: coverNodes n b fuel fin

/-- CNODE of a node (R27). -/
def cnodeOf (p : Nat × Nat) : Nat := p.1 * 2 ^ 27 + p.2

/-! A command's fields (R366) -/

/-- The fields of a qcoll group. -/
structure Coll where
  src : Word
  dst : Word
  dev : Nat
  group : Nat
  op : Nat
  mode : Nat
  role : Bool
  elems : Nat
  lane : Nat
  cls : Nat
  t0 : Nat
  t1 : Nat
  t : Nat
  nc : Nat
  deriving DecidableEq, Repr

/-- Reads the fields of a qcoll group (R366). -/
def collOf (g : List Word) : Coll :=
  let ctl := (nth 0 g 2).toNat
  let rng := (nth 0 g 3).toNat
  let tot := (nth 0 g 4).toNat
  { src := nth 0 g 0, dst := nth 0 g 1, dev := bits ctl 0 12, group := bits ctl 12 16, op := bits ctl 28 4, mode := bits ctl 32 2,
    role := bit ctl 34, elems := bits ctl 36 12 + 1, lane := bits ctl 48 3, cls := bits ctl 51 2, t0 := bits rng 0 32,
    t1 := bits rng 32 32, t := bits tot 0 32, nc := bits tot 32 16 }

/-- The address a reduction is known by: the low 56 bits of DST (R27, R348). -/
def Coll.addr (k : Coll) : Nat := k.dst.toNat % 2 ^ 56

/-- CHUNKED with a range that R42 refuses. -/
def Coll.misChunked (k : Coll) : Bool :=
  k.op == 0 && k.mode == 1 && (k.t0 % 256 != 0 || (k.t1 % 256 != 0 && k.t1 != k.t))

/-- Element runs of a command (R367). -/
def Coll.runs (k : Coll) : Nat := (k.elems + redRunLen k.op k.mode - 1) / redRunLen k.op k.mode

/-- The terms of elements `e` to `e + n - 1`, from their bytes. -/
def Coll.terms (k : Coll) (bs : List Byte) (n : Nat) : List (List Nat) :=
  let w := redWidth k.op
  let m := k.t1 - k.t0
  (List.range n).map (fun i => (List.range m).map (fun j => ofBytes ((bs.drop (w * (i * m + j))).take w)))

/-- What a member contributes per node: CNODE, and one operand number per element (R367). -/
def Coll.contrib (k : Coll) (xs : List (List Nat)) : List (Nat × List Nat) :=
  if k.op = 0 ∧ k.mode = 0 then [(0, xs.map (fun x => (exactTerms x).packXs))]
  else if k.op = 0 ∧ k.mode = 1 then
    let n := chunkCount k.t
    (coverNodes n (chunkCount k.t1) (n + 1) (k.t0 / 256)).map (fun p =>
      (cnodeOf p, xs.map (fun x => (nodeValue (fun l i => if l = 0 then some (chunkValue k.t k.t0 x i) else none) n p.1 p.2).getD 0)))
  else [(0, xs.map (localResult k.op))]

/-- Reads a member's terms of run `r`: its contributions, or the fault (R350, R366). -/
def Coll.readRun (k : Coll) (s : State) (f : FaultInfo) (r : Nat) : Except FaultInfo (List (Nat × List Nat) × State) :=
  let per := redRunLen k.op k.mode
  let n := min per (k.elems - per * r)
  let m := k.t1 - k.t0
  let w := redWidth k.op
  match engineLoc s.core.cluster k.src with
  | none => .ok ([], s)
  | some l =>
    match s.locRead f r (l.shift ((w * m * per * r : Nat) : Int)) (w * m * n) with
    | .error e => .error e
    | .ok (bs, s) => .ok (k.contrib (k.terms bs n), s)

/-! Reductions kept at the destination (R368) -/

/-- Two operands of one element are combined (R38 to R41); of a chunk-tree node that came twice the first stays. -/
def combineOne (op mode a b : Nat) : Nat :=
  if op = 0 ∧ mode = 0 then (Exact.join xsForm (Exact.unpackXs a) (Exact.unpackXs b)).packXs
  else if op = 0 ∧ mode = 1 then a
  else redCombine op a b

/-- A run of operands enters the combination: only a run of the same address, COUNT and node takes it up (R38). -/
def combineRun (op mode addr node : Nat) (xs : List Nat) (rs : List RedRun) : List RedRun :=
  let same (r : RedRun) : Bool := r.addr == addr && r.node == node && r.vals.length == xs.length
  if rs.any same then
    rs.map (fun (r : RedRun) => if same r then { r with members := r.members + 1, vals := List.zipWith (combineOne op mode) r.vals xs } else r)
  else rs ++ [{ addr := addr, node := node, members := 1, vals := xs }]

/-- A contribution of consecutive elements enters a kept reduction. -/
def Reduction.enter (r : Reduction) (addr node : Nat) (xs : List Nat) : Reduction :=
  { r with runs := combineRun r.op r.mode addr node xs r.runs }

/-- A reduction was discarded after its entry had started (R43). -/
def Reduction.gone (r : Reduction) : Bool := r.entry.isNone && r.span != 0

/-- A reduction that is kept: not one that was discarded, of which only a mark stands (R43, R368). -/
def Reduction.kept (r : Reduction) : Bool := !(r.gone || r.bad || r.late)

/-- An address lies in a kept reduction: it is that of one run before the entry starts, and any of the entry's elements after. -/
def Reduction.holds (r : Reduction) (group addr op mode : Nat) : Bool :=
  r.group == group && r.op == op && r.mode == mode && decide (r.addr ≤ addr) && decide (addr < r.addr + max 1 r.span)

/-- A RED packet's operands reach the destination: `ok` is false for a payload check that failed (R43, R368). -/
def State.redArrive (s : State) (group addr op mode node : Nat) (xs : List Nat) (ok : Bool) : State :=
  let fab := s.fabric
  let here (r : Reduction) : Bool := r.holds group addr op mode
  if fab.reds.any here then
    { s with fabric := { fab with reds := fab.reds.map (fun r =>
        if here r then (if r.bad || r.late || r.gone then r else if ok then r.enter addr node xs else { r with runs := [], bad := true }) else r) } }
  else if 64 ≤ (fab.reds.filter Reduction.kept).length then s
  else
    let r : Reduction := { group := group, addr := addr, span := 0, op := op, mode := mode, runs := [], bad := !ok, late := false, entry := none }
    { s with fabric := { fab with reds := fab.reds ++ [if ok then r.enter addr node xs else r] } }

/-- A destination entry starts: it takes over what arrived before; none when 64 reductions are kept (R368). -/
def State.redOpen (s : State) (num : Nat) (k : Coll) : Option State :=
  let fab := s.fabric
  let within (r : Reduction) : Bool :=
    (r.entry == none || r.entry == some (s.core.id, num)) && r.group == k.group && r.op == k.op && r.mode == k.mode && decide (k.addr ≤ r.addr) &&
    decide (r.addr < k.addr + redWidth k.op * k.elems)
  let mine := (fab.reds.filter within).filter (fun r => !r.gone)
  let rest := fab.reds.filter (fun r => !within r)
  if 64 ≤ (rest.filter Reduction.kept).length then none
  else
    let r : Reduction :=
      { group := k.group, addr := k.addr, span := redWidth k.op * k.elems, op := k.op, mode := k.mode, runs := mine.flatMap (fun r => r.runs),
        bad := mine.any (fun r => r.bad), late := mine.any (fun r => r.late), entry := some (s.core.id, num) }
    some { s with fabric := { fab with reds := rest ++ [r] } }

/-- The operand that a run holds for the element at an address. -/
def RedRun.valAt (x : RedRun) (w addr : Nat) : Option Nat :=
  if x.addr ≤ addr ∧ (addr - x.addr) % w = 0 then x.vals[(addr - x.addr) / w]? else none

/-- The result of one element of a destination, once it is complete (R368). -/
def elemResult (k : Coll) (r : Reduction) (e : Nat) : Option Nat :=
  let w := redWidth k.op
  let at_ := k.addr + w * e
  let mine : List (RedRun × Nat) := r.runs.filterMap (fun x => (x.valAt w at_).map (fun v => (x, v)))
  if k.op = 0 ∧ k.mode = 1 then
    let n := chunkCount k.t
    mine.findSome? (fun y =>
      let known (l i : Nat) : Option Nat :=
        (mine.find? (fun x => x.1.addr == y.1.addr && x.1.vals.length == y.1.vals.length && x.1.node == cnodeOf (l, i))).map (fun x => x.2)
      nodeValue known n (chunkLevels n) 0)
  else
    mine.findSome? (fun x =>
      if k.op = 0 ∧ k.mode = 0 then
        let v := Exact.unpackXs x.2
        if v.count = k.t then some v.toFp32 else none
      else if k.nc ≤ x.1.members then some x.2 else none)

/-- The results of every element, once all are complete (R368). -/
def redResults (k : Coll) (r : Reduction) : Option (List Nat) := (List.range k.elems).mapM (elemResult k r)

/-- The first line in REDUCE that an ARRIVAL result would reach, as its virtual address (R40). -/
def State.arrivalRefused (s : State) (k : Coll) : Option Nat :=
  if k.op = 0 ∧ k.mode = 2 then
    match engineLoc s.core.cluster k.dst with
    | some (.glob va) =>
      let n := 4 * k.elems
      (List.range ((va + n - 1) / 128 - va / 128 + 1)).findSome? (fun i =>
        let line := (va / 128 + i) * 128
        match s.xlate s.core.id s.core.task.fn line .write with
        | .ok (pa, _) => if s.reduce.any (fun r => r.line == pa / 128) then some line else none
        | .error _ => none)
    | _ => none
  else none

end Sys2Proof.Machine
end

