-- ==== Sys2Proof/Machine/Control.lean ====
section
/-!
DEFINITION. Control transfer, the tree, the loop nest, register blocks, events and traps, control registers, mapping requests, the
capability search and tlbinv (R246, R247, R274 to R277, R285 to R287, R296, R164).
-/
namespace Sys2Proof.Machine

/-! Transfers (R274) -/

/-- br: an offset in syllables from the bundle (R248, R274). -/
def brOp (o : SB) : M Unit := do transfer (branchTarget (← core).pc (joinImm o.o o.e)) false

/-- brk: taken when k XOR N is 1; k joins the path taint either way (R175, R274). -/
def brkOp (o : SC) : M Unit := do
  let k ← readK o.k
  addPath [k]
  if k.flag != (o.n == 1) then transfer (branchTarget (← core).pc (joinImm o.o o.e)) false

/-- jmp: an indirect transfer (R274). -/
def jmpOp (o : S1) : M Unit := do
  let a ← readS o.r
  addPath [a]
  transfer a.word true

/-- A call ends the nest whose body holds it (R125). -/
def leaveNest : M Unit := do if (← get).inNest then later .endNest

/-- call: pushes the address of the bundle that follows (R128). -/
def callOp (o : SB) : M Unit := do
  let c ← core
  pushReturn c.npc
  leaveNest
  transfer (branchTarget c.pc (joinImm o.o o.e)) false

/-- callr: as jmp, with a return address (R128). -/
def callrOp (o : S1) : M Unit := do
  let a ← readS o.r
  let c ← core
  pushReturn c.npc
  leaveNest
  addPath [a]
  transfer a.word true

/-- ret: pops the return address (R128). -/
def retOp : M Unit := do transfer (← popReturn) false

/-- The predicate of test `i` of a tree and its inversion (R246). -/
def testOf (t : Tree) (i : Nat) : BitVec 4 × Bool :=
  (match i with | 0 => t.p0 | 1 => t.p1 | 2 => t.p2 | _ => t.p3, t.pol.getLsbD i)

/-- The leaf that test outcomes choose (R247). -/
def treeLeaf (split : Bool) (ts : List Bool) : Nat :=
  if split then
    if nth false ts 0 then (if nth false ts 1 then 1 else 2)
    else if nth false ts 2 then 3 else if nth false ts 3 then 4 else 0
  else match ts.findIdx? (fun b => b) with | some i => i + 1 | none => 0

/-- The tree: chooses its leaf, joins its predicates to the path taint, and transfers for a leaf other than 0 (R175, R247). -/
def btreeOp (t : Tree) : M Unit := do
  let ks ← (List.range t.tests).mapM (fun i => readK (testOf t i).1)
  addPath ks
  let leaf := treeLeaf (t.shape == 1) (ks.zipIdx.map (fun p => p.1.flag != (testOf t p.2).2))
  setCore (fun c => { c with leaf := leaf })
  if leaf ≠ 0 then transfer (branchTarget (← core).pc ((nth 0 t.offs (leaf - 1)).signExtend 64)) false

/-! The loop nest (R123, R275, R276) -/

/-- The signed 32-bit increments of a level, from the bytes of its table row. -/
def incrementRow (bs : List Byte) (l : Nat) : List Word :=
  (List.range 8).map (fun j => (BitVec.ofNat 32 (ofBytes ((bs.drop (32 * l + 4 * j)).take 4))).signExtend 64)

/-- lnest: sets the nest's registers from the counts and the increment table, or skips the body (R275). -/
def lnestOp (o : SL) : M Unit := do
  let n := o.n.toNat
  let s ← get
  check (!s.core.nestAct)
  let cs ← (List.range n).mapM (fun l => readReg .s (o.a.toNat + l))
  cs.forM (fun c => checkReg c (decide (c.word.toNat < 2 ^ 32)))
  let rows ← (match o.p with
    | none => pure []
    | some p => do let a ← pantryAddr (p.zeroExtend 64) 256 RegCell.zero; readOwn a (32 * n))
  addPath cs
  let c ← core
  let skip := cs.any (fun r => r.word == 0)
  later (.cr 0x38 (BitVec.ofNat 64 ((if skip then 0 else 2 ^ 63) + n * 256 + o.b.toNat)))
  later (.cr 0x39 c.npc)
  (List.range 6).forM (fun l => do
    later (.cr (0x40 + l) (match cs[l]? with | some r => r.word | none => 1))
    later (.cr (0x48 + l) 0)
    (List.range 8).forM (fun j => later (.cr (0x80 + 8 * l + j) (if l < n ∧ o.p.isSome then nth 0 (incrementRow rows l) j else 0))))
  if skip then transfer (BitVec.ofNat 64 ((← get).afterBundles c.npc.toNat (o.b.toNat + 1))) false

/-- lexit: ends the nest after its bundle; execution continues after the body (R125, R276). -/
def lexitOp : M Unit := do
  let s ← get
  check s.inNest
  later .endNest
  transfer (BitVec.ofNat 64 s.nestBody.2) false

/-! Register blocks (R127, R277) -/

/-- The blocks that masks name, in file order s v w c d k. -/
def maskBlocks (s v w c d k : Nat) : List (File × Nat) :=
  [(File.s, s, 8), (.v, v, 4), (.w, w, 4), (.c, c, 2), (.d, d, 2), (.k, k, 2)].flatMap (fun p =>
    ((List.range p.2.2).filter (fun b => bit p.2.1 b)).map (fun b => (p.1, b)))

/-- Room for one more frame naming the blocks without a spill (R127). -/
def Core.roomFor (c : Core) (bs : List (File × Nat)) : Bool :=
  decide (c.frames.length ≤ 15) &&
  renamed.all (fun f => decide ((bs.filter (fun b => b.1 == f)).length ≤ (freeBlocks c.maps c.frames f).length))

/-- The maps after acquiring blocks, each on the lowest free physical block, and the blocks taken. -/
def takeBlocks (frames : List (List FrameBlock)) (m : Maps) (bs : List (File × Nat)) : Maps × List (File × Nat) :=
  bs.foldl (fun a b =>
    let used := a.2.filterMap (fun t => if t.1 = b.1 then some t.2 else none)
    match (freeBlocks m frames b.1).find? (fun p => !used.contains p) with
    | some p => (a.1.put b.1 b.2 p, a.2 ++ [(b.1, p)])
    | none => a) (m, [])

/-- Acquires blocks: pushes a frame of the old mappings and maps free blocks, whose contents are undefined (R127). -/
def acquireBlocks (bs : List (File × Nat)) : M Maps := do
  let c ← core
  let frame := bs.map (fun b => { file := atticCode b.1, block := b.2, phys := nth 0 (c.maps.of b.1) b.2 : FrameBlock })
  let (m, taken) := takeBlocks c.frames c.maps bs
  taken.forM (fun t => (blockKeys t.1 t.2).forM (fun k => do
    let v ← freeVal t.1.width
    setCore (fun c => c.setCell k { val := BitVec.ofNat 2048 v.toNat, taint := 0, dm := false })))
  later (.maps m (frame :: c.frames) c.spilled)
  return m

/-- The blocks an acq may name now (R133, R277). -/
def checkBlocks (bs : List (File × Nat)) : M Unit := do
  check (!bs.isEmpty)
  if (← core).inHandler then check (!(bs.contains (.s, 7)) && !(bs.contains (.k, 1)))

/-- acq (R127, R277). -/
def acqOp (o : SQ) : M Unit := do
  let bs := maskBlocks o.s.toNat o.v.toNat o.w.toNat o.c.toNat o.d.toNat (o.k.getD 0).toNat
  checkBlocks bs
  spillUntil (fun c => c.roomFor bs) 17
  let _ ← acquireBlocks bs

/-- acq.f: acquires when no spill is needed; kp tells (R127, R277). -/
def acqfOp (o : SQF) : M Unit := do
  let bs := maskBlocks o.s.toNat o.v.toNat o.w.toNat o.c.toNat o.d.toNat o.k.toNat
  checkBlocks bs
  let c ← core
  if c.roomFor bs then
    let m ← acquireBlocks bs
    let key := { c with maps := m }.phys .k o.kp.toNat
    if c.pending key then stall else later (.reg key (result 1 []) 1)
  else writeReg .k o.kp.toNat 0 [] 1

/-- rel: restores the newest frame's mappings, refilling it from the attic when none is on chip (R127, R180). -/
def relOp : M Unit := do
  let c ← core
  match c.frames with
  | fr :: rest => later (.maps (fr.foldl (fun m b => m.put (atticFile b.file) b.block b.phys) c.maps) rest c.spilled)
  | [] =>
    match c.spilled with
    | [] => illegalOperand
    | shape :: rest =>
      let (_, taken) := takeBlocks [] c.maps (shape.map (fun b => (atticFile b.file, b.block)))
      let pairs := (shape.zip taken).reverse
      pairs.forM (fun p => refillBlock p.1 p.2.2)
      later (.maps (pairs.foldl (fun m p => m.put (atticFile p.1.file) p.1.block p.2.2) c.maps) [] rest)

/-! Events and traps (R134, R285) -/

/-- An implicit release: every earlier access of the sequencer is performed first (R187). -/
def releaseAll : M Unit := do if (← core).order.acc.isEmpty then pure () else stall

/-- An implicit acquire at device scope (R154, R178, R187). -/
def acquireAll : M Unit := setCore Core.acquired

/-- wfe: clears a set EVLATCH and completes, otherwise sleeps (R134). -/
def wfeOp : M Unit := do
  if (← core).ctl 0x26 = 0 then throw (.stall 2) else later (.cr 0x26 0)

/-- sev: event bit 3 for the task of core a, when it runs a task of the same job (R132, R285). -/
def sevOp (o : S1) : M Unit := do
  let a ← readS o.r
  checkReg a (decide (a.word.toNat ≤ 255))
  releaseAll
  modify (fun s =>
    if (s.coreAt a.word.toNat).run ≠ .idle ∧ (s.coreAt a.word.toNat).task.fn = s.core.task.fn
    then s.post a.word.toNat 3 s.core.id else s)

/-- Arms the watch of the line at an address, translated for reading (R135, R285, R286). -/
def armWatch (a : Word) (r : RegCell) : M Unit := do
  let line := a &&& ~~~ 127
  let s ← get
  match s.xlate s.core.id s.core.task.fn line.toNat .read with
  | .error c => addrFault c line r
  | .ok (pa, s) =>
    set { s with core := { s.core with watchPa := pa } }
    later (.cr 0x27 (line ||| 1))

/-- watch (R285). -/
def watchOp (o : S1) : M Unit := do
  let a ← readS o.r
  armWatch a.word a

/-- Leaves to an address kept by the hardware; a changed one is an indirect target, and at an unchanged one the transfer that had led there is
still to be checked (R248, R285). -/
def leaveTo (to_ kept : Word) (before : Option Transfer) : M Unit :=
  setCore (fun c => { c with npc := to_, taken := some (
    if to_ = kept then before.getD { source := c.pc, indirect := false, checked := false }
    else { source := c.pc, indirect := true, checked := true }) })

/-- The fault that a failed emulation reports (R237). -/
def emulationFault (c : Core) (e : EmulInfo) : List FaultInfo :=
  let r (n : Nat) : Word := (c.cell (regKey 6 n)).word
  if r 56 = 0 then []
  else [{ c.faultOf (r 56).toNat with
            slot := 3, kind := 1, emulated := true, age := e.cyc, pc := r 58, d0 := r 57, d1 := r 59, d2 := r 60 }]

/-- The path taint after an emulation: as it was before it, but for the tags freed since, whose loads it then holds as D (R178, R238). -/
def Core.pathBack (c : Core) (e : EmulInfo) : Order :=
  { c.order with ptaint := e.ptaint &&& c.order.ptaint, pdm := e.pdm || e.ptaint &&& ~~~ c.order.ptaint != 0 }

/-- retu: from the supervisor handler, from a user handler or emulation trap, or from a restore routine (R133, R139, R230, R237, R285). -/
def retuOp : M Unit := do
  let c ← core
  if c.sup then
    leaveTo (c.ctl 0x102) c.sepc0 c.sxfer
    later (.leave (if (c.ctl 0x104).getLsbD 0 then .s else .u) c.handler false)
  else
    match c.handler with
    | .user =>
      check (decide (c.frames.length + c.spilled.length ≤ c.entryFrames))
      leaveTo (c.ctl 0x25) c.uepc0 c.uxfer
      later (.leave c.level .main false)
    | .emul =>
      check (decide (c.frames.length + c.spilled.length ≤ c.entryFrames))
      leaveTo (c.ctl 0x25) c.uepc0 c.uxfer
      later (.leave (if c.task.root then .s else .u) .main false)
      match c.serving with
      | none => pure ()
      | some e => setCore (fun c => { c with serving := none, order := c.pathBack e, deferred := c.deferred ++ emulationFault c e })
    | .main =>
      if c.ctl 0x36 = 3 then
        leaveTo c.rpc c.rpc c.rxfer
        later .leaveRestore
      else illegalOperand

/-! Control registers (R118, R229, R286) -/

/-- A control register's value for a program. The write-only MAPREQ reads as 0: no rule gives its read a value or a fault (R229, R286; DESIGN CHOICE,
log 126). -/
def State.readCtl (s : State) (n : Nat) : Word :=
  let j := s.jobAt s.core.task.fn
  match n with
  | 0x003 => BitVec.ofNat 64 s.core.cycle
  | 0x100 => match j with | some j => j.svec | none => 0
  | 0x101 => match j with | some j => j.srec | none => 0
  | 0x105 => match j with | some j => j.pgrant.zeroExtend 64 | none => 0
  | 0x106 => 0
  | _ => s.core.ctl n

/-- cread (R286). -/
def creadOp (o : SW) : M Unit := do
  check (crReadable o.n.toNat)
  if 0x100 ≤ o.n.toNat then needS
  writeS o.r ((← get).readCtl o.n.toNat) [] 1

/-- The bits a control register keeps (R7, R118, R286). -/
def ctlMask (n : Nat) (v : Word) : Word :=
  if n = 0x22 then v &&& 0x1F
  else if n = 0x26 then v &&& 1
  else if n = 0x38 then v &&& 0x800000000000073F
  else if 0x80 ≤ n ∧ n ≤ 0xAF then (v.truncate 32).signExtend 64
  else v

/-- The registers of the loop nest (R276). -/
def isNestReg (n : Nat) : Bool := n == 0x38 || n == 0x39 || (0x40 ≤ n && n ≤ 0x4D) || (0x80 ≤ n && n ≤ 0xAF)

/-- A write of a control register, effective from the next bundle (R286). An SREC that is not 4 KiB aligned is stored as it is written: R229 calls the base
aligned and names no fault for one that is not (DESIGN CHOICE, log 125). -/
def writeCtl (n : Nat) (v : Word) : M Unit := do
  check (crWritable n)
  if 0x100 ≤ n then needS
  if isNestReg n then check (!(← get).inNest)
  if n = 0x100 then modify (fun s => s.modJob s.core.task.fn (fun j => { j with svec := v }))
  else if n = 0x101 then modify (fun s => s.modJob s.core.task.fn (fun j => { j with srec := v }))
  else later (.cr n (ctlMask n v))

/-- cwrite of a register without a row of its own (R286). -/
def cwriteOp (o : SW) : M Unit := do
  let r ← readS o.r
  writeCtl o.n.toNat r.word

/-- cwrite of TRAPBASE: 4 KiB aligned, or ILLEGAL_OPERAND (R226). -/
def trapbaseOp (o : SWF) : M Unit := do
  let r ← readS o.r
  checkReg r (r.word.toNat % 4096 == 0)
  writeCtl 0x20 r.word

/-- cwrite of EVLATCH: bit 0 (R286). -/
def evlatchOp (o : SWF) : M Unit := do
  let r ← readS o.r
  writeCtl 0x26 r.word

/-- cwrite of LNCTL: illegal inside an active body (R276). -/
def lnctlOp (o : SWF) : M Unit := do
  let r ← readS o.r
  writeCtl 0x38 r.word

/-- cwrite of WATCH: arms the named line, or disarms (R286). -/
def watchRegOp (o : SWF) : M Unit := do
  let r ← readS o.r
  if r.word.getLsbD 0 then armWatch (r.word &&& 0x00FFFFFFFFFFFF80) r
  else later (.cr 0x27 (r.word &&& 0x00FFFFFFFFFFFF80))

/-- cwrite of PGRANT at S level: the clusters granted to tuning passes (R234). -/
def pgrantOp (o : SWF) : M Unit := do
  needS
  let r ← readS o.r
  modify (fun s => s.modJob s.core.task.fn (fun j => { j with pgrant := r.word.truncate 32 }))

/-! Mappings (R88, R159, R164) -/

/-- The 1 GiB shadow area: the top of the first standing group, scanning down from stack 11 group 7 (R159). -/
def State.shadowArea (s : State) : Option Nat :=
  ((List.range 96).map (fun i => (11 - i / 8, 7 - i % 8))).findSome? (fun p =>
    let base := p.1 * 2 ^ 36 + p.2 * 2 ^ 33 + 0x1C0000000
    if s.regionOk base then some base else none)

/-- A range lies inside the memory share of a function (R53). -/
def Fn.owns (f : Fn) (pa len : Nat) : Bool := f.share.any (fun r => r.1 ≤ pa && pa + len ≤ r.1 + r.2)

/-- A mapping entry's fields (R88): VA, PA, LENGTH, ATTR. -/
def mappingOf (bs : List Byte) : Mapping × Nat :=
  let w (i : Nat) : Nat := ofBytes ((bs.drop (8 * i)).take 8)
  let attr := w 3
  ({ va := w 0, pa := w 1, len := w 2, page := attr % 4, w := attr.testBit 2, x := attr.testBit 3, pin := attr.testBit 4 }, attr)

/-- Every page of a physical range stands in a mappable region (R12, R20). -/
def State.rangeOk (s : State) (pa len : Nat) : Bool :=
  decide (0 < len) && (List.range ((pa + len - 1) / 2 ^ 33 - pa / 2 ^ 33 + 1)).all (fun i => s.regionOk (max pa ((pa / 2 ^ 33 + i) * 2 ^ 33))) &&
  s.regionOk (pa + len - 1)

/-- An entry's own form (R88): size code, alignment, length, and the system window left alone. -/
def Mapping.formOk (m : Mapping) : Bool :=
  m.page != 3 && decide (0 < m.len) && m.va % pageBytes m.page == 0 && m.pa % pageBytes m.page == 0 && m.len % pageBytes m.page == 0 &&
  decide (m.va + m.len ≤ 2 ^ 56) &&
  !overlaps m.va m.len Config.window Config.windowSize

/-- What the Monitor asks of a mapping, whichever function it is for (R12, R15, R88, R159, R164). -/
def State.mapRules (s : State) (shadow : Option Nat) (m : Mapping) : Bool :=
  m.formOk && s.rangeOk m.pa m.len && (match shadow with | some b => !overlaps m.pa m.len b (2 ^ 30) | none => true)

/-- What the Monitor asks of a mapping of function `f`: those rules, and the function's memory share (R53, R164). -/
def State.mapOk (s : State) (f : Nat) (shadow : Option Nat) (m : Mapping) : Bool := s.mapRules shadow m && (s.fnAt f).owns m.pa m.len

/-- A mapping lies within `len` bytes from `va` on (R164, log 20). -/
def Mapping.within (m : Mapping) (va len : Nat) : Bool := decide (va ≤ m.va) && decide (m.va + m.len ≤ va + len)

/-- The Monitor's answer to a mapping request: the job's mappings after it, or what MAPSTAT shows, 1 for a rule that it breaks, and otherwise 2 for
memory that is not the function's (R164, R229, log 61). -/
def State.mapRequest (s : State) (f : Nat) (j : Job) (bs : List Byte) : Except Nat (List Mapping) :=
  let (m, attr) := mappingOf bs
  let pinned := s.fabric.groups.any (fun g => g.fn == f)
  if 2 ^ 6 ≤ attr then .error 1
  else if attr.testBit 5 then
    if pinned && j.maps.any (fun x => x.pin && x.within m.va m.len) then .error 1
    else if m.len = 0 || overlaps m.va m.len Config.window Config.windowSize then .error 1
    else .ok (j.maps.filter (fun x => !x.within m.va m.len))
  else
    let same (x : Mapping) : Bool := x.va == m.va && x.len == m.len
    if !s.mapRules j.shadow m then .error 1
    else if pinned && j.maps.any (fun x => same x && x.pin) then .error 1
    else if j.maps.any (fun x => !same x && overlaps x.va x.len m.va m.len) then .error 1
    else if !(s.fnAt f).owns m.pa m.len then .error 2
    else .ok (j.maps.filter (fun x => !same x) ++ [m])

/-- cwrite of MAPREQ: the request is read, and the Monitor changes the page tables or refuses it (R164). -/
def mapreqOp (o : SWF) : M Unit := do
  needS
  let r ← readS o.r
  let _ ← globalAddr r.word 32 .read r
  releaseAll
  let s ← get
  match readVirtual s s.core.id s.core.task.fn r.word.toNat 32 with
  | .error (c, _) => addrFault c r.word r
  | .ok (bs, s) =>
    set s
    match s.jobAt s.core.task.fn with
    | none => later (.cr 0x107 2)
    | some j =>
      match s.mapRequest s.core.task.fn j bs with
      | .error why => later (.cr 0x107 (BitVec.ofNat 64 why))
      | .ok ms => do
        set (s.modJob s.core.task.fn (fun j => { j with maps := ms }))
        later (.cr 0x107 0)

/-- The offset of the `k`-th record of type `t` in a page, or of the terminator for type 0 (R68, R287). -/
def findRecord (fuel t k : Nat) (page : List Byte) (off : Nat) : Option Nat :=
  match fuel with
  | 0 => none
  | n + 1 =>
    let ty := ofBytes (page.take 2)
    let len := ofBytes ((page.drop 2).take 2)
    let size := (4 + len + 7) / 8 * 8
    if ty = 0 then (if t = 0 then some off else none)
    else if ty = t then (if k = 0 then some off else findRecord n t (k - 1) (page.drop size) (off + size))
    else findRecord n t k (page.drop size) (off + size)

/-- capr: the address of a capability record, latency 4 (R287); a page of 64 KiB holds no more than 8,192 records. -/
def caprOp (o : SZ) : M Unit := do
  let a ← readS o.a
  let s ← get
  let page := capPage s.core.task.fn (s.fnAt s.core.task.fn).ext
  let v := match findRecord 8192 o.t.toNat (if o.t = 0 then 0 else a.word.toNat) page 0 with
    | some off => BitVec.ofNat 64 (Config.window + off)
    | none => 0
  writeS o.r v [] 4

/-- tlbinv: translations of the job for a page, or all of them, leave every TLB (R296). -/
def tlbinvOp (o : S1) : M Unit := do
  needS
  let a ← readS o.r
  modify (fun s =>
    let gone (e : TlbEntry) : Bool := e.fn == s.core.task.fn && (a.word == BitVec.allOnes 64 || e.m.covers a.word.toNat)
    let s := s.cores.foldl (fun s c => s.modCore c.id (fun c => { c with tlb := c.tlb.filter (fun e => !gone e) })) s
    { s with l2 := s.l2.filter (fun p => !gone p.2) })

/-- Br (R274). -/
def execBr (o : SB) (s : State) : Host.Outcome State Fault Refusal := finish (brOp o) s

/-- Brk (R274). -/
def execBrk (o : SC) (s : State) : Host.Outcome State Fault Refusal := finish (brkOp o) s

/-- Jmp (R274). -/
def execJmp (o : S1) (s : State) : Host.Outcome State Fault Refusal := finish (jmpOp o) s

/-- Call (R274). -/
def execCall (o : SB) (s : State) : Host.Outcome State Fault Refusal := finish (callOp o) s

/-- Callr (R274). -/
def execCallr (o : S1) (s : State) : Host.Outcome State Fault Refusal := finish (callrOp o) s

/-- Ret (R128). -/
def execRet (s : State) : Host.Outcome State Fault Refusal := finish (retOp) s

/-- Lnest (R275). -/
def execLnest (o : SL) (s : State) : Host.Outcome State Fault Refusal := finish (lnestOp o) s

/-- Lexit (R276). -/
def execLexit (s : State) : Host.Outcome State Fault Refusal := finish (lexitOp) s

/-- Acq (R277). -/
def execAcq (o : SQ) (s : State) : Host.Outcome State Fault Refusal := finish (acqOp o) s

/-- AcqF (R277). -/
def execAcqF (o : SQF) (s : State) : Host.Outcome State Fault Refusal := finish (acqfOp o) s

/-- Rel (R277). -/
def execRel (s : State) : Host.Outcome State Fault Refusal := finish (relOp) s

/-- Btree (R247). -/
def execBtree (t : Tree) (s : State) : Host.Outcome State Fault Refusal := finish (btreeOp t) s

/-- Wfe (R134). -/
def execWfe (s : State) : Host.Outcome State Fault Refusal := finish (wfeOp) s

/-- Sev (R285). -/
def execSev (o : S1) (s : State) : Host.Outcome State Fault Refusal := finish (sevOp o) s

/-- Watch (R285). -/
def execWatch (o : S1) (s : State) : Host.Outcome State Fault Refusal := finish (watchOp o) s

/-- Trap (R285). -/
def execTrap (o : SH) (s : State) : Host.Outcome State Fault Refusal := finish (later (.swtrap o.i.toNat)) s

/-- Retu (R285). -/
def execRetu (s : State) : Host.Outcome State Fault Refusal := finish (retuOp) s

/-- Cread (R286). -/
def execCread (o : SW) (s : State) : Host.Outcome State Fault Refusal := finish (creadOp o) s

/-- Cwrite (R286). -/
def execCwrite (o : SW) (s : State) : Host.Outcome State Fault Refusal := finish (cwriteOp o) s

/-- Mapreq (R164). -/
def execMapreq (o : SWF) (s : State) : Host.Outcome State Fault Refusal := finish (mapreqOp o) s

/-- Pgrant (R234). -/
def execPgrant (o : SWF) (s : State) : Host.Outcome State Fault Refusal := finish (pgrantOp o) s

/-- WatchRegister (R286). -/
def execWatchRegister (o : SWF) (s : State) : Host.Outcome State Fault Refusal := finish (watchRegOp o) s

/-- EvlatchWrite (R286). -/
def execEvlatchWrite (o : SWF) (s : State) : Host.Outcome State Fault Refusal := finish (evlatchOp o) s

/-- TrapbaseWrite (R226). -/
def execTrapbaseWrite (o : SWF) (s : State) : Host.Outcome State Fault Refusal := finish (trapbaseOp o) s

/-- LnctlWrite (R276). -/
def execLnctlWrite (o : SWF) (s : State) : Host.Outcome State Fault Refusal := finish (lnctlOp o) s

/-- Capr (R287). -/
def execCapr (o : SZ) (s : State) : Host.Outcome State Fault Refusal := finish (caprOp o) s

/-- Tlbinv (R296). -/
def execTlbinv (o : S1) (s : State) : Host.Outcome State Fault Refusal := finish (tlbinvOp o) s

/-- UnassignedOpcode (R256). -/
def execUnassignedOpcode (w : Syllable) (s : State) : Host.Outcome State Fault Refusal := finish (do setCore (fun c => { c with cur := { c.cur with syl := w } }); illegalInstr) s

end Sys2Proof.Machine
end

