-- ==== Sys2Proof/Machine/Granary.lean ====
section
/-!
DEFINITION. The Granary worklist (R92 to R112, R288): sessions, the floor and the window, push, pop, done, and termination.
-/
namespace Sys2Proof.Machine

/-! Records and sessions -/

/-- HEAD of a record (R92). -/
def Rec.head (r : Rec) : Word :=
  BitVec.ofNat 64 (r.entry + r.res.toNat * 2 ^ 48 + r.lock.toNat * 2 ^ 49 + r.user * 2 ^ 50 + r.bin * 2 ^ 54)

/-- A record from its four words (R92). -/
def recOf (w0 w1 w2 w3 : Word) (slice : Nat) : Rec :=
  { bin := bits w0.toNat 54 10, res := bit w0.toNat 48, lock := bit w0.toNat 49, user := bits w0.toNat 50 4, entry := bits w0.toNat 0 48,
    arg0 := w1, arg1 := w2, arg2 := w3, slice := slice, spilled := false }

/-- The session with a key. -/
def State.sessionAt (s : State) (uid : Nat) : Option Session := s.sessions.find? (fun x => x.uid == uid)

/-- Changes a session. -/
def State.modSession (s : State) (uid : Nat) (f : Session → Session) : State :=
  { s with sessions := s.sessions.map (fun x => if x.uid = uid then f x else x) }

/-- The lowest bin among records held and popped records not done; none where there is no such bin (R97, R107). -/
def Session.lowest (x : Session) : Option Nat :=
  (x.recs.map (fun r => r.bin) ++ x.popped.map (fun p => p.rec_.bin)).foldl
    (fun a b => match a with | none => some b | some c => some (min c b)) none

/-- The floor after a change: exact for a session of one device, which keeps its last value when empty (R97). -/
def Session.settle (x : Session) : Session :=
  if x.group ≠ 0 then x
  else
    let f := match x.lowest with | some b => max x.floor b | none => x.floor
    { x with floor := f, fc := f, fu := f }

/-- The base die of a core's slice (R10). -/
def sliceDie (coreN : Nat) : Nat := coreN / 64

/-- Records a slice holds on chip, over all open sessions; a popped record keeps its place there until it is done (R104, log 99). -/
def State.onChip (s : State) (slice : Nat) : Nat :=
  s.sessions.foldl (fun n x => n + (x.recs.filter (fun r => r.slice == slice && !r.spilled)).length +
    (x.popped.filter (fun p => p.rec_.slice == slice)).length) 0

/-- Spilled chunks of a session: 128 records of one bin of one slice each (R104). A bin with fewer is spilled whole, and the chunks of a slice's bin that
are partly filled count as one run of records, which R104 leaves open (log 119). -/
def Session.chunks (x : Session) : Nat :=
  (List.range 4).foldl (fun n sl => (List.range 1024).foldl (fun n b =>
    n + ((x.recs.filter (fun r => r.spilled && r.slice == sl && r.bin == b)).length + 127) / 128) n) 0

/-- Spills up to `n` records of a bin of a slice. -/
def spillRecs (n slice bin : Nat) (rs : List Rec) : List Rec :=
  match rs with
  | [] => []
  | r :: t =>
    if n ≠ 0 ∧ r.slice = slice ∧ r.bin = bin ∧ r.spilled = false then { r with spilled := true } :: spillRecs (n - 1) slice bin t
    else r :: spillRecs n slice bin t

/-- The highest bin above the window with records on chip in a slice (R104). -/
def Session.spillBin (x : Session) (slice : Nat) : Option Nat :=
  (x.recs.filter (fun r => r.slice == slice && !r.spilled && decide (x.fu + x.delta < r.bin))).foldl
    (fun a r => match a with | none => some r.bin | some b => some (max b r.bin)) none

/-- Finds a place for a record that goes to slice `own`: the session with room made, and the slice; none when there is no room (R104).
Of the sessions that share a full slice it is the pushing one whose bins are spilled (log 119). -/
def State.makeRoom (s : State) (uid own : Nat) : Option (State × Nat) :=
  if s.onChip own < Config.sliceRecords then some (s, own)
  else
    match s.sessionAt uid with
    | none => none
    | some x =>
      match x.spillBin own with
      | some b =>
        if x.chunks * 4096 + 4096 ≤ x.spillB then
          some (s.modSession uid (fun x => { x with recs := spillRecs 128 own b x.recs }), own)
        else none
      | none => ((List.range 4).find? (fun d => decide (s.onChip d < Config.sliceRecords))).map (fun d => (s, d))

/-- The session that a task is attached to. -/
def attached : M (Option Session) := do
  let s ← get
  return (match s.core.session with | none => none | some u => s.sessionAt u)

/-! Termination (R110, R111) -/

/-- Tells the other members of a multi-device session (R106): one packet to each device of the group. -/
def State.tellMembers (s : State) (x : Session) (op : Nat) (payload : List Byte) (selfToo : Bool) : State :=
  match s.fabric.groups.find? (fun g => g.num == x.group && g.fn == x.fn) with
  | none => s
  | some g =>
    g.members.foldl (fun s m =>
      if s.fabric.devnum = some m ∧ selfToo = false then s
      else
        let p := { s.newPacket op with
          lane := 7, cls := 2, ord := 1, aux := BitVec.ofNat 16 x.num, group := BitVec.ofNat 16 x.group, dst := BitVec.ofNat 12 m,
          payload := payload }
        s.sendMessage p x.uid) s

/-- A session ends: its graph counter falls and the root task gets event bit 1 (R110). -/
def State.endSession (s : State) (uid st : Nat) : State :=
  match s.sessionAt uid with
  | none => s
  | some x =>
    let s := s.modSession uid (fun x => { x with st := st })
    let s := match s.jobAt x.fn with | some j => s.postTask j.rootTask 1 x.num | none => s
    s.dropGraph x.fn x.gctr

/-- A session of one device that is armed and holds no record is quiescent and terminates (R96, R110). -/
def State.checkSession (s : State) (uid : Nat) : State :=
  match s.sessionAt uid with
  | none => s
  | some x =>
    if x.st = 0 ∧ x.group = 0 ∧ x.opener = none ∧ x.recs = [] ∧ x.popped = [] then s.endSession uid 1 else s

/-- A cancelled session: its records are discarded, its holders keep a mark, and steps 1 to 3 of R110 follow (R111, R112). -/
def State.cancelSession (s : State) (uid : Nat) (dead tell : Bool) : State :=
  match s.sessionAt uid with
  | none => s
  | some x =>
    if x.st ≠ 0 then s
    else
      let holders := x.popped.map (fun p => p.task)
      let mark (c : Core) : Core := if holders.contains c.task.num then { c with discarded := true } else c
      let s := s.cores.foldl (fun s c => if c.run ≠ .idle then s.modCore c.id mark else s) s
      let s := { s with dist := { s.dist with suspended := s.dist.suspended.map (fun (y : Suspended) => { y with core := mark y.core }) } }
      let s := s.modSession uid (fun x => { x with recs := [], popped := [], dead := x.dead || dead })
      let s := if tell && x.group != 0 then s.tellMembers x 0x2D [] false else s
      s.endSession uid 2

/-- The record a task holds in a session. -/
def Session.heldBy (x : Session) (task : Nat) : Option Popped := x.popped.find? (fun p => p.task == task)

/-- A held record goes back to its bin and its place, resumed, and locked if whold was in force (R103, R104). -/
def State.returnRecord (s : State) (uid task : Nat) : State :=
  match s.sessionAt uid with
  | none => s
  | some x =>
    match x.heldBy task with
    | none => s
    | some p =>
      s.modSession uid (fun x => { x with popped := x.popped.filter (fun q => q.task != task),
                                          recs := x.recs ++ [{ p.rec_ with res := true, lock := p.lock }] }.settle)

/-- A task is detached from its session `sess`, where it has one: its record returns, and an opener's leaving arms the session (R95, R96, R103). -/
def State.detachTask (s : State) (sess : Option Nat) (task : Nat) : State :=
  match sess with
  | none => s
  | some u =>
    ((s.returnRecord u task).modSession u (fun x => if x.opener = some task then { x with opener := none } else x)).checkSession u

/-- The task of a core is detached (R95). -/
def State.detach (s : State) (coreN : Nat) : State :=
  let c := s.coreAt coreN
  (s.modCore coreN (fun c => { c with session := none, discarded := false })).detachTask c.session c.task.num

/-! Balance (R109) -/

/-- The records of a session that a pop may take (R99). -/
def Session.eligible (x : Session) : List Rec := x.recs.filter (fun r => r.lock || decide (r.bin ≤ x.fu + x.delta))

/-- A member short of eligible records asks the next peer in rank for some (R109); before it has asked any it starts after rank 0, which R109 leaves
open (log 81). -/
def State.balance (s : State) (uid : Nat) : State :=
  match s.sessionAt uid with
  | none => s
  | some x =>
    if x.group = 0 ∨ x.st ≠ 0 ∨ x.asked ∨ x.lowm ≤ x.eligible.length then s
    else
      match s.fabric.groups.find? (fun g => g.num == x.group && g.fn == x.fn) with
      | none => s
      | some g =>
        let n := g.members.length
        let order := (List.range n).map (fun i => (x.lastPeer + 1 + i) % n)
        let msg (m : Nat) : Packet :=
          { s.newPacket 0x29 with
            lane := 7, cls := 2, ord := 1, aux := BitVec.ofNat 16 x.num, group := BitVec.ofNat 16 x.group, dst := BitVec.ofNat 12 m }
        let ok (k : Nat) : Bool :=
          let m := nth 0 g.members k
          s.fabric.devnum != some m && !s.fabric.closed.contains (connOf (msg m))
        match order.find? ok with
        | none => s
        | some k =>
          (s.sendMessage (msg (nth 0 g.members k)) uid).modSession uid (fun x => { x with asked := true, lastPeer := k })

/-! Instructions (R288) -/

/-- Reads the four registers of a record quad. -/
def readQuad (r : BitVec 6) : M (RegCell × RegCell × RegCell × RegCell) := do
  let a ← readS r
  let b ← readS (r + 1)
  let c ← readS (r + 2)
  let d ← readS (r + 3)
  return (a, b, c, d)

/-- Holds a push while a returning qcel is on its way whose tag its operands or the path taint name (R173, R176, R180). -/
def awaitNamed (cells : List RegCell) : M Unit := do
  let c ← core
  if (c.named (taintOf cells ||| c.order.ptaint)).isEmpty then pure () else stall

/-- wpush and wpush.f (R98, R104). -/
def pushOp (o : S2P) (f : Bool) : M Unit := do
  let (a, b, c, d) ← readQuad o.r
  let _ ← target .s o.a.toNat
  checkReg a (!bit a.word.toNat 48 && !bit a.word.toNat 49)
  let cells := [a, b, c, d]
  let answer (v : Nat) : M Unit := landReg .s o.a.toNat v cells
  match (← attached) with
  | none => answer 3
  | some x =>
    if x.st ≠ 0 then answer 3
    else
      releaseAll
      awaitNamed cells
      let s ← get
      match s.makeRoom x.uid (sliceDie s.core.id) with
      | none => if f then answer 2 else stall
      | some (s, slice) =>
        let r := recOf a.word b.word c.word d.word slice
        let clamped := decide (r.bin < x.fc)
        set (s.modSession x.uid (fun x => Session.settle { x with recs := x.recs ++ [({ r with bin := max r.bin x.fc } : Rec)], p := x.p + 1 }))
        answer (if clamped then 1 else 0)

/-- The records of one rank that come first of those that `pool` picks (R99): locked ones, whatever their slice or bin, otherwise those of the lowest
bin within the window, and of these the resumed ones if there are any. -/
def Session.firstRank (x : Session) (pool : Rec → Bool) : List Rec :=
  match x.recs.filter (fun r => r.lock) with
  | r :: rs => r :: rs
  | [] =>
    let near := x.recs.filter (fun r => decide (r.bin ≤ x.fu + x.delta) && pool r)
    let low := near.foldl (fun a r => min a r.bin) 1024
    let bin := near.filter (fun r => r.bin == low)
    match bin.filter (fun r => r.res) with | [] => bin | rs => rs

/-- The records of one rank that a pop on a slice may return next (R99): those of the own slice before those of the others. -/
def Session.candidates (x : Session) (slice : Nat) : List Rec :=
  match x.firstRank (fun r => r.slice == slice) with | [] => x.firstRank (fun _ => true) | rs => rs

/-- A record among those that a pop may return is spilled, or shares its slice and its bin, within the window, with one that is (R105). -/
def Session.awaitsRefill (x : Session) (cands : List Rec) : Bool :=
  cands.any (fun r => r.spilled ||
    (decide (r.bin ≤ x.fu + x.delta) && x.recs.any (fun q => q.spilled && q.bin == r.bin && q.slice == r.slice)))

/-- Writes a pop's code and predicate pair (R99). -/
def popResult (o : S2) (code : Nat) : M Unit := do
  landReg .s o.a.toNat code []
  landReg .k o.k.toNat (code == 0).toNat []
  landReg .k (o.k + 1).toNat (code == 2).toNat []

/-- wpop and wpop.w (R99, R105). -/
def popOp (o : S2) (wait : Bool) : M Unit := do
  let s ← get
  let task := s.core.task.num
  (List.range 4).forM (fun i => do let _ ← target .s (o.r.toNat + i))
  let _ ← target .s o.a.toNat
  match (← attached) with
  | none => popResult o 3
  | some x =>
    check (x.heldBy task).isNone
    if x.st ≠ 0 then popResult o 2
    else
      match x.candidates (sliceDie s.core.id) with
      | [] => do
        modify (fun s => s.balance x.uid)
        if wait then stall else popResult o 1
      | cands =>
        if x.awaitsRefill cands then stall
        let i ← chooseOf cands.length
        match cands[i]? with
        | none => stall
        | some r =>
          modify (fun s => s.modSession x.uid (fun x =>
            Session.settle { x with recs := x.recs.erase r, popped := x.popped ++ [{ task := task, rec_ := r, lock := false }] }))
          setCore (fun c => { c with discarded := false })
          modify (fun s => s.balance x.uid)
          landReg .s o.r.toNat r.head.toNat []
          landReg .s (o.r + 1).toNat r.arg0.toNat []
          landReg .s (o.r + 2).toNat r.arg1.toNat []
          landReg .s (o.r + 3).toNat r.arg2.toNat []
          popResult o 0
          acquireAll

/-- The held record of the task, or ILLEGAL_OPERAND; none after a cancel discarded it (R101, R102, R111). -/
def heldRecord : M (Option (Session × Popped)) := do
  let c ← core
  match (← attached) with
  | none => if c.discarded then return none else illegalOperand
  | some x =>
    match x.heldBy c.task.num with
    | some p => return some (x, p)
    | none => if c.discarded then return none else illegalOperand

/-- wdone: the record leaves the session (R101). -/
def doneOp : M Unit := do
  match (← heldRecord) with
  | none => pure ()
  | some (x, p) =>
    releaseAll
    modify (fun s => (s.modSession x.uid (fun x =>
      { x with popped := x.popped.filter (fun q => q.task != p.task), d := x.d + 1 }.settle)).checkSession x.uid)

/-- wdone.y: the record goes back to its bin with new words (R101). -/
def yieldOp (o : S1) : M Unit := do
  let (a, b, c, d) ← readQuad o.r
  match (← heldRecord) with
  | none => pure ()
  | some (x, p) =>
    releaseAll
    let r := recOf a.word b.word c.word d.word p.rec_.slice
    modify (fun s => s.modSession x.uid (fun x =>
      { x with popped := x.popped.filter (fun q => q.task != p.task),
               recs := x.recs ++ [{ r with bin := p.rec_.bin, res := true, lock := p.lock }] }.settle))

/-- whold (R102). -/
def holdOp (o : SH) : M Unit := do
  match (← heldRecord) with
  | none => pure ()
  | some (x, p) =>
    modify (fun s => s.modSession x.uid (fun x =>
      { x with popped := x.popped.map (fun q => if q.task = p.task then { q with lock := o.i == 1 } else q) }))

/-- What wfloor shows of the session that a task is attached to (R102). -/
def floorWord (x : Option Session) : Nat :=
  match x with
  | none => 3 * 2 ^ 48
  | some x => x.st * 2 ^ 48 + x.dead.toNat * 2 ^ 47 + x.fc * 2 ^ 32 + x.delta * 2 ^ 16 + x.fu

/-- wfloor: the session state, an interlocked result (R102, R121, R288). -/
def floorOp (o : S1) : M Unit := do landReg .s o.r.toNat (floorWord (← attached)) []

/-- A session descriptor is well formed in every field (R93). -/
def descriptorOk (bs : List Byte) : Bool :=
  let f (o n : Nat) : Nat := ofBytes ((bs.drop o).take n)
  f 0x0A 2 ≤ 255 && f 0x0C 2 ≤ 1023 && f 0x0E 2 ≤ 4096 && f 0x10 8 % 4096 == 0 && f 0x18 8 % 4096 == 0 &&
  (bs.drop 0x20).all (fun b => b == 0)

/-- The open session of a number in a job. -/
def State.openSession (s : State) (fn num : Nat) : Option Session :=
  s.sessions.find? (fun x => x.fn == fn && x.num == num && x.st == 0)

/-- A connection that carries messages of a multi-device session to a member is dead (R34, R106, R112). -/
def State.cutOff (s : State) (x : Session) : Bool :=
  x.group != 0 &&
  s.fabric.groups.any (fun g => g.num == x.group && g.fn == x.fn &&
    g.members.any (fun m => s.fabric.closed.contains { mcast := false, peer := m, lane := 7 }))

/-- The open sessions that are cut off are cancelled (R112). -/
def State.cutSessions (s : State) : State :=
  ((s.sessions.filter (fun x => x.st == 0 && s.cutOff x)).map (fun x => x.uid)).foldl (fun s u => s.cancelSession u true true) s

/-- The messages that have come for a number since its last session ended here (R106, log 103). -/
def State.lateFor (s : State) (fn num group : Nat) : List Packet :=
  match (s.sessions.filter (fun x => x.fn == fn && x.num == num && x.group == group && group != 0)).getLast? with | some x => x.late | none => []

/-- wjoin: attaches to the session described at an address, opening it at S level (R94); one that opens over a dead connection is cancelled at once
(R112). A share's end SPILLOFF + SPILLB must not lie above SPILL, an empty one's either (log 119). -/
def joinOp (o : S1) : M Unit := do
  let a ← readS o.r
  checkReg a (a.word.toNat % 64 == 0)
  let _ ← globalAddr a.word 64 .read a
  let s ← get
  let fn := s.core.task.fn
  match readVirtual s s.core.id fn a.word.toNat 64 with
  | .error (c, _) => addrFault c a.word a
  | .ok (bs, s) =>
    set s
    let f (o n : Nat) : Nat := ofBytes ((bs.drop o).take n)
    let num := f 6 2
    check (f 0 4 == 0x47524E59 && f 4 2 == 1 && num != 0 && s.core.session.isNone)
    match s.openSession fn num, s.jobAt fn with
    | some x, _ => setCore (fun c => { c with session := some x.uid, discarded := false })
    | none, none => illegalOperand
    | none, some j =>
      let live := s.sessions.filter (fun x => x.fn == fn && x.st == 0)
      let off := f 0x10 8
      let len := f 0x18 8
      let g := f 0x0A 2
      check (descriptorOk bs && decide (live.length < 8) && decide (off + len ≤ j.spill) &&
        live.all (fun x => len == 0 || x.spillB == 0 || !overlaps x.spillOff x.spillB off len) &&
        (j.graphs g == 0 || SMap.get 0 j.gphase g == j.phase))
      needS
      let uid := s.sessions.foldl (fun m x => max m (x.uid + 1)) 1
      let x : Session :=
        { uid := uid, num := num, fn := fn, group := f 8 2, gctr := g, delta := f 0x0C 2, lowm := (if f 0x0E 2 = 0 then 64 else f 0x0E 2),
          spillOff := off, spillB := len, opener := some s.core.task.num, st := 0, dead := false, recs := [], popped := [], floor := 0,
          fc := 0, fu := 0, p := 0, r := 0, s := 0, d := 0, wave := 0, replies := [], prev := [], committed := 0, asked := false,
          lastPeer := 0, peers := [], endedOn := [], late := s.lateFor fn num (f 8 2) }
      set (({ s with sessions := s.sessions ++ [x] } : State).modJob fn (fun j => j.bindGraph g))
      setCore (fun c => { c with session := some uid, discarded := false })
      if j.gmarks.contains g then modify (fun s => s.cancelSession uid false true)
      else if s.cutOff x then modify (fun s => s.cancelSession uid true true)

/-- A spilled record that its slice may bring back on chip: within the window, or locked (R99, R105). -/
def Session.due (x : Session) (slice : Nat) (r : Rec) : Bool := r.spilled && r.slice == slice && (r.lock || decide (r.bin ≤ x.fu + x.delta))

/-- The lowest bin of the spilled records that a slice may bring back. -/
def Session.dueBin (x : Session) (slice : Nat) : Option Nat :=
  (x.recs.filter (x.due slice)).foldl (fun a r => match a with | none => some r.bin | some b => some (min b r.bin)) none

/-- Brings up to `n` of the records that `p` picks back on chip. -/
def refillRecs (p : Rec → Bool) : Nat → List Rec → List Rec
  | 0, rs => rs
  | _, [] => []
  | n + 1, r :: t => if p r then { r with spilled := false } :: refillRecs p n t else r :: refillRecs p (n + 1) t

/-- A slice refills the lowest bin that has spilled chunks within the window, as far as it has room; a full one spills a chunk of a bin above the
window first (R104, R105). -/
def State.refillSlice (s : State) (uid slice : Nat) : State :=
  match s.sessionAt uid with
  | none => s
  | some x =>
    match x.dueBin slice with
    | none => s
    | some b =>
      let s := match s.makeRoom uid slice with | some p => p.1 | none => s
      s.modSession uid (fun y => { y with
        recs := refillRecs (fun r => x.due slice r && r.bin == b) (Config.sliceRecords - s.onChip slice) y.recs })

/-- Every slice refills (R105). -/
def State.refill (s : State) (uid : Nat) : State := (List.range 4).foldl (fun s slice => s.refillSlice uid slice) s

/-- WPUSH (R98). -/
def execWpush (o : S2P) (s : State) : Host.Outcome State Fault Refusal := finish (pushOp o false) s

/-- WPUSH_F (R98). -/
def execWpushF (o : S2P) (s : State) : Host.Outcome State Fault Refusal := finish (pushOp o true) s

/-- WPOP (R99). -/
def execWpop (o : S2) (s : State) : Host.Outcome State Fault Refusal := finish (popOp o false) s

/-- WPOP_W (R99). -/
def execWpopW (o : S2) (s : State) : Host.Outcome State Fault Refusal := finish (popOp o true) s

/-- WDONE (R101). -/
def execWdone (s : State) : Host.Outcome State Fault Refusal := finish doneOp s

/-- WDONE_Y (R101). -/
def execWdoneY (o : S1) (s : State) : Host.Outcome State Fault Refusal := finish (yieldOp o) s

/-- WHOLD (R102). -/
def execWhold (o : SH) (s : State) : Host.Outcome State Fault Refusal := finish (holdOp o) s

/-- WFLOOR (R102). -/
def execWfloor (o : S1) (s : State) : Host.Outcome State Fault Refusal := finish (floorOp o) s

/-- WJOIN (R94). -/
def execWjoin (o : S1) (s : State) : Host.Outcome State Fault Refusal := finish (joinOp o) s

/-- WLEAVE (R95). -/
def execWleave (s : State) : Host.Outcome State Fault Refusal := finish (modify (fun s => s.detach s.core.id)) s

/-- GRANARY_REFILL (R105). -/
def execGranaryRefill (session : Nat) (s : State) : Host.Outcome State Fault Refusal := deviceStep (fun s => s.refill session) s

end Sys2Proof.Machine
end

