-- ==== Sys2Proof/Machine/Work.lean ====
section
/-!
DEFINITION. Work: kernel headers, launches, task start and end, gangs, cancel, pre-emption, saves and resumes, and the S-slot forms
that ask for them (R71 to R91, R136 to R139, R261, R262, R289 to R294).
-/
namespace Sys2Proof.Machine

/-! Kernel headers (R261, R262) -/

/-- What the CM4 reads of a kernel header (R261). -/
structure KernelHeader where
  encver : Nat
  det : Bool
  caps : Nat
  steer : Nat
  drainOff : Nat
  drainN : Nat
  attic : Nat
  entry : Nat
  len : Nat
  deriving DecidableEq, Repr

/-- Field of `n` bytes at offset `o`. -/
def fieldAt (bs : List Byte) (o n : Nat) : Nat := ofBytes ((bs.drop o).take n)

/-- Bytes `o` to `o + n - 1` are zero. -/
def zeroBytes (bs : List Byte) (o n : Nat) : Bool := ((bs.drop o).take n).all (fun b => b == 0)

/-- The header check of R262; none when it fails. An empty region, DRAINN or GSFLEN of 0, passes where its offset is at most LENGTH: R262 does not say
whether one that begins beyond it lies inside (DESIGN CHOICE, log 126). -/
def parseKernel (bs : List Byte) : Option KernelHeader :=
  let f := fieldAt bs
  let len := f 0x50 8
  let drain := f 0x28 8
  let gsf := f 0x40 8
  let plan := f 0x18 8
  let ok := f 0 4 == 0x47584B31 && decide (1 ≤ f 4 2) && decide (f 4 2 ≤ 3) && decide (f 6 2 ≤ 1) && decide (f 8 2 < 64) &&
    decide (f 0x0A 1 ≤ 4) && zeroBytes bs 0x0B 1 && zeroBytes bs 0x12 6 && zeroBytes bs 0x58 40 &&
    decide (f 0x0C 1 ≤ 32) && decide (f 0x0D 1 ≤ 16) && decide (f 0x0E 1 ≤ 16) && decide (f 0x0F 1 ≤ 8) && decide (f 0x10 1 ≤ 8) &&
    decide (f 0x11 1 ≤ 8) && decide (f 0x38 8 + 4 ≤ len) &&
    (if drain = 0 then f 0x30 4 == 0 else decide (drain + 32 * f 0x30 4 ≤ len)) &&
    (if gsf = 0 then f 0x48 8 == 0 else decide (gsf + f 0x48 8 ≤ len)) && (plan == 0 || decide (plan < len))
  if ok then
    some { encver := f 4 2, det := f 6 2 == 1, caps := f 8 2, steer := f 0x0A 1, drainOff := drain, drainN := f 0x30 4,
           attic := f 0x34 4, entry := f 0x38 8, len := len }
  else none

/-! Launch records (R74, R75) -/

/-- The form of a launch record: magic, reserved fields, alignments and ranges (R74, R75). -/
def launchForm (bs : List Byte) : Bool :=
  let f := fieldAt bs
  let nest := bit (f 6 2) 0
  let worker := bit (f 6 2) 2
  let nlev := f 0x35 1
  let dep (o : Nat) : Bool := decide (f o 2 ≤ 4095) || f o 2 == 0xFFFF
  f 0 4 == 0x4C4E4348 && f 4 2 == 1 && decide (f 6 2 < 8) && f 8 8 % 128 == 0 && f 0x18 8 % 256 == 0 && f 0x20 8 % 4096 == 0 &&
  f 0x28 4 % 256 == 0 && decide (1 ≤ f 0x2C 4) && decide (f 0x2C 4 ≤ 65536) && decide (f 0x30 1 ≤ 3) && decide (f 0x31 1 ≤ 4) &&
  decide (f 0x34 1 ≤ 16) && decide (nlev ≤ 6) && (nest || nlev == 0) && decide (f 0x36 2 ≤ 4095) && decide (f 0x38 2 ≤ 255) &&
  dep 0x3A && dep 0x3C && (worker || f 0x3E 2 == 0) && decide (f 0x40 4 < 2 ^ (3 * nlev)) &&
  (if nest then decide (1 ≤ f 0x44 4) else f 0x44 4 == 0) &&
  (List.range 6).all (fun l => if l < nlev then decide (1 ≤ f (0x48 + 4 * l) 4) else f (0x48 + 4 * l) 4 == 0) && zeroBytes bs 0x60 32

/-- PERM is a permutation of 0 to NLEV - 1 (R75). -/
def permOk (perm nlev : Nat) : Bool :=
  (List.range nlev).all (fun l => (List.range nlev).any (fun p => bits perm (3 * p) 3 == l))

/-- The point count P (R78). -/
def pointCount (l : Launch) : Nat := (l.counts.take l.nlev).foldl (fun a b => a * b) 1

/-- Tasks of a launch (R78). -/
def Launch.lcount (l : Launch) : Nat := l.ngang * 2 ^ l.ganglog

/-- The coordinates of a linear point (R79). -/
def coordsFrom (l : Launch) : Nat → Nat → List (Nat × Nat)
  | 0, _ => []
  | p + 1, q =>
    let n := bits l.perm (3 * p) 3
    let c := nth 1 l.counts n
    (n, q % c) :: coordsFrom l p (q / c)

/-- Usable full pantry banks of a core: those at rung 0 or 1 (R76). -/
def State.fullBanks (s : State) (c : Nat) : Nat := ((List.range 16).filter (fun b => decide (s.rung c b ≤ 1))).length

/-- The bitmap of a core's engine (R232). -/
def State.bitmapWord (s : State) (c : Nat) : Nat := (SMap.get 0x003F s.ladders.engines c).toNat

/-- A core holds every class of a mask. -/
def State.holdsCaps (s : State) (c caps : Nat) : Bool := s.bitmapWord c &&& caps == caps

/-- A core may run tasks of a launch (R76, R81). -/
def State.eligible (s : State) (f caps pbanks c : Nat) : Bool :=
  s.powered && decide (c < 256) && (s.fnAt f).clusters.getLsbD (c / 8) && s.holdsCaps c caps && decide (pbanks ≤ s.fullBanks c)

/-- The core whose engine or pantry bank a tuning pass tests; none for a memory channel (R234). -/
def coreOfPass (r : TuneRes) : Option Nat := match r with | .channel _ => none | .engine c | .bank c _ | .rotation c | .drain c => some c

/-- A tuning pass runs on a resource of the cluster of core `c` (R234). -/
def State.passOn (s : State) (c : Nat) : Bool :=
  s.ladders.passes.any (fun r => match coreOfPass r with | some k => k / 8 == c / 8 | none => false)

/-- The Distributor places no gang on a cluster that the job grants to tuning passes; a grant outlasts its withdrawal until no pass runs there
(R234). -/
def State.granted (s : State) (f c : Nat) : Bool :=
  (match s.jobAt f with | some j => j.pgrant.getLsbD (c / 8) | none => false) || s.passOn c

/-- The aligned positions of `n` cores that all satisfy `ok` (R81). -/
def positions (n : Nat) (ok : Nat → Bool) : List Nat :=
  (List.range 256).filter (fun i => i % n == 0 && (List.range n).all (fun k => ok (i + k)))

/-! Task start (R57, R78, R80, R118) -/

/-- The context that every task start gives its core (R80, R118, R154, R178). -/
def Core.fresh (c : Core) (devid : Nat) (t : TaskId) (k : Kernel) (pc : Word) (level : Level) : Core :=
  { (((Core.reset c.id).setCtl 2 (BitVec.ofNat 64 devid))) with
    run := .running, task := t, kern := k, pc := pc, npc := pc, xfer := some { source := 0, indirect := true, checked := true }, level := level,
    cycle := c.cycle, born := c.cycle, tiles := c.tiles, tileBase := c.tileBase, tflights := c.tflights, mFree := c.mFree, drains := c.drains, reads := c.reads, tags := c.tags,
    hand := c.hand, tagged := c.tagged, bfmt := c.bfmt, carve := c.carve, tlb := c.tlb }

/-- The words with which a task finds s0 on at its start (R57, R80). -/
def Core.loadArgs (c : Core) (ws : List Word) : Core :=
  ws.zipIdx.foldl (fun c p => c.setCell (regKey 0 p.2) { val := p.1.zeroExtend 2048, taint := 0, dm := false }) c

/-- Loads control registers from pairs. -/
def Core.loadCtl (c : Core) (l : List (Nat × Nat)) : Core := l.foldl (fun c p => c.setCtl p.1 (BitVec.ofNat 64 p.2)) c

/-- The steering policy a launch or header gives (R235). -/
def steerOf (rec_ hdr : Nat) : Nat := if rec_ ≠ 0 then rec_ else if hdr ≠ 0 then hdr else 3

/-- Starts task `rank` of gang `g` of a launch on a core (R78, R80). -/
def State.startTask (s : State) (l : Launch) (g rank coreN : Nat) : State :=
  let idx := g * 2 ^ l.ganglog + rank
  let p := if l.nest then pointCount l else 0
  let beg := min (idx * l.slice) p
  let fin := min ((idx + 1) * l.slice) p
  let crd := if l.nest && beg < p then coordsFrom l l.nlev beg else []
  let t : TaskId := { num := s.dist.nextTask, fn := l.fn, root := false, launch := l.id, gang := g, rank := rank, lctr := l.lctr,
                      phase := l.phase, atticSize := (match s.jobAt l.fn with
                        | some j => (nth { attic := 0, carve := [] } j.phases l.phase).attic | none => 0), args := [l.arg] }
  let c := (s.coreAt coreN).fresh (s.fabric.devnum.getD 0xFFFF) t l.kern (BitVec.ofNat 64 (l.kern.addr + l.entry)) .u
  let c := c.loadCtl ([(0x009, l.steer), (0x010, idx), (0x011, l.lcount), (0x012, g * 8 + rank), (0x013, beg), (0x014, fin),
    (0x030, l.attic + idx * t.atticSize), (0x033, l.ctx + idx * l.ctxStride), (0x034, l.drainT), (0x035, l.drainN)] ++
    crd.map (fun x => (0x018 + x.1, x.2)))
  let s := s.putCore { c.loadArgs t.args with session := l.suid, tiles := [], tileBase := some s.fresh }
  { s with fresh := s.fresh + 12288, dist := { s.dist with nextTask := s.dist.nextTask + 1 } }

/-! Task end (R73, R294) -/

/-- Nothing of the task is outstanding (R73, R137). -/
def Core.drained (c : Core) : Bool :=
  c.order.acc.isEmpty && c.specials.isEmpty && c.steered.isEmpty && c.queues.all (fun q => q.entries.isEmpty)

/-- The first stopped queue's number and code (R231). -/
def Core.stopped (c : Core) : Option (Nat × Nat) :=
  c.queues.zipIdx.findSome? (fun p => p.1.stop.map (fun k => (p.2, k)))

/-- Every update-only line of a core is merged (R156). -/
def State.mergeAll (s : State) (n : Nat) : State := (s.coreAt n).upd.foldl (fun s u => s.mergeOf n u.line) s

/-- A suspending function whose last task has left its core is suspended (R86). -/
def State.settleSuspension (s : State) (f : Nat) : State :=
  if (s.fnAt f).st = 5 ∧ s.cores.all (fun (c : Core) => c.run == .idle || c.task.fn != f) then s.modFn f (fun (x : Fn) => { x with st := 6 }) else s

/-- Tasks of a gang (R78). -/
def State.gangSize (s : State) (g : Gang) : Nat :=
  match s.dist.launches.find? (fun l => l.id == g.launch) with | some l => 2 ^ l.ganglog | none => 1

/-- A task of a gang has ended, on core `n` where it had one: once every task of the gang has, the gang is gone and its cores become FREE; the core of
a task in no gang does so at once (R82). -/
def State.gangEnds (s : State) (t : TaskId) (n : Option Nat) : State :=
  let mine (g : Gang) : Bool := g.launch == t.launch && g.num == t.gang
  let gangs := s.dist.gangs.map (fun (g : Gang) => if mine g then { g with ended := g.ended ++ [t.rank], cores := g.cores ++ n.toList } else g)
  let (kept, gone) := gangs.partition (fun g => decide (g.ended.length < s.gangSize g))
  let freed := gone.flatMap (fun g => g.cores) ++ (if s.dist.gangs.any mine then [] else n.toList)
  { s with dist := { s.dist with busy := s.dist.busy.filter (fun c => !freed.contains c), gangs := kept } }

/-- A task that has ended leaves its core (R82). -/
def State.freeCore (s : State) (n : Nat) : State :=
  let t := (s.coreAt n).task
  ((s.modCore n Core.vacate).gangEnds t (some n)).settleSuspension t.fn

/-- A task's end reaches its counter: the launch counter, or the job counter for the root task (R72). -/
def State.countEnd (s : State) (t : TaskId) : State :=
  if t.root then (s.modJob t.fn (fun j => { j with jctr := j.jctr - 1 })).checkJob t.fn else s.dropLaunch t.fn t.lctr

/-- Ends the task of core `n`: deltas are merged, it is detached, its core is freed and its counter falls (R73, R95, R294). -/
def State.endTask (s : State) (n : Nat) : State :=
  let t := (s.coreAt n).task
  let s := (s.mergeAll n).detach n
  (s.freeCore n).countEnd t

/-- The fault a stopped queue raises at a tend or pdone, to S level, with the address and details of the queue's own (R225, R231). -/
def Core.stoppedFault (c : Core) (q code : Nat) : FaultInfo :=
  let f : FaultInfo := { c.faultOf code with slot := 0, queue := q, toS := true }
  match (c.queue q).fault with
  | some g => { f with addr := g.addr, taint := g.taint, dm := g.dm, d0 := g.d0, d1 := g.d1, d2 := g.d2 }
  | none => f

/-- A stopped queue faults the op (R231, R294). -/
def noStoppedQueue : M Unit := do
  let c ← core
  match c.stopped with | some (q, k) => throw (.fault (c.stoppedFault q k)) | none => pure ()

/-- tend: ends the task once its accesses are performed (R294). -/
def tendOp : M Unit := do
  check (!(← core).inHandler)
  noStoppedQueue
  later .endTask

/-- pdone: ends a drain stub once its accesses are performed (R137, R294). -/
def pdoneOp : M Unit := do
  check ((← core).ctl 0x36 != 0)
  noStoppedQueue
  later .leaveStub

/-! Gangs (R81, R82) -/

/-- The key under which a gang holds cores. -/
def gangKey (launch gang : Nat) : Nat := launch * 2 ^ 20 + gang

/-- Changes a gang. -/
def State.modGang (s : State) (launch gang : Nat) (f : Gang → Gang) : State :=
  { s with dist := { s.dist with gangs := s.dist.gangs.map (fun g => if g.launch = launch ∧ g.num = gang then f g else g) } }

/-- A core is FREE (R82). -/
def State.isFree (s : State) (c : Nat) : Bool := !s.dist.busy.contains c && !(s.dist.held.any (fun p => p.1 == c))

/-- A function's gangs may be admitted: its job runs, its suspended tasks have resumed (R86), and a launch that a cancel left unmarked is a launch as
any other (R83, log 100). -/
def State.admits (s : State) (f : Nat) : Bool :=
  ((s.fnAt f).st == 2 || (s.fnAt f).st == 3) && !(s.dist.suspended.any (fun x => x.core.task.fn == f))

/-- A gang has not begun its reservation: its first holds are still to be sent (R81, R82). -/
def Gang.unbegun (g : Gang) : Bool := g.st == .wait && g.b == 64

/-- A gang may begin: every lower-numbered gang of its launch has begun (R81). -/
def State.gangTurn (s : State) (g : Gang) : Bool := s.dist.gangs.all (fun h => h.launch != g.launch || g.num ≤ h.num || !h.unbegun)

/-- Of the requests that have reached the longest back-off, the one accepted earliest: it takes precedence at its position (R82). -/
def State.favoured (s : State) (g : Gang) : Bool :=
  g.b == 8192 && s.dist.gangs.all (fun h => h.b != 8192 || decide (gangKey g.launch g.num ≤ gangKey h.launch h.num))

/-- Sends holds to a position's cores: each FREE one becomes HELD, and for the favoured request one that another request holds does so as well
(R82). -/
def State.gangHold (s : State) (launch gang pos : Nat) : State :=
  match s.dist.launches.find? (fun l => l.id == launch), s.dist.gangs.find? (fun g => g.launch == launch && g.num == gang) with
  | some l, some g =>
    if g.st = .wait ∧ l.deps = [] ∧ s.admits l.fn = true ∧ s.gangTurn g = true then
      let cs := (List.range (2 ^ l.ganglog)).map (fun k => pos + k)
      let won := cs.filter (fun c => s.isFree c || (s.favoured g && !s.dist.busy.contains c))
      let s := s.modGang launch gang (fun g => { g with st := .hold pos })
      { s with dist := { s.dist with held := s.dist.held.filter (fun p => !won.contains p.1) ++ won.map (fun c => (c, gangKey launch gang)) } }
    else s
  | _, _ => s

/-- Every hold of a gang is granted. -/
def State.allHeld (s : State) (l : Launch) (gang : Nat) : Bool :=
  (s.dist.held.filter (fun p => p.2 == gangKey l.id gang)).length == 2 ^ l.ganglog

/-- Releases a gang's holds. -/
def State.releaseHolds (s : State) (launch gang : Nat) : State :=
  { s with dist := { s.dist with held := s.dist.held.filter (fun p => p.2 != gangKey launch gang) } }

/-- Every hold granted: the cores become BUSY and the tasks start (R82). -/
def State.commitGang (s : State) (launch gang : Nat) : State :=
  match s.dist.launches.find? (fun l => l.id == launch), s.dist.gangs.find? (fun g => g.launch == launch && g.num == gang) with
  | some l, some g =>
    match g.st with
    | .hold pos =>
      if s.allHeld l gang ∧ s.admits l.fn = true then
        let s := (s.releaseHolds launch gang).modGang launch gang (fun g => { g with st := .run, b := 64 })
        let cs := (List.range (2 ^ l.ganglog)).map (fun k => pos + k)
        let s := { s with dist := { s.dist with busy := s.dist.busy ++ cs } }
        cs.zipIdx.foldl (fun s p => s.startTask l gang p.2 p.1) s
      else s
    | _ => s
  | _, _ => s

/-- A refused hold: every hold granted is released, and the gang backs off (R82). -/
def State.holdRefused (s : State) (launch gang : Nat) : State :=
  (s.releaseHolds launch gang).modGang launch gang (fun g => match g.st with
    | .hold _ => { g with st := .backoff, b := min (2 * g.b) 8192 }
    | _ => g)

/-- The function of a launch; 9, of no function, where the launch is gone. -/
def State.launchFn (s : State) (launch : Nat) : Nat := match s.dist.launches.find? (fun l => l.id == launch) with | some l => l.fn | none => 9

/-- A function's job is being suspended or is suspended (R86). -/
def State.suspending (s : State) (f : Nat) : Bool := (s.fnAt f).st == 5 || (s.fnAt f).st == 6

/-- The back-off has elapsed (R82); while the job is suspended the gang stays in BACKOFF (R86). -/
def State.backoffElapsed (s : State) (launch gang : Nat) : State :=
  if s.suspending (s.launchFn launch) then s
  else s.modGang launch gang (fun g => if g.st = .backoff then { g with st := .wait } else g)

/-- A die reports its free cores, 8 bits per cluster (R81 and the text before it). -/
def State.freeReport (s : State) (die : Nat) : State :=
  let mask := ((List.range 64).filter (fun i => s.isFree (64 * die + i))).foldl (fun a i => a + 2 ^ i) 0
  { s with dist := { s.dist with reported := s.dist.reported.filter (fun p => p.1 != die) ++ [(die, mask)] } }

/-! Launch (R74 to R77, R289) -/

/-- A launch fault with a missing class mask (R76, R225). -/
def capFault {α : Type} (code missing : Nat) : M α := do
  let s ← get
  let f := s.core.faultOf code
  throw (.fault (if code = 0x21 ∨ code = 0x20 then
    { f with d0 := BitVec.ofNat 64 missing, d1 := BitVec.ofNat 64 (s.bitmapWord s.core.id), d2 := s.core.cur.syl.zeroExtend 64 } else f))

/-- The counters that a launch record waits for (R77). -/
def depsOf (bs : List Byte) : List Nat := [fieldAt bs 0x3A 2, fieldAt bs 0x3C 2].filter (fun d => d != 0xFFFF)

/-- The launch that a record of a core's task and its kernel header ask for (R74 to R77). -/
def State.launchOf (s : State) (j : Job) (bs : List Byte) (k : KernelHeader) : Launch :=
  let f := fieldAt bs
  { id := s.dist.nextLaunch, fn := s.core.task.fn, issuer := s.core.task.num, evt := bit (f 6 2) 1, worker := bit (f 6 2) 2, session := f 0x3E 2,
    suid := if bit (f 6 2) 2 then (s.openSession s.core.task.fn (f 0x3E 2)).map (fun x => x.uid) else none,
    kern := { addr := f 8 8, len := k.len, encver := k.encver, det := k.det }, entry := k.entry,
    drainT := if k.drainOff = 0 then 0 else f 8 8 + k.drainOff, drainN := k.drainN, arg := BitVec.ofNat 64 (f 0x10 8),
    ctx := f 0x18 8, ctxStride := f 0x28 4, attic := f 0x20 8, atticSize := k.attic, ngang := f 0x2C 4, ganglog := f 0x30 1,
    steer := steerOf (f 0x31 1) k.steer, caps := f 0x32 2 ||| k.caps, pbanks := f 0x34 1, lctr := f 0x36 2, gctr := f 0x38 2,
    deps := (depsOf bs).filter (fun d => j.launches d != 0), nlev := f 0x35 1, nest := bit (f 6 2) 0, perm := f 0x40 4,
    slice := f 0x44 4, counts := (List.range 6).map (fun i => f (0x48 + 4 * i) 4), phase := j.phase }

/-- What the Distributor asks of a launch beside its form (R75). -/
def State.launchOk (s : State) (j : Job) (bs : List Byte) (k : KernelHeader) : Bool :=
  let l := s.launchOf j bs k
  permOk l.perm l.nlev && (!l.nest || decide (pointCount l ≤ l.lcount * l.slice)) && j.launches l.lctr == 0 &&
    !(depsOf bs).contains l.lctr && (j.graphs l.gctr == 0 || SMap.get 0 j.gphase l.gctr == j.phase) &&
    decide (k.attic ≤ (nth { attic := 0, carve := [] } j.phases j.phase).attic) && (!l.worker || (s.openSession l.fn l.session).isSome)

/-- An accepted launch: its counters rise, and its gangs wait, or are dropped at once when its graph is being cancelled (R76, R77, R83). -/
def State.accept (s : State) (j : Job) (l : Launch) : State :=
  let s := s.modJob l.fn (fun j => { j.bindGraph l.gctr with lctr := SMap.set 0 j.lctr l.lctr l.lcount })
  let s := { s with dist := { s.dist with launches := s.dist.launches ++ [l], nextLaunch := l.id + 1 } }
  if j.gmarks.contains l.gctr then
    (s.modJob l.fn (fun j => { j with lctr := SMap.set 0 j.lctr l.lctr 1 })).dropLaunch l.fn l.lctr
  else
    let gangs : List Gang := (List.range l.ngang).map (fun g => { launch := l.id, num := g, st := .wait, b := 64, ended := [], cores := [] })
    { s with dist := { s.dist with gangs := s.dist.gangs ++ gangs } }

/-- launch: the Distributor checks the record and accepts or refuses it (R75 to R77, R289). Until it answers, the launch waits, and so does a
diversion (R86, R297). -/
def launchOp (o : S1) : M Unit := do
  let a ← readS o.r
  let s ← get
  let fn := s.core.task.fn
  if !s.core.order.acc.isEmpty || s.suspending fn then throw (.stall 3)
  match readVirtual s s.core.id fn a.word.toNat 128 with
  | .error (c, x) => addrFault c (BitVec.ofNat 64 x) a
  | .ok (bs, s) =>
    set s
    check (launchForm bs)
    match readVirtual s s.core.id fn (fieldAt bs 8 8) 128 with
    | .error (c, x) => addrFault c (BitVec.ofNat 64 x) a
    | .ok (kb, s) =>
      set s
      match parseKernel kb, s.jobAt fn with
      | some k, some j =>
        let l := s.launchOf j bs k
        check (s.launchOk j bs k)
        let n := 2 ^ l.ganglog
        if (positions n (s.eligible fn l.caps l.pbanks)).isEmpty then
          if (positions n (s.eligible fn l.caps 0)).isEmpty then capFault 0x21 l.caps else capFault 0x16 0
        set (s.accept j l)
      | _, _ => illegalOperand

/-- phase: sets the job's current phase (R90, R290). -/
def phaseOp (o : SH) : M Unit := do
  needS
  let s ← get
  match s.jobAt s.core.task.fn with
  | none => pure ()
  | some j =>
    check (decide (o.i.toNat < j.phases.length))
    set (s.modJob s.core.task.fn (fun j => { j with phase := o.i.toNat }))

/-! Cancel (R83, R84) -/

/-- `n` tasks of a launch are dropped. -/
def State.dropTasks (s : State) (f l : Nat) : Nat → State
  | 0 => s
  | n + 1 => State.dropTasks (s.dropLaunch f l) f l n

/-- A running task gets a cancel request (R83, R84), one that is leaving its core for a suspension too (R60); one whose tend has executed is not
affected (R85). -/
def Core.takesCancel (c : Core) : Bool := (c.run == .running && c.waitRun != some .ending) || c.run == .leaving

/-- Cancel requests reach the tasks that `p` picks (R83, R84). -/
def State.requestCancel (s : State) (p : TaskId → Bool) : State :=
  s.cores.foldl (fun s c => if c.takesCancel && p c.task then s.modCore c.id (fun c => { c with preempt := 2 }) else s) s

/-- The suspended tasks that `p` picks end without being resumed: each is detached, its record returned (R60, R95, R103), and its gang told (R82). -/
def State.dropSuspended (s : State) (p : TaskId → Bool) : State × List TaskId :=
  let (dead, live) := s.dist.suspended.partition (fun y => p y.core.task)
  let s : State := { s with dist := { s.dist with suspended := live } }
  (dead.foldl (fun s y => (s.detachTask y.core.session y.core.task.num).gangEnds y.core.task none) s, dead.map (fun y => y.core.task))

/-- A launch counter is marked: gangs not yet running are dropped, running tasks get a cancel request (R83, R84). -/
def State.markLaunch (s : State) (f l : Nat) : State :=
  match s.jobAt f with
  | none => s
  | some j =>
    if j.launches l = 0 then s
    else
      let s := s.modJob f (fun j => { j with lmarks := j.lmarks.filter (fun x => x != l) ++ [l] })
      match s.dist.launches.find? (fun x => x.fn == f && x.lctr == l) with
      | none => s
      | some x =>
        let (gone, kept) := s.dist.gangs.partition (fun g => g.launch == x.id && g.st != .run)
        let s := { s with dist := { s.dist with gangs := kept, held := s.dist.held.filter (fun p => p.2 / 2 ^ 20 != x.id) } }
        let mine (t : TaskId) : Bool := t.launch == x.id && !t.root && t.fn == f
        let (s, dead) := (s.requestCancel mine).dropSuspended mine
        s.dropTasks f l (gone.length * 2 ^ x.ganglog + dead.length)

/-- A graph counter is marked, with the launches and sessions beneath it (R83, R111). -/
def State.markGraph (s : State) (f g : Nat) : State :=
  match s.jobAt f with
  | none => s
  | some j =>
    if j.graphs g = 0 then s
    else
      let s := s.modJob f (fun j => { j with gmarks := j.gmarks.filter (fun x => x != g) ++ [g] })
      let ls := (s.dist.launches.filter (fun x => x.fn == f && x.gctr == g)).map (fun x => x.lctr)
      let ss := (s.sessions.filter (fun x => x.fn == f && x.gctr == g && x.st == 0)).map (fun x => x.uid)
      let s := ss.foldl (fun s u => s.cancelSession u false true) s
      ls.foldl (fun s l => s.markLaunch f l) s

/-- A phase counter is marked, with the graphs bound to it (R83). -/
def State.markPhase (s : State) (f p : Nat) : State :=
  match s.jobAt f with
  | none => s
  | some j =>
    let gs := (j.gctr.filter (fun x => SMap.get 0 j.gphase x.1 == p)).map (fun x => x.1)
    gs.foldl (fun s g => s.markGraph f g) s

/-- The job-level cancel: every counter is marked, and the root task gets a cancel request (R60, R83). -/
def State.cancelJob (s : State) (f : Nat) : State :=
  match s.jobAt f with
  | none => s
  | some j =>
    let s := (s.modFn f (fun x => { x with st := 3 })).modJob f (fun j => { j with cancelled := true })
    let root (t : TaskId) : Bool := t.fn == f && t.root
    let (s, roots) := (s.requestCancel root).dropSuspended root
    let s := (j.gctr.map (fun x => x.1)).foldl (fun s g => s.markGraph f g) s
    roots.foldl (fun s t => s.countEnd t) s

/-- A cancel instruction's counter level (R291). -/
inductive CancelLevel where
  | launch
  | graph
  | phase
  | job
  deriving DecidableEq, Repr

/-- cancel.l, cancel.g, cancel.p and cancel.j (R83, R291). In STATE 3 cancel.j marks what is non-zero by then and leaves ERR, the result of the last JOBGO
write, alone (R55, R60, log 118). -/
def cancelOp (l : CancelLevel) (o : SH) : M Unit := do
  match l with
  | .phase | .job => needS
  | _ => pure ()
  modify (fun s =>
    let f := s.core.task.fn
    match l with
    | .launch => s.markLaunch f o.i.toNat
    | .graph => s.markGraph f o.i.toNat
    | .phase => s.markPhase f o.i.toNat
    | .job => s.cancelJob f)

/-- The counter a cwait names (R251 SH, R292). -/
def Job.waited (j : Job) (i : Nat) : Nat :=
  match bits i 12 2 with
  | 0 => j.launches (i % 4096)
  | 1 => j.graphs (i % 4096)
  | 2 => j.phasesAt (i % 4096)
  | _ => j.jctr

/-- cwait: waits until the counter is zero, and acquires (R73, R292). -/
def cwaitOp (o : SH) : M Unit := do
  let s ← get
  match s.jobAt s.core.task.fn with
  | none => stall
  | some j => if j.waited o.i.toNat = 0 then acquireAll else stall

/-- The arrival counts of the members of a gang that have not ended, running or suspended (R293). -/
def State.gangArrivals (s : State) (t : TaskId) : List (Nat × Nat) :=
  let same (c : Core) : Bool := c.task.launch == t.launch && c.task.gang == t.gang && c.task.fn == t.fn && c.task.root == t.root
  (s.cores.filter (fun c => c.run != .idle && same c)).map (fun c => (c.task.num, c.arrivals)) ++
  (s.dist.suspended.filter (fun x => same x.core)).map (fun x => (x.core.task.num, x.core.arrivals))

/-- A release at cluster scope of the own pantry: no write of an M-slot operation is on its way to a pantry (R187, R193). -/
def releasePantry : M Unit := do
  let c ← core
  if c.drains.isEmpty && c.steered.all (fun x => x.bytes.isEmpty) then pure () else stall

/-- gbar (R187, R293): members of a gang whose tasks have not all started are waited for as well. -/
def gbarOp : M Unit := do
  releaseAll
  releasePantry
  let s ← get
  let c := s.core
  if (s.gangArrivals c.task).all (fun p => p.1 == c.task.num || decide (c.arrive.arrivals ≤ p.2)) then
    setCore Core.arrive
    acquireAll
  else throw (.stall 1)

/-! Pre-emption and saves (R136 to R139) -/

/-- The context header at CTXP (R136). -/
def contextHeader (rpc : Word) (reason kind flags : Nat) : List Byte :=
  toBytes 8 rpc.toNat ++ [BitVec.ofNat 8 reason, BitVec.ofNat 8 kind, BitVec.ofNat 8 flags] ++ List.replicate 53 0

/-- The stub and restore addresses of the drain table entry that matches a pc, each naming a header with L = 1 (R136). Of a table that is unsorted or has
entries that overlap it is the first such entry, where R136 allows any matching one, or none (DESIGN CHOICE, log 124). -/
def State.drainEntry (s : State) (pc : Word) : Option (Nat × Nat) :=
  let c := s.core
  let k := c.kern.addr
  (List.range (c.ctl 0x35).toNat).findSome? (fun i =>
    match readVirtual s c.id c.task.fn ((c.ctl 0x34).toNat + 32 * i) 32 with
    | .error _ => none
    | .ok (bs, s) =>
      let f := fieldAt bs
      let off := pc.toNat - k
      if k ≤ pc.toNat ∧ f 0 8 ≤ off ∧ off < f 8 8 then
        (if s.headerAt (k + f 16 8) = some true ∧ s.headerAt (k + f 24 8) = some true then some (k + f 16 8, k + f 24 8) else none)
      else none)

/-- A drain stub runs, for the first time or resumed (R137, R139): PCAUSE is its reason. -/
def Core.inStub (c : Core) : Bool := c.ctl 0x36 == 1 || c.ctl 0x36 == 2

/-- Diversion at a bundle boundary (R136): the context header is written, then the drain stub is entered or a full save is due. -/
def divertOp : M Unit := do
  let s ← get
  let c := s.core
  let reason := c.preempt
  match writeSelf s c.id c.task.fn (c.ctl 0x33).toNat (contextHeader c.pc reason 0 0) with
  | .error (_, a) => throw (.fault { c.faultOf 0x14 with slot := 0, addr := BitVec.ofNat 64 a })
  | .ok s =>
    match s.drainEntry c.pc with
    | some (stub, restore) =>
      let c := s.core.setCtl 0x36 (BitVec.ofNat 64 reason)
      set { s with core := { c.enter (BitVec.ofNat 64 stub) with
        preempt := 0, rpc := c.pc, rxfer := c.xfer, restore := BitVec.ofNat 64 restore, asleep := false, cycle := c.cycle,
        resumedStub := false } }
    | none => set { s with core := { s.core with savePend := true, rpc := c.pc, rxfer := c.xfer, asleep := false,
                                                 mFree := max c.mFree (c.cycle + 64) } }

/-- Writes bytes at a virtual address in pieces of 256. -/
def writePieces (s : State) (coreN f va : Nat) (bs : List Byte) : Nat → Except (Nat × Nat) State
  | 0 => .ok s
  | n + 1 =>
    if bs.isEmpty then .ok s
    else match writeSelf s coreN f va (bs.take 256) with
      | .error e => .error e
      | .ok s => writePieces s coreN f (va + 256) (bs.drop 256) n

/-- Registers of a file with their taint sets, as the save area holds them (R138). -/
def fileImage (c : Core) (f : File) (n : Nat) : List Byte :=
  let cells := (List.range n).map (fun i => c.cell (({ c with handler := .main, sup := false } : Core).phys f i))
  cells.flatMap (fun r => toBytes ((f.width + 7) / 8) r.val.toNat) ++ cells.flatMap (fun r => toBytes 2 r.taint.toNat)

/-- The registers' part of the save area, from offset 0x40 on (R138). -/
def saveImage (c : Core) : List Byte :=
  fileImage c .s 64 ++ fileImage c .k 16 ++ fileImage c .v 32 ++ fileImage c .w 32 ++ fileImage c .vm 8 ++ fileImage c .wm 8 ++
  fileImage c .g 16 ++ fileImage c .c 16 ++ fileImage c .d 16 ++
  (List.range 8).flatMap (fun i => toBytes 8 (c.cell (regKey 6 (56 + i))).val.toNat) ++
  (List.range 4).flatMap (fun i => toBytes 1 (c.cell (regKey 7 (12 + i))).val.toNat) ++
  (List.range 256).flatMap (fun i => toBytes 64 (SMap.get 0 c.patterns i).toNat) ++
  ((List.range 0x100).filter crWritable).flatMap (fun n => toBytes 8 (c.ctl n).toNat) ++
  c.queues.flatMap (fun q => match q.stop with
    | none => toBytes 16 q.iss
    | some k => toBytes 4 q.iss ++ toBytes 1 k ++ toBytes 3 q.entries.length ++ toBytes 4 q.stopNum ++
        toBytes 4 (match q.entries.find? (fun e => e.num == q.stopNum) with | some e => e.elem | none => 0)) ++
  c.patBank.flatMap (fun b => toBytes 1 b) ++ (List.range 16).flatMap (fun b => toBytes 1 (SMap.get 0 c.bfmt b)) ++ toBytes 1 c.tagged

/-- Bytes that a file takes in the save area (R138). -/
def fileLen (f : File) (n : Nat) : Nat := n * ((f.width + 7) / 8) + 2 * n

/-- Registers of a file from the save area: no taint, for no tag is outstanding, and D set (R138, R180). -/
def Core.loadFile (c : Core) (f : File) (n : Nat) (bs : List Byte) : Core :=
  let w := (f.width + 7) / 8
  (List.range n).foldl (fun c i => c.setCell (({ c with handler := .main, sup := false } : Core).phys f i)
    { val := BitVec.ofNat 2048 (ofBytes ((bs.drop (w * i)).take w)), taint := 0, dm := true }) c

/-- The files in the order of the save area, with their registers (R138). -/
def savedFiles : List (File × Nat) :=
  [(.s, 64), (.k, 16), (.v, 32), (.w, 32), (.vm, 8), (.wm, 8), (.g, 16), (.c, 16), (.d, 16)]

/-- Loads the files from the save area one after the other; the bytes behind them. -/
def Core.loadFiles (c : Core) (bs : List Byte) : List (File × Nat) → Core × List Byte
  | [] => (c, bs)
  | (f, n) :: r => (c.loadFile f n bs).loadFiles (bs.drop (fileLen f n)) r

/-- The registers' part of the save area read back: every file, the shadow bank, the pattern stores, the control registers and the pantry's carve
(R138, R139). A reserved format code there is not accepted and leaves the saved one (R146, log 46). -/
def Core.loadImage (c : Core) (bs : List Byte) : Core :=
  let (c, bs) := c.loadFiles bs savedFiles
  let num (o n : Nat) : Nat := ofBytes ((bs.drop o).take n)
  let put (c : Core) (key v : Nat) : Core := c.setCell key { val := BitVec.ofNat 2048 v, taint := 0, dm := true }
  let c := (List.range 8).foldl (fun c i => put c (regKey 6 (56 + i)) (num (8 * i) 8)) c
  let c := (List.range 4).foldl (fun c i => put c (regKey 7 (12 + i)) (num (64 + i) 1 % 2)) c
  let crs := (List.range 0x100).filter crWritable
  let c := crs.zipIdx.foldl (fun c p => c.setCtl p.1 (BitVec.ofNat 64 (num (68 + 16384 + 8 * p.2) 8))) c
  let q := 68 + 16384 + 8 * crs.length + 64
  { c with patterns := (List.range 256).foldl (fun m i => SMap.set 0 m i (BitVec.ofNat 512 (num (68 + 64 * i) 64))) c.patterns,
           patBank := [num q 1 % 2, num (q + 1) 1 % 2],
           bfmt := (List.range 16).foldl (fun m b => if num (q + 2 + b) 1 ≤ 10 then SMap.set 0 m b (num (q + 2 + b) 1) else m) c.bfmt, tagged := num (q + 18) 1 % 17 }

/-- Spills return entries in records of eight, the last one filled with zeros (R129, R138). -/
def retRecords (rs : List Word) : List (List Byte) :=
  let old := rs.reverse
  (List.range ((old.length + 7) / 8)).map (fun i =>
    [2, 0, 0, 0] ++ toBytes 4 80 ++ toBytes 8 0 ++ (List.range 8).flatMap (fun k => toBytes 8 (nth 0 old (8 * i + k)).toNat))

/-- The pantry bytes of a full save, free ones where a bank is changing mode (R91, R138). -/
def State.savedPantry (s : State) : List Byte × State := s.pantryRead s.core.id 0 Config.pantryBytes

/-- The bytes a full save writes: spilled frames, return entries, header, registers, tiles and pantry (R138). -/
def State.saveWrites (s : State) (reason flags : Nat) : List (Nat × List Byte) :=
  let c := s.core
  let frames := (c.frames.reverse.flatten).map (blockRecord c)
  let rets := retRecords c.rets
  let ctx := (c.ctl 0x33).toNat
  let top := (c.ctl 0x30).toNat + c.task.atticSize - (c.ctl 0x32).toNat
  [((c.ctl 0x30).toNat + (c.ctl 0x31).toNat, frames.flatten), (top - 80 * rets.length, rets.reverse.flatten),
   (ctx, contextHeader c.rpc reason 2 flags), (ctx + 0x40, saveImage c),
   (ctx + 0x10000, (List.range 768).flatMap (fun z => toBytes 4096 (c.tileAt z).toNat)),
   (ctx + 0x310000, s.savedPantry.1)]

/-- The spills of a full save fit the attic (R130, R138). -/
def Core.saveFits (c : Core) : Bool :=
  decide ((c.ctl 0x31).toNat + (c.ctl 0x32).toNat + ((c.frames.flatten).foldl (fun n b => n + recordLen b) 0) +
    80 * ((c.rets.length + 7) / 8) ≤ c.task.atticSize)

/-- A core's state once its spills are made and nothing is on its way: frames and return entries are in the attic, and no taint set names a tag
(R138, R180). -/
def Core.savedState (c : Core) : Core :=
  let n := (c.rets.length + 7) / 8
  let b := (c.ctl 0x32).toNat + 80 * n
  let fix (r : RegCell) : RegCell := if r.taint = 0 then r else { r with taint := 0, dm := true }
  let c := (c.setCtl 0x31 (c.ctl 0x31 + BitVec.ofNat 64 ((c.frames.flatten).foldl (fun n b => n + recordLen b) 0))).setCtl 0x32 (BitVec.ofNat 64 b)
  { c with spilled := c.frames ++ c.spilled, frames := [], rets := [],
           pads := if c.rets.length % 8 = 0 then c.pads else c.pads ++ [(b, 8 * n - c.rets.length)],
           regs := c.regs.map (fun p => (p.1, fix p.2)),
           queues := c.queues.map (fun (q : Queue) => { q with entries := q.entries.map (fun e =>
             { e with tag := none, taint := 0, dm := e.dm || e.taint != 0 }) }),
           order := { c.order with ptaint := 0, pdm := c.order.pdm || c.order.ptaint != 0 } }

/-- A task leaves its core saved (R86), or ends if the request was a cancel, or one waits for it (R60, R84, R85). -/
def State.leaveCore (s : State) (kind : SaveKind) (cancel : Bool) : State :=
  let c := s.core
  let cancelled := match s.jobAt c.task.fn with | some j => j.cancelled | none => false
  if cancel || c.preempt == 2 || cancelled then
    let s := s.modCore c.id (fun c => { c with queues := c.queues.map (fun q => { q with entries := [], stop := none }) })
    s.endTask c.id
  else
    let pan := s.pantry.filter (fun p => p.1 / 2 ^ 20 == c.id)
    let c' : Core := { c with preempt := 0, savePend := false, forced := false, defer := [], mark := .done, asleep := false }
    let kept : Suspended := { core := c', pantry := pan.map (fun p => (p.1 % 2 ^ 20, p.2)), kind := kind, posts := [] }
    let s : State := { s with dist := { s.dist with
      suspended := s.dist.suspended ++ [kept],
      busy := s.dist.busy.filter (fun n => n != c.id) } }
    (s.modCore c.id Core.vacate).settleSuspension c.task.fn

/-- Where a full save finds the task of a core (R138): in its drain stub, in a handler or trap, or at a bundle of its own. -/
def Core.saveKind (c : Core) : SaveKind := if c.inStub then .inStub else if c.handler != .main then .inHandler else .full

/-- The full save (R138): written whole, or not at all. -/
def fullSaveOp : M Unit := do
  let s ← get
  let c := s.core
  let kind := c.saveKind
  let reason := if kind = .inStub then (c.ctl 0x36).toNat else c.preempt
  let rpc := if kind = .inStub then c.rpc else c.pc
  let flags := (if kind = .inHandler then 1 else 0) + (if kind = .inStub then 2 else 0)
  let s := s.mergeAll c.id
  let s := { s with core := { s.core with rpc := rpc } }
  let fail (a : Nat) : M Unit :=
    if c.forced then set (s.endJob c.task.fn 3 0x14 true)
    else
      set (({ s with core := { s.core with savePend := false, preempt := reason } } : State).raise
        { c.faultOf 0x14 with slot := 0, addr := BitVec.ofNat 64 a })
  if !c.saveFits then fail 0
  else
    match (s.saveWrites reason flags).foldlM (fun s p => writePieces s c.id c.task.fn p.1 p.2 20000) s.savedPantry.2 with
    | .error (_, a) => fail a
    | .ok s => set (({ s with core := s.core.savedState } : State).leaveCore kind (reason == 2))

/-- The control registers that R118 loads at a task's start and a resumed task finds again (R139). -/
def Core.startCtl (c : Core) : List (Nat × Nat) :=
  ([0x009, 0x010, 0x011, 0x012, 0x013, 0x014, 0x018, 0x019, 0x01A, 0x01B, 0x01C, 0x01D, 0x030, 0x033, 0x034, 0x035]).map
    (fun n => (n, (c.ctl n).toNat))

/-- The core `here` at the restore address of the task that `c` holds after its stub: PCAUSE 3, EVLATCH set, registers as at task start, and what the
device keeps of a task (R80, R132, R139). -/
def Core.restored (here c : Core) (devid fresh : Nat) : Core :=
  let r := ((((here.fresh devid c.task c.kern c.restore c.level).loadCtl c.startCtl).setCtl 0x36 3).setCtl 0x26 1).setCtl 0x23 (c.ctl 0x23)
  { r.loadArgs c.task.args with
    tiles := [], tileBase := some fresh, rpc := c.rpc, rxfer := c.rxfer, restore := c.restore, session := c.session, discarded := c.discarded,
    faults := c.faults, arrivals := c.arrivals, gbars := c.gbars, events := c.events, preempt := c.preempt,
    born := here.cycle - c.since }

/-- A drain stub has ended: KIND becomes 1, and the task is suspended, ended, or restored on the same core (R137, R139). -/
def State.stubDone (s : State) : State :=
  let c := s.core
  let s := s.mergeAll c.id
  let s := match writeSelf s c.id c.task.fn ((c.ctl 0x33).toNat + 9) [1] with | .ok s => s | .error _ => s
  if c.resumedStub then
    { s with core := { s.core.restored c (c.ctl 2).toNat s.fresh with tags := [], hand := 0 }, fresh := s.fresh + 12288 }
  else s.leaveCore .stub (c.ctl 0x36 == 2)

/-- The bytes at a virtual address, read in pieces of 256; none where a page fails. -/
def readArea (s : State) (coreN f va : Nat) : Nat → Option (List Byte)
  | 0 => some []
  | n + 1 =>
    match readVirtual s coreN f va 256, readArea s coreN f (va + 256) n with
    | .ok (bs, _), some r => some (bs ++ r)
    | _, _ => none

/-- A full save of the task that `c` holds, as its bytes now stand: registers, tiles and pantry (R138, R139). -/
def State.readSave (s : State) (coreN : Nat) (c : Core) : Option (Core × SMap Byte) :=
  let ctx := (c.ctl 0x33).toNat
  match readArea s coreN c.task.fn (ctx + 0x40) 255, readArea s coreN c.task.fn (ctx + 0x10000) 12288,
        readArea s coreN c.task.fn (ctx + 0x310000) 3072 with
  | some regs, some tiles, some pan =>
    let tile (z : Nat) : BitVec 32768 := BitVec.ofNat 32768 (ofBytes ((tiles.drop (4096 * z)).take 4096))
    some ({ c.loadImage regs with tiles := (List.range 768).foldl (fun m z => SMap.put m z (tile z)) [] },
          pan.zipIdx.foldl (fun m p => SMap.set 0 m p.2 p.1) [])
  | _, _, _ => none

/-- The core `here` with a task that was saved whole: nothing of it is on its way, and its clock is this core's, by which
what was left of a pcarve's drain runs out (R91, R138, R139). -/
def Core.resumed (here c : Core) (inStub : Bool) : Core :=
  { c with carve := c.carve.map (fun d => { d with until_ := here.cycle + 1 + (d.until_ - c.cycle) }),
           id := here.id, cycle := here.cycle + 1, born := here.cycle + 1 - c.since, tlb := here.tlb, l1 := [], tags := [], hand := 0,
           flights := [], tflights := [], pflights := [], drains := [], mFree := 0, run := .running, mark := .done, resumedStub := inStub,
           queues := c.queues.map (fun (q : Queue) => { q with entries := q.entries.map (fun e => { e with cyc := here.cycle }) }) }

/-- A suspended task may resume on a core as far as tuning passes go: none runs in its cluster, and a gang's task has no place in a granted cluster
either (R234). -/
def State.mayResume (s : State) (t : TaskId) (coreN : Nat) : Bool := if t.root then !s.passOn coreN else !s.granted t.fn coreN

/-- The clock of a task's gang: that of a member which runs (R141, log 98). -/
def State.gangSince (s : State) (t : TaskId) : Option Nat :=
  (s.cores.find? (fun c => c.run != .idle && c.task.launch == t.launch && c.task.gang == t.gang && !c.task.root)).map Core.since

/-- The gang of a resumed task starts a clock of its own when none of its members runs: no read made before its suspension is joined (R141). -/
def State.forgetReads (s : State) (t : TaskId) : State :=
  match t.root, s.gangSince t with
  | true, _ | false, some _ => s
  | false, none => { s with dist := { s.dist with merged := s.dist.merged.filter (fun m => m.launch != t.launch || m.gang != t.gang) } }

/-- Installs a suspended task on a core that may have it: after a full save with everything that the save area holds, after a stub at its restore routine (R139).
A save area that no longer reads gives what was written there (log 46). -/
def State.resume (s : State) (task coreN : Nat) : State :=
  match s.dist.suspended.find? (fun x => x.core.task.num == task) with
  | none => s
  | some x =>
    if !s.mayResume x.core.task coreN then s else
    let here := s.coreAt coreN
    let dev := s.fabric.devnum.getD 0xFFFF
    let saved := (s.readSave coreN x.core).getD (x.core, x.pantry)
    let c := match x.kind with
      | .stub => { here.restored x.core dev s.fresh with tags := [], hand := 0 }
      | .inStub => here.resumed saved.1 true
      | _ => (here.resumed saved.1 false).setCtl 0x36 0
    let c := (((c.setCtl 0 (BitVec.ofNat 64 coreN)).setCtl 1 (BitVec.ofNat 64 (coreN / 8))).setCtl 2 (BitVec.ofNat 64 dev)).setCtl 0x26 1
    let c := x.posts.foldl (fun c e => { c.setCtl 0x23 (c.ctl 0x23 ||| BitVec.ofNat 64 (2 ^ e.bit)) with
      events := c.events.filter (fun y => y.bit != e.bit) ++ [e] }) c
    let pan := match x.kind with
      | .stub => s.pantry
      | _ => saved.2.foldl (fun m p => SMap.set 0 m (pantryKey coreN p.1) p.2) (s.pantry.filter (fun p => p.1 / 2 ^ 20 != coreN))
    let s := (s.forgetReads c.task).putCore { c with born := c.cycle - (s.gangSince c.task).getD 0 }
    { s with pantry := pan, fresh := s.fresh + 12288,
             dist := { s.dist with suspended := s.dist.suspended.filter (fun y => y.core.task.num != task), busy := s.dist.busy ++ [coreN] } }

/-- Launch (R289). -/
def execLaunch (o : S1) (s : State) : Host.Outcome State Fault Refusal := finish (launchOp o) s

/-- Phase (R290). -/
def execPhase (o : SH) (s : State) : Host.Outcome State Fault Refusal := finish (phaseOp o) s

/-- CancelL (R291). -/
def execCancelL (o : SH) (s : State) : Host.Outcome State Fault Refusal := finish (cancelOp .launch o) s

/-- CancelG (R291). -/
def execCancelG (o : SH) (s : State) : Host.Outcome State Fault Refusal := finish (cancelOp .graph o) s

/-- CancelP (R291). -/
def execCancelP (o : SH) (s : State) : Host.Outcome State Fault Refusal := finish (cancelOp .phase o) s

/-- CancelJ (R291). -/
def execCancelJ (o : SH) (s : State) : Host.Outcome State Fault Refusal := finish (cancelOp .job o) s

/-- Cwait (R292). -/
def execCwait (o : SH) (s : State) : Host.Outcome State Fault Refusal := finish (cwaitOp o) s

/-- Gbar (R293). -/
def execGbar (s : State) : Host.Outcome State Fault Refusal := finish (gbarOp) s

/-- Tend (R294). -/
def execTend (s : State) : Host.Outcome State Fault Refusal := finish (tendOp) s

/-- Pdone (R137). -/
def execPdone (s : State) : Host.Outcome State Fault Refusal := finish (pdoneOp) s

/-- GangHold (R82). -/
def execGangHold (launch gang pos : Nat) (s : State) : Host.Outcome State Fault Refusal := deviceStep (fun s => s.gangHold launch gang pos) s

/-- Commit (R82). -/
def execCommit (launch gang : Nat) (s : State) : Host.Outcome State Fault Refusal := deviceStep (fun s => s.commitGang launch gang) s

/-- HoldRefused (R82). -/
def execHoldRefused (launch gang : Nat) (s : State) : Host.Outcome State Fault Refusal := deviceStep (fun s => s.holdRefused launch gang) s

/-- BackoffElapsed (R82). -/
def execBackoffElapsed (launch gang : Nat) (s : State) : Host.Outcome State Fault Refusal := deviceStep (fun s => s.backoffElapsed launch gang) s

/-- FreeCoreReport (R81). -/
def execFreeCoreReport (die : Fin 4) (s : State) : Host.Outcome State Fault Refusal := deviceStep (fun s => s.freeReport die.val) s

/-- Divert (R136). -/
def execDivert (s : State) : Host.Outcome State Fault Refusal := finish (divertOp) s

/-- FullSave (R138). -/
def execFullSave (s : State) : Host.Outcome State Fault Refusal := finish (fullSaveOp) s

/-- PbudgetExpiry (R85). -/
def execPbudgetExpiry (s : State) : Host.Outcome State Fault Refusal := deviceStep (fun s => { s with core := { s.core with forced := true } }) s

/-- TaskResume (R139). -/
def execTaskResume (task core : Nat) (s : State) : Host.Outcome State Fault Refusal := deviceStep (fun s => s.resume task core) s

end Sys2Proof.Machine
end

