-- ==== Sys2Proof/Machine/Queue.lean ====
section
/-!
DEFINITION. Engine commands: their checks at issue and their entries (R348 to R366), queue control (R359, R369 to R372), and the stop of
a queue (R153, R231).
-/
namespace Sys2Proof.Machine

/-! Issue (R190, R191, R349 to R351) -/

/-- The queue of an engine command (R349). -/
def QOp.home (op : QOp) : Nat := match op with | .copy => 0 | .gath | .scat => 1 | .dec => 2 | _ => 3

/-- Reads a command group of `n` registers (R349). -/
def readGroupC (o : CQ) (n : Nat) : M (List RegCell) := (List.range n).mapM (fun i => readReg (cFile o.v) (o.r.toNat + i))

/-- An entry to be filled in. -/
def Entry.blank : Entry :=
  { num := 0, op := .marker, group := [], nest := { run := 0, levels := [] }, j := true, ev := false, after := [], started := false,
    elem := 0, fmts := [], past := [], sent := false, ptag := 0, failed := [], mates := [], mask := 0, key := none, tag := none, id := 0, cyc := 0, clean := false,
    answer := [], own := false, taint := 0,
    dm := false, pc := 0 }

/-- Puts an entry at the end of queue `q` under its number (R351). -/
def Core.enqueue (c : Core) (q : Nat) (e : Entry) : Core :=
  c.modQueue q (fun x => { x with entries := x.entries ++ [{ e with num := x.iss, pc := c.pc, cyc := c.cycle }], iss := (x.iss + 1) % 2 ^ 32 })

/-- A full queue holds the bundle (R166, R349). -/
def roomIn (q : Nat) : M Unit := do
  if Config.queueEntries ≤ ((← core).queue q).entries.length then stall

/-- The accesses that an entry's start waits for: those of its issue mask (R191) and those its operands' taints name (R176). -/
def Order.beforeEntry (o : Order) (mask taint : BitVec 16) : List Nat :=
  (o.acc.filter (fun x =>
    mask.getLsbD x.cls || (match x.tag with | some t => taint.getLsbD t | none => false) || (taint.getLsbD 15 && x.kind.returns))).map
    (fun x => x.id)

/-- What an entry's start waits for: such accesses, and the returning qcels that its operands' taints name (R173, R176, R180, R191). -/
def Core.beforeEntry (c : Core) (mask taint : BitVec 16) : List Nat := c.order.beforeEntry mask taint ++ c.named taint

/-- Places an engine command (R190, R191, R349); it takes a number among the accesses, by which later ones may wait for it (R176). -/
def placeEntry (op : QOp) (o : CQ) (cells : List RegCell) (nest : NestDesc) (key tag : Option Nat) : M Unit :=
  setCore (fun c =>
    let mask := o.m.getD 0xFFFF
    let next : Core := { c with order := { c.order with nextId := c.order.nextId + tag.toList.length } }
    next.enqueue op.home { Entry.blank with
      op := op, group := cells.map (fun r => r.word), nest := nest, j := o.nj == 0, ev := o.ev == 1,
      after := c.beforeEntry mask (taintOf cells ||| c.order.ptaint), mask := mask, key := key, tag := tag, id := c.order.nextId,
      taint := taintOf cells, dm := dmOf cells })

/-- A global engine address. -/
def isGlobal (w : Word) : Bool := match engineLoc 0 w with | some (.glob _) => true | _ => false
/-- A pantry engine address. -/
def isPantry (w : Word) : Bool := match engineLoc 0 w with | some (.pan _ _) => true | _ => false
/-- A remote address (R348). -/
def isRemote (w : Word) : Bool := decide (w.toNat < 2 ^ 56)

/-- A nest descriptor with its reserved bytes zero and its counts in range (R352). -/
def nestOf (bs : List Byte) : Option NestDesc :=
  let f (o n : Nat) : Nat := ofBytes ((bs.drop o).take n)
  let n := f 4 1
  let level (l : Nat) : Nat × Int × Int := (f (0x10 + 16 * l) 4, lane2int 32 (f (0x14 + 16 * l) 4), lane2int 32 (f (0x18 + 16 * l) 4))
  let ok := decide (1 ≤ f 0 4) && decide (f 0 4 ≤ 2 ^ 20) && decide (n ≤ 6) && f 5 11 == 0 &&
    (List.range 6).all (fun l =>
      if l < n then f (0x10 + 16 * l) 4 != 0 && f (0x1C + 16 * l) 4 == 0 else f (0x10 + 16 * l) 4 == 0 && f (0x1C + 16 * l) 4 == 0)
  if ok then some { run := f 0 4, levels := (List.range n).map level } else none

/-- Faults ILLEGAL_OPERAND for the first register of a group whose condition does not hold (R225). -/
def checkGroup (cells : List RegCell) (ok : List Bool) : M Unit :=
  (cells.zip ok).forM (fun p => checkReg p.1 p.2)

/-- qcopy: both 64-byte halves of its descriptor are checked as pantry addresses (R144, R352). -/
def qcopyOp (o : CQ) : M Unit := do
  let cells ← readGroupC o 3
  roomIn 0
  let w (i : Nat) : Word := (nth RegCell.zero cells i).word
  checkGroup cells [(engineLoc 0 (w 0)).isSome, (engineLoc 0 (w 1)).isSome]
  let a ← pantryAddr (w 2) 64 (nth RegCell.zero cells 2)
  let _ ← pantryAddr (w 2 + 64) 64 (nth RegCell.zero cells 2)
  match nestOf (← readOwn a 128) with
  | none => illegalOperand
  | some n => placeEntry .copy o cells n none none

/-- qgath and qscat (R354). -/
def qrowsOp (op : QOp) (o : CQ) : M Unit := do
  let cells ← readGroupC o 4
  roomIn 1
  let w (i : Nat) : Word := (nth RegCell.zero cells i).word
  checkGroup cells [(engineLoc 0 (w 0)).isSome, isPantry (w 1), (w 2).toNat % 4 == 0 && decide ((w 2).toNat < 2 ^ 20),
    bits (w 3).toNat 0 16 != 0 && bits (w 3).toNat 16 16 != 0]
  placeEntry op o cells { run := 0, levels := [] } none none

/-- BASE, SIZE and RST of a RING word (R358). -/
def ringFields (w : Word) : Nat × Nat × Bool := (bits w.toNat 0 20, bits w.toNat 20 20, bit w.toNat 40)

/-- The relations of a ring (R358). -/
def ringOk (base size : Nat) : Bool :=
  size % 256 == 0 && decide (256 ≤ size) && decide (size ≤ 0xC000) && base % 256 == 0 &&
  decide (base % Config.bankBytes + size ≤ Config.bankBytes) && decide (base < Config.pantryBytes)

/-- qdec (R358). -/
def qdecOp (o : CQ) : M Unit := do
  let cells ← readGroupC o 3
  roomIn 2
  let w (i : Nat) : Word := (nth RegCell.zero cells i).word
  let (base, size, rst) := ringFields (w 1)
  checkGroup cells [isGlobal (w 0) && (w 0).toNat % 32 == 0, bits (w 1).toNat 41 23 == 0 && (!rst || ringOk base size),
    decide (1 ≤ (w 2).toNat) && decide ((w 2).toNat ≤ 65535)]
  placeEntry .dec o cells { run := 0, levels := [] } none none

/-- The control word's own checks (R360). -/
def ctlOk (ctl : Word) (cel : Bool) : Bool :=
  let x := ctl.toNat
  bits x 56 8 == 0 && bits x 39 1 == 0 && (cel || (bits x 40 16 == 0 && bits x 36 3 == 0)) && bits x 12 16 != 0

/-- The checks of LOC, REM, CTL and LEN (R361). -/
def moveOk (loc rem ctl len : Word) : List Bool :=
  let size := 2 ^ bits ctl.toNat 34 2
  [(engineLoc 0 loc).isSome, isRemote rem && rem.toNat % size == 0, ctlOk ctl false,
   decide (1 ≤ len.toNat) && decide (len.toNat ≤ 2 ^ 23) && len.toNat % size == 0]

/-- qput, qget, qputs and qputm (R361 to R363). -/
def qmoveOp (op : QOp) (o : CQ) : M Unit := do
  let cells ← readGroupC o (match op with | .puts => 5 | .putm => 6 | _ => 4)
  roomIn 3
  let w (i : Nat) : Word := (nth RegCell.zero cells i).word
  checkGroup cells (moveOk (w 0) (w 1) (w 2) (w 3) ++ (match op with
    | .puts => [isRemote (w 4) && (w 4).toNat % 8 == 0]
    | .putm => [isRemote (w 4) && (w 4).toNat % 8 == 0, isGlobal (w 5) && (w 5).toNat % 8 == 0]
    | _ => []))
  placeEntry op o cells { run := 0, levels := [] } none none

/-- qcel (R364, R365): a returning one holds its register and a tag. -/
def qcelOp (o : CQ) : M Unit := do
  let cells ← readGroupC o 4
  roomIn 3
  let w (i : Nat) : Word := (nth RegCell.zero cells i).word
  let op := 0x10 + bits (w 1).toNat 36 3
  checkGroup cells [isRemote (w 0), ctlOk (w 1) true && celAuxOk op (bits (w 1).toNat 40 16), isGlobal (w 2) && (w 2).toNat % 8 == 0,
    isGlobal (w 3)]
  if celReturns op then
    let key ← target (cFile o.v) o.r.toNat
    let tag := (← core).newTag
    placeEntry .cel o cells { run := 0, levels := [] } (some key) (some tag)
  else placeEntry .cel o cells { run := 0, levels := [] } none none

/-- qcoll, with ROLE as its form says (R366). -/
def qcollOp (dest : Bool) (o : CQ) : M Unit := do
  let cells ← readGroupC o 5
  roomIn 3
  let g := cells.map (fun r => r.word)
  let k := collOf g
  let ctl := (nth 0 g 2).toNat
  let s ← get
  checkGroup cells [(engineLoc 0 k.src).isSome, (if dest then (engineLoc 0 k.dst).isSome else isRemote k.dst),
    k.role == dest && decide (k.op ≤ 8) && k.mode != 3 && (k.op == 0 || k.mode == 0) && bits ctl 35 1 == 0 && bits ctl 53 11 == 0 &&
      k.group != 0 && (!dest || (match s.fabric.devnum with | none => true | some n => n == k.dev)),
    decide (k.t0 ≤ k.t1) && decide (k.t1 ≤ k.t),
    bits (nth 0 g 4).toNat 48 16 == 0 && decide (1 ≤ k.t) && (!dest || decide (1 ≤ k.nc))]
  if k.op = 0 ∧ k.mode = 2 ∧ s.core.kern.det then
    let r := nth RegCell.zero cells 2
    throw (.fault { s.core.faultOf 0x23 with taint := r.taint, dm := r.dm })
  placeEntry (if dest then .collTo else .collFrom) o cells { run := 0, levels := [] } none none

/-! Queue control (R359, R369 to R372) -/

/-- The entry that stopped a queue. -/
def Queue.stopped (q : Queue) : Option Entry :=
  match q.stop with | none => none | some _ => q.entries.find? (fun e => e.num == q.stopNum)

/-- qfence: one entry in each named queue (R192, R369). -/
def qfenceOp (o : CWF) : M Unit := do
  check (o.qm != 0)
  let qs := (List.range 4).filter (fun q => o.qm.getLsbD q)
  qs.forM roomIn
  setCore (fun c =>
    let mates := qs.flatMap (fun q => (c.queue q).entries.map (fun e => (q, e.num)))
    qs.foldl (fun c q => c.enqueue q { Entry.blank with op := .fence, mates := mates }) c)

/-- The place of an entry number in issue order, counted from the oldest number still in use. -/
def Queue.age (q : Queue) (n : Nat) : Nat := (n + 2 ^ 32 - q.iss) % 2 ^ 32

/-- A number in the range of the latest DISCARD (R370). -/
def Queue.discarded (q : Queue) (n : Nat) : Bool :=
  q.discCode != 0 && decide ((n + 2 ^ 32 - q.discLo) % 2 ^ 32 ≤ (q.discHi + 2 ^ 32 - q.discLo) % 2 ^ 32)

/-- qwait (R192, R370). -/
def qwaitOp (o : CW) : M Unit := do
  let r ← readReg (cFile o.v) o.r.toNat
  let q := (← core).queue o.q.toNat
  let done (v : Nat) : M Unit := do
    writeReg (cFile o.v) o.r.toNat v [r] 1
    acquireAll
  if r.word = BitVec.allOnes 64 then
    if q.entries.isEmpty then done 0
    else match q.stop with
      | some k => done k
      | none => stall
  else
    let n := r.word.toNat % 2 ^ 32
    checkReg r (decide (n < q.iss))
    if q.discarded n then done q.discCode
    else if !(q.entries.any (fun e => e.num == n)) then done 0
    else match q.stop with
      | some k => if q.age q.stopNum ≤ q.age n then done k else stall
      | none => stall

/-- qstat (R371). -/
def qstatOp (o : CW) : M Unit := do
  let r ← readReg (cFile o.v) o.r.toNat
  let c ← core
  let q := c.queue o.q.toNat
  let item := r.word.toNat
  checkReg r (decide (item ≤ 4) && (o.q == 2 || (item != 2 && item != 3)))
  let v : Nat := match item with
    | 0 => q.entries.length + (match q.stop with | some k => 2 ^ 40 + k * 2 ^ 32 | none => 0)
    | 1 => q.iss
    | 2 => c.ring.pi % 2 ^ 32
    | 3 => c.ring.ci % 2 ^ 32
    | _ => match q.stopped with | some e => e.num * 2 ^ 32 + e.elem | none => 0
  writeReg (cFile o.v) o.r.toNat v [] 4

/-- The action of a qirq (R372). -/
inductive QAction where
  | restart
  | discard
  | mark
  deriving DecidableEq, Repr

/-- The reductions of entries that are no more; their packets stay until they are acknowledged (R34). -/
def State.forget (s : State) (core : Nat) (nums : List Nat) : State :=
  let mine (r : Reduction) : Bool := match r.entry with | some e => e.1 == core && nums.contains e.2 | none => false
  { s with fabric := { s.fabric with
      reds := (s.fabric.reds.filter (fun r => !mine r || r.bad || r.late)).map (fun r => if mine r then { r with entry := none, runs := [] } else r) } }

/-- A returning qcel lets go of its register and its tag: the register takes a value with the entry's taint, or with none after a tclr, and the tag is
freed (R181, R365). -/
def Core.landEntry (c : Core) (e : Entry) (v : Nat) (dm : Bool) : Core :=
  let strip (x : Entry) : Entry := if x.num = e.num ∧ x.op = .cel then { x with key := none, tag := none } else x
  let c := { c with queues := c.queues.map (fun (q : Queue) => { q with entries := q.entries.map strip }) }
  let own : BitVec 16 := match e.tag with | some t => BitVec.ofNat 16 (2 ^ t) | none => 0
  let cell : RegCell := { val := BitVec.ofNat 2048 v, taint := if e.clean then 0 else e.taint ||| own, dm := !e.clean && dm }
  let c := match e.key with | some k => c.landCell k cell | none => c
  match e.tag with | some t => c.freeTag t | none => c

/-- A returning qcel gives up its register: its tag is freed and the register is undefined (R365). -/
def State.releaseKey (s : State) (e : Entry) : State :=
  if e.key.isSome || e.tag.isSome then
    { s with core := s.core.landEntry e ((Config.freeBits s.fresh).toNat % 2 ^ 64) e.dm, fresh := s.fresh + 1 }
  else s

/-- qirq, whose register holds the action of its form (R372). -/
def qirqOp (a : QAction) (o : CW) : M Unit := do
  let r ← readReg (cFile o.v) o.r.toNat
  checkReg r (r.word == (match a with | .restart => 0 | .discard => 1 | .mark => 2))
  let qn := o.q.toNat
  let q := (← core).queue qn
  match a with
  | .restart => if q.stop.isSome then setCore (fun c => c.modQueue qn (fun q => { q with stop := none }))
  | .discard =>
    match q.stop with
    | none => pure ()
    | some k =>
      let gone := q.entries.filter (fun e => decide (q.age q.stopNum ≤ q.age e.num))
      let nums := gone.map (fun e => e.num)
      let drop (q : Queue) : Queue :=
        { q with entries := q.entries.filter (fun e => !nums.contains e.num), stop := none, discLo := q.stopNum,
                 discHi := (q.iss + 2 ^ 32 - 1) % 2 ^ 32, discCode := k }
      modify (fun s =>
        let s := gone.foldl State.releaseKey s
        let s := if qn = 3 then s.forget s.core.id nums else s
        { s with core := s.core.modQueue qn drop })
  | .mark => do
    roomIn qn
    setCore (fun c => c.enqueue qn { Entry.blank with op := .marker, ev := true })

/-- What the bundle's earlier qacks give back (R359). -/
def Core.given (c : Core) : Nat := (c.defer.map (fun e => match e with | .give n => n | _ => 0)).sum

/-- qack: the bytes of a bundle's qacks together may not take CI past PI (R359). -/
def qackOp (o : CWA) : M Unit := do
  let r ← readReg (cFile o.v) o.r.toNat
  let c ← core
  check (o.q == 2)
  checkReg r (r.word.toNat % 256 == 0 && decide (c.given + r.word.toNat ≤ c.ring.pi - c.ring.ci))
  later (.give r.word.toNat)

/-! The stop of a queue (R153, R231) -/

/-- A fault of an entry of queue `q` (R225). Its TAINT and D mark are zero, though the entry keeps those of its command's registers: the spec does not say
that a queue's fault is one of a register (DESIGN CHOICE, log 125). -/
def Core.entryFault (c : Core) (q : Nat) (e : Entry) (code : Nat) : FaultInfo :=
  { c.faultOf code with slot := 7, kind := 2, queue := q, pc := e.pc }

/-- Writes a queue fault's record and counts it (R225, R231); none when a supervisor record cannot be written. With neither a user nor a supervisor record
area nothing is recorded. -/
def State.queueRecord (s : State) (q : Nat) (f : FaultInfo) : Option State :=
  let c := s.core
  let bs := recordBytes f (c.handler == .user) (c.faults + 1)
  let counted (s : State) : State := { s with core := { s.core with faults := s.core.faults + 1 } }
  let base := (c.ctl 0x20).toNat
  let sup : Option State :=
    match s.jobAt c.task.fn with
    | none => some s
    | some j =>
      if j.srec = 0 then some s
      else match writeVirtual s c.id c.task.fn (j.srec.toNat + 320 * c.id + 64 * (q + 1)) bs with
        | .ok s => some (counted s)
        | .error _ => none
  if base = 0 then sup
  else match writeVirtual s c.id c.task.fn (base + 0x440 + 64 * q) bs with
    | .ok s => some (counted s)
    | .error _ => sup

/-- A queue has stopped at this entry or at an older one: a failure here is met again when the queue runs on (R153). -/
def Queue.stoppedBy (x : Queue) (num : Nat) : Bool := x.stop.isSome && decide (x.age x.stopNum ≤ x.age num)

/-- The core in focus leaves the wait of a tend or pdone for the fault of a stopped queue, precise at it (R231). -/
def State.breakWait (s : State) (q code : Nat) : State :=
  let c := { s.core with run := .running, waitRun := none, pc := s.core.endPc, npc := s.core.endPc }
  ({ s with core := c }).raise (c.stoppedFault q code)

/-- Queue `q` of the core in focus stops at an element of an entry (R153, R231). A deferred fault or a trap due at the boundary goes before the fault
that a waiting tend or pdone then raises (R228). A failure that is met at an entry which has stopped already, or which an older stop has set back, keeps
the first one's record and takes a lower element as the one to go on from (R350, R372; DEDUCED, log 125). -/
def State.stopQueue (s : State) (q num elem : Nat) (f : FaultInfo) : State :=
  let back (y : Entry) : Entry :=
    if y.num = num then { y with elem := if y.started || y.sent then elem else min y.elem elem, started := false, sent := false } else y
  match (s.core.queue q).entries.find? (fun e => e.num == num) with
  | none => s
  | some e =>
    if (s.core.queue q).stoppedBy num then
      { s with core := s.core.modQueue q (fun x => { x with entries := x.entries.map back }) }
    else
    let s := s.releaseKey e
    let s := if q = 3 then s.forget s.core.id [num] else s
    let halt (x : Queue) : Queue := { x with stop := some f.code, stopNum := num, entries := x.entries.map back, fault := some f }
    let s := { s with core := s.core.modQueue q halt }
    match s.queueRecord q f with
    | none => s.endJob s.core.task.fn 3 f.code true
    | some s =>
      let s := s.post s.core.id 0 q
      if (s.core.run = .ending ∨ s.core.run = .leaving) ∧ s.core.dueFault = none ∧ s.core.trapDue = false then s.breakWait q f.code else s

/-- Changes entry `num` of queue `q` of the core in focus. -/
def State.modEntry (s : State) (q num : Nat) (f : Entry → Entry) : State :=
  { s with core := s.core.modQueue q (fun x => { x with entries := x.entries.map (fun e => if e.num = num then f e else e) }) }

/-- Runs elements `i` on of an entry: the state after the last that succeeded, and the first that failed with its fault. -/
def runElems (go : State → Nat → Except FaultInfo State) (s : State) : Nat → Nat → State × Option (Nat × FaultInfo)
  | 0, _ => (s, none)
  | n + 1, i => match go s i with
    | .error f => (s, some (i, f))
    | .ok s => runElems go s n (i + 1)

end Sys2Proof.Machine
end

