-- ==== Sys2Proof/Machine/Engine.lean ====
section
/-!
DEFINITION. What the entries of q0, q1 and q2 do (R148, R353 to R358).
-/
namespace Sys2Proof.Machine

/-! Copy (R148, R353) -/

/-- Runs of a nest (R353). -/
def NestDesc.runs (n : NestDesc) : Nat := n.levels.foldl (fun a l => a * l.1) 1

/-- The source and destination offsets of run `i`, level 0 fastest (R353). -/
def nestOffsets (ls : List (Nat × Int × Int)) (i : Nat) : Int × Int :=
  match ls with
  | [] => (0, 0)
  | l :: r =>
    let k : Int := (i % l.1 : Nat)
    let o := nestOffsets r (i / l.1)
    (k * l.2.1 + o.1, k * l.2.2 + o.2)

/-- The engine addresses of an entry's group word. -/
def Entry.loc (e : Entry) (cluster i : Nat) : ELoc := (engineLoc cluster (nth 0 e.group i)).getD (.glob 0)

/-- The ends of run `i` of a copy. -/
def copyEnds (s : State) (e : Entry) (i : Nat) : ELoc × ELoc :=
  let o := nestOffsets e.nest.levels i
  ((e.loc s.core.cluster 0).shift o.1, (e.loc s.core.cluster 1).shift o.2)

/-- The format of bank `b` of core `c` that an entry took at its start (R353, R374). -/
def Entry.fmtAt (e : Entry) (c b : Nat) : Nat := if b < 16 then SMap.get 0 e.fmts (16 * c + b) else 0

/-- The formats of the banks of the cluster of the core in focus, as an entry that starts takes them (R353, R374). -/
def State.formats (s : State) : SMap Nat :=
  (List.range 128).foldl (fun m i => SMap.set 0 m (128 * s.core.cluster + i) (s.fmtAt (8 * s.core.cluster + i / 16) (i % 16))) []

/-- The bank formats that run `i` of a copy converts between, if it converts (R353). -/
def copyFmts (s : State) (e : Entry) (i : Nat) : Nat × Nat :=
  match copyEnds s e i with
  | (.pan c a, .pan d b) =>
    let x := e.fmtAt c (a / Config.bankBytes)
    let y := e.fmtAt d (b / Config.bankBytes)
    if x ≠ y ∧ x ≠ 0 ∧ y ≠ 0 then (x, y) else (0, 0)
  | _ => (0, 0)

/-- The fault of a pantry range that must lie in one bank (R353, R354). -/
def State.oneBank (s : State) (f : FaultInfo) (l : ELoc) (n : Nat) : Option FaultInfo :=
  match l with
  | .glob _ => none
  | .pan c a =>
    match s.panCode c 2 a (min n (Config.bankBytes - a % Config.bankBytes)) with
    | some e => some (s.pantryFault f e.1 c e.2 1)
    | none => if Config.bankBytes < a % Config.bankBytes + n then some (s.pantryFault f 0x15 c a 1) else none

/-- A run at an end of format `w` starts where R353 lets it. -/
def runStartOk (fmt run : Nat) (l : ELoc) : Bool :=
  match l with
  | .glob _ => true
  | .pan _ a =>
    let k := a % Config.bankBytes * 8
    k % fmtBits fmt == 0 && (!isMx fmt || (k / fmtBits fmt % 32 == 0 && run % 32 == 0))

/-- The end of run `i` that breaks the rule of conversions, its source first (R353). -/
def badEnd (s : State) (e : Entry) (i : Nat) : Option ELoc :=
  let w := copyFmts s e i
  let x := copyEnds s e i
  if w = (0, 0) then none
  else if !runStartOk w.1 e.nest.run x.1 then some x.1
  else if !runStartOk w.2 e.nest.run x.2 then some x.2
  else none

/-- The bytes of one end of a run: those of its elements and their scales in format `fmt` where it converts, `run` bytes otherwise (R147, R353). -/
def State.endSpans (s : State) (run fmt : Nat) (l : ELoc) : List (ELoc × Nat) :=
  match l with
  | .glob _ => [(l, run)]
  | .pan c a =>
    if fmt = 0 then [(l, run)]
    else
      let p := s.elemSpan c (a / Config.bankBytes) fmt (a % Config.bankBytes * 8 / fmtBits fmt) run
      (.pan c p.1.1, p.1.2) :: p.2.toList.map (fun k => (.pan c k.1, k.2))

/-- The bytes of the source and of the destination of run `i`, in the formats of that run (R353). -/
def runSpans (s : State) (e : Entry) (i : Nat) : List (ELoc × Nat) × List (ELoc × Nat) :=
  let x := copyEnds s e i
  let w := copyFmts s e i
  (s.endSpans e.nest.run w.1 x.1, s.endSpans e.nest.run w.2 x.2)

/-- Where the bytes of two lists of ranges meet. -/
def spansMeet (xs ys : List (ELoc × Nat)) : List (ELoc × Nat) :=
  xs.flatMap (fun x => ys.flatMap (fun y => (ELoc.meet x.1 x.2 y.1 y.2).toList))

/-- An entry with the formats that its run `j` took: those of the start that performed it (R372). -/
def Entry.atRun (e : Entry) (j : Nat) : Entry :=
  match e.past.find? (fun p => decide (j < p.1)) with | some p => { e with fmts := p.2 } | none => e

/-- The parts of run `i` that overlaps leave undefined: its source and destination meeting, and either meeting an earlier run's destination, as that
run was performed (R353, R372). -/
def runOverlaps (s : State) (e : Entry) (i : Nat) : List (ELoc × Nat) :=
  let x := runSpans s e i
  spansMeet x.1 x.2 ++ (List.range i).flatMap (fun j => spansMeet (x.1 ++ x.2) (runSpans s (e.atRun j) j).2)

/-- Elements read from a bank as values, or the fault of an element past the bank's last (R147). -/
def readRunValues (s : State) (f : FaultInfo) (fmt c a run : Nat) : Except FaultInfo (List FpVal × State) :=
  let b := a / Config.bankBytes
  let i := a % Config.bankBytes * 8 / fmtBits fmt
  if elemCount fmt (s.usableAt c b) < i + run then .error (s.pantryFault f 0x15 c a 1)
  else
    let r := s.readElems none c b fmt i run
    .ok (r.1.map (fun x => elemValue fmt x.1 x.2), r.2)

/-- Values written to a bank as elements of its format, MX blocks with their scales (R148, R204). -/
def writeRunValues (s : State) (f : FaultInfo) (fmt c a : Nat) (vs : List FpVal) : Except FaultInfo State :=
  let b := a / Config.bankBytes
  let w := fmtBits fmt
  let i := a % Config.bankBytes * 8 / w
  if elemCount fmt (s.usableAt c b) < i + vs.length then .error (s.pantryFault f 0x15 c a 1)
  else if isMx fmt then
    let blocks := (List.range (vs.length / 32)).map (fun k => quantize fmt ((vs.drop (32 * k)).take 32))
    let s := s.pantryWrite c a (toBytes (vs.length * w / 8) (ofLanes w (blocks.flatMap (fun q => q.2))))
    .ok (s.pantryWrite c (s.scaleAddr c b fmt i) (blocks.map (fun q => BitVec.ofNat 8 q.1)))
  else .ok (s.pantryWrite c a (toBytes (vs.length * w / 8) (ofLanes w (vs.map (elemCode fmt 0)))))

/-- Run `i` of a copy (R353). -/
def copyRun (f : FaultInfo) (e : Entry) (s : State) (i : Nat) : Except FaultInfo State :=
  let x := copyEnds s e i
  let run := e.nest.run
  let w := copyFmts s e i
  let bytes (fmt : Nat) : Nat := if w = (0, 0) then run else run * fmtBits fmt / 8
  let n := bytes w.1
  let m := bytes w.2
  match s.oneBank f x.1 n, s.oneBank f x.2 m with
  | some g, _ => .error g
  | none, some g => .error g
  | none, none =>
    let laps := runOverlaps s e i
    let s0 := laps.foldl (fun s p => s.locUndef f p.1 p.2) s
    let moved : Except FaultInfo State :=
      match x.1, x.2 with
      | .pan c a, .pan d b =>
        if w = (0, 0) then
          (s0.locRead f i x.1 n).bind (fun r => r.2.locWrite f i x.2 r.1)
        else (readRunValues s0 f w.1 c a run).bind (fun r => writeRunValues r.2 f w.2 d b r.1)
      | _, _ => (s0.locRead f i x.1 n).bind (fun r => r.2.locWrite f i x.2 r.1)
    match moved with
    | .error g => .error g
    | .ok s => .ok (laps.foldl (fun s p => s.locUndef f p.1 p.2) s)

/-- An entry of q0 is performed from its element on: the state, and the fault that stops it. A run that breaks the rule of conversions stops it before
its element (R350, R353, R372). -/
def copyEntry (s : State) (e : Entry) : State × Option (Nat × FaultInfo) :=
  match ((List.range e.nest.runs).drop e.elem).findSome? (badEnd s e) with
  | some x =>
    let at_ := match x with | .pan c a => (c, a) | .glob _ => (0, 0)
    (s, some (e.elem, s.pantryFault (s.core.entryFault 0 e 0x17) 0x17 at_.1 at_.2 1))
  | none => runElems (fun s i => copyRun (s.core.entryFault 0 e 0x15) e s i) s (e.nest.runs - e.elem) e.elem

/-! Gather and scatter (R354) -/

/-- Index `i` of a gather or scatter. -/
def rowElem (e : Entry) (s : State) (i : Nat) : Except FaultInfo State :=
  let f := s.core.entryFault 1 e 0x15
  let ctl := (nth 0 e.group 3).toNat
  let rowb := bits ctl 16 16
  let stride := bits ctl 32 32
  match s.locRead f i (.pan s.core.id ((nth 0 e.group 2).toNat + 4 * i)) 4 with
  | .error g => .error g
  | .ok (xs, s) =>
    let far := (e.loc s.core.cluster 0).shift ((ofBytes xs * stride : Nat) : Int)
    let near := (e.loc s.core.cluster 1).shift ((i * rowb : Nat) : Int)
    match s.oneBank f far rowb, s.oneBank f near rowb with
    | some g, _ => .error g
    | none, some g => .error g
    | none, none =>
      let (src, dst) := if e.op = .gath then (far, near) else (near, far)
      (s.locRead f i src rowb).bind (fun r => r.2.locWrite f i dst r.1)

/-- An entry of q1 is performed from its element on. -/
def rowsEntry (s : State) (e : Entry) : State × Option (Nat × FaultInfo) :=
  runElems (rowElem e) s (bits (nth 0 e.group 3).toNat 0 16 - e.elem) e.elem

/-! Decompression (R355 to R358) -/

/-- The code table of LENS: length, code and nibble, in code order (R356). -/
def codeTable (lens : Nat) : List (Nat × Nat × Nat) :=
  ((List.range 15).foldl (fun (acc : List (Nat × Nat × Nat) × Nat) k =>
    let len := k + 1
    let hs := (List.range 16).filter (fun h => bits lens (4 * h) 4 == len)
    (acc.1 ++ hs.zipIdx.map (fun p => (len, acc.2 + p.2, p.1)), 2 * (acc.2 + hs.length))) ([], 0)).1

/-- The lengths over-subscribe the code (R356). -/
def overSubscribed (lens : Nat) : Bool :=
  decide (2 ^ 15 < (List.range 16).foldl (fun a h => let l := bits lens (4 * h) 4; if l = 0 then a else a + 2 ^ (15 - l)) 0)

/-- `n` bits of a payload from bit `p` on, most significant first (R356). -/
def payBits (bs : List Byte) (p n : Nat) : Nat :=
  (List.range n).foldl (fun a i => 2 * a + ((nth 0 bs ((p + i) / 8)).toNat / 2 ^ (7 - (p + i) % 8)) % 2) 0

/-- How far decoding gets in the payload bytes at hand. -/
inductive Decoded where
  | done (bs : List Byte)
  | wrong
  | short
  deriving DecidableEq, Repr

/-- Decodes `n` bytes from bit `p` on of the payload bytes at hand, `whole` when they are all of them (R356). -/
def decodeNibbles (table : List (Nat × Nat × Nat)) (bs : List Byte) (whole : Bool) : Nat → Nat → List Byte → Decoded
  | 0, _, acc => .done acc.reverse
  | n + 1, p, acc =>
    let total := 8 * bs.length
    match table.find? (fun t => decide (p + t.1 ≤ total) && payBits bs p t.1 == t.2.1) with
    | some t =>
      if p + t.1 + 4 ≤ total then
        decodeNibbles table bs whole n (p + t.1 + 4) (BitVec.ofNat 8 (t.2.2 * 16 + payBits bs (p + t.1) 4) :: acc)
      else if whole then .wrong else .short
    | none => if whole || decide (p + 15 ≤ total) then .wrong else .short

/-- The bytes of virtual memory from `va` on up to the first that cannot be read, and that one's failure. -/
def readPrefix (f : FaultInfo) (elem : Nat) : Nat → State → Nat → Nat → List Byte × Option FaultInfo × State
  | 0, s, _, _ => ([], none, s)
  | fuel + 1, s, va, n =>
    if n = 0 then ([], none, s)
    else
      let k := min n (65536 - va % 65536)
      match s.locRead f elem (.glob va) k with
      | .error g => ([], some g, s)
      | .ok (bs, s) =>
        let r := readPrefix f elem fuel s (va + k) (n - k)
        (bs ++ r.1, r.2)

/-- COUNT of a block header that it may be (R355); 0 where it breaks its range. -/
def blockCount (bs : List Byte) : Nat :=
  let n := ofBytes ((bs.drop 8).take 4)
  if n % 256 = 0 ∧ n ≤ 0xC000 then n else 0

/-- A block header (R355). -/
structure BlockHead where
  fmt : Nat
  stored : Bool
  count : Nat
  pbytes : Nat
  lens : Nat
  dcrc : Nat
  deriving DecidableEq, Repr

/-- Reads a block header; none where a field is wrong (R355, R356). -/
def blockHead (bs : List Byte) : Option BlockHead :=
  let f (o n : Nat) : Nat := ofBytes ((bs.drop o).take n)
  let h : BlockHead := { fmt := f 4 1, stored := f 5 1 == 1, count := f 8 4, pbytes := f 0xC 4, lens := f 0x10 8, dcrc := f 0x18 4 }
  let ok := f 0 4 == 0x43574231 && [0, 3, 4, 10].contains h.fmt && decide (f 5 1 ≤ 1) && f 6 2 == 0 && f 0x1C 4 == 0 &&
    h.count % 256 == 0 && decide (256 ≤ h.count) && decide (h.count ≤ 0xC000) && !overSubscribed h.lens &&
    (!h.stored || h.pbytes == h.count)
  if ok then some h else none

/-- The decoded bytes of a block's payload at `va`, or the fault (R356). -/
def payloadBytes (s : State) (f : FaultInfo) (elem va : Nat) (h : BlockHead) : Except FaultInfo (List Byte × State) :=
  let bad : FaultInfo := { f with code := 0x32, d0 := BitVec.ofNat 64 elem }
  if h.stored then s.locRead f elem (.glob va) h.count
  else
    let r := readPrefix f elem 4 s va (min h.pbytes (h.count * 19 / 8 + 1))
    match decodeNibbles (codeTable h.lens) r.1 r.2.1.isNone h.count 0 [] with
    | .done bs => .ok (bs, r.2.2)
    | .wrong => .error bad
    | .short => .error (r.2.1.getD bad)

/-- The ring bytes that the consumer has not given back leave this much free (R357). -/
def Ring.free (g : Ring) : Nat := g.size - (g.pi - g.ci)

/-- Writes bytes into the ring from stream position `n` on (R357). -/
def ringWrite (s : State) (f : FaultInfo) (n : Nat) (bs : List Byte) : Except FaultInfo State :=
  let g := s.core.ring
  let o := n % g.size
  let k := min bs.length (g.size - o)
  (s.locWrite f 0 (.pan s.core.id (g.base + o)) (bs.take k)).bind (fun s =>
    if bs.length = k then .ok s else s.locWrite f 0 (.pan s.core.id g.base) (bs.drop k))

/-- An entry of q2 starts: RST takes its ring, otherwise the ring must be the one in force (R358). -/
def decStart (s : State) (e : Entry) : State × Option (Nat × FaultInfo) :=
  let f := { s.core.entryFault 2 e 0x32 with d0 := BitVec.ofNat 64 e.elem }
  let (base, size, rst) := ringFields (nth 0 e.group 1)
  let g := s.core.ring
  if rst ∧ e.elem = 0 then ({ s with core := { s.core with ring := { base := base, size := size, pi := 0, ci := 0 } } }, none)
  else if size = 0 ∨ base ≠ g.base ∨ size ≠ g.size then (s, some (e.elem, f))
  else (s, none)

/-- A block of COUNT `n` that faults leaves its ring bytes undefined, of those that are free (R358). -/
def ringSpoil (s : State) (n : Nat) : State :=
  let g := s.core.ring
  let r := s.freeBytes (min n g.free)
  let o := g.pi % g.size
  let k := min r.1.length (g.size - o)
  (r.2.pantryWrite s.core.id (g.base + o) (r.1.take k)).pantryWrite s.core.id g.base (r.1.drop k)

/-- The entry of q2 whose next block is due. -/
def Core.decoding (c : Core) : Option Entry :=
  let q := c.queue 2
  if q.stop.isSome then none
  else q.entries.find? (fun e => e.op == .dec && e.sent && decide (e.elem < (nth 0 e.group 2).toNat))

/-- The next block of q2: it waits for space, and PI moves once its bytes are written and checked (R358). -/
def State.decBlock (s : State) : State :=
  match s.core.decoding with
  | none => s
  | some e =>
    let va := (nth 0 e.group 0).toNat
    let i := e.elem
    let f := { s.core.entryFault 2 e 0x32 with d0 := BitVec.ofNat 64 i, addr := nth 0 e.group 0 }
    let stop (s : State) (g : FaultInfo) : State := s.stopQueue 2 e.num i g
    match s.locRead f i (.glob va) 32 with
    | .error g => stop s g
    | .ok (hb, s) =>
      match blockHead hb with
      | none => stop (ringSpoil s (blockCount hb)) f
      | some h =>
        let g := s.core.ring
        if g.size < h.count then stop (ringSpoil s h.count) f
        else if h.fmt ≠ 0 ∧ e.fmtAt s.core.id (g.base / Config.bankBytes) ≠ h.fmt then
          stop (ringSpoil s h.count) (s.pantryFault { f with code := 0x17 } 0x17 s.core.id g.base 1)
        else if g.free < h.count then s
        else
          match payloadBytes s f i (va + 32) h with
          | .error x => stop (ringSpoil s h.count) x
          | .ok (bs, s) =>
            match ringWrite s f g.pi bs with
            | .error x => stop (ringSpoil s h.count) x
            | .ok s =>
              let crc := (crc32c bs).toNat
              if crc ≠ h.dcrc then
                stop (ringSpoil s h.count) { f with code := 0x31, d1 := BitVec.ofNat 64 h.dcrc, d2 := BitVec.ofNat 64 crc }
              else
                let next := BitVec.ofNat 64 ((va + 32 + h.pbytes + 31) / 32 * 32)
                let s := s.modEntry 2 e.num (fun x => { x with elem := i + 1, group := x.group.set 0 next })
                { s with core := { s.core with ring := { g with pi := g.pi + h.count } } }

end Sys2Proof.Machine
end

