-- ==== Sys2Proof/Machine/Send.lean ====
section
/-!
DEFINITION. The entries of q3: packets, local performance, reductions (R25, R26, R34, R43 to R46, R360 to R368, R417), and the start and
completion of every queue's entries (R190 to R192).
-/
namespace Sys2Proof.Machine

/-! Command fields (R360, R361) -/

/-- The fabric control word's fields (R360), and the command's remote address and length. -/
structure Ctl where
  dev : Nat
  group : Nat
  lane : Nat
  cls : Nat
  ord : Nat
  size : Nat
  cop : Nat
  aux : Nat
  deriving DecidableEq, Repr

/-- The fields of a control word (R360). -/
def ctlOf (w : Word) : Ctl :=
  let x := w.toNat
  { dev := bits x 0 12, group := bits x 12 16, lane := bits x 28 3, cls := bits x 31 2, ord := bits x 33 1, size := 2 ^ bits x 34 2,
    cop := bits x 36 3, aux := bits x 40 16 }

/-- The control word of an entry: its third register, or the second of a qcel (R361, R364). -/
def Entry.ctl (e : Entry) : Ctl :=
  match e.op with
  | .cel => ctlOf (nth 0 e.group 1)
  | .collFrom | .collTo =>
    let k := collOf e.group
    { dev := k.dev, group := k.group, lane := k.lane, cls := k.cls, ord := 0, size := 1, cop := 0, aux := 0 }
  | _ => ctlOf (nth 0 e.group 2)

/-- The packets of `len` bytes to `rem` on: offset and length of each (R44, R361). -/
def cuts : Nat → Nat → Nat → Nat → List (Nat × Nat)
  | 0, _, _, _ => []
  | fuel + 1, rem, len, off =>
    if len = 0 then []
    else
      let n := min len (min 256 (4096 - (rem + off) % 4096))
      (off, n) :: cuts fuel rem (len - n) (off + n)

/-- The data packets of a move (R361). -/
def Entry.cuts (e : Entry) : List (Nat × Nat) :=
  let len := (nth 0 e.group 3).toNat
  Machine.cuts (len + 1) (nth 0 e.group 1).toNat len 0

/-- LINK_DEAD with its details (R225). -/
def linkDead (f : FaultInfo) (dev lane cause : Nat) : FaultInfo :=
  { f with code := 0x35, d0 := BitVec.ofNat 64 dev, d1 := BitVec.ofNat 64 lane, d2 := BitVec.ofNat 64 cause }

/-- The group of a command, where it is formed for the issuing job (R26). -/
def State.groupFor (s : State) (g : Nat) : Option Group := s.fabric.groups.find? (fun x => x.num == g && x.fn == s.core.task.fn)

/-- The connection of a command (R29). -/
def Entry.conn (e : Entry) : Conn :=
  let k := e.ctl
  if e.op = .putm then { mcast := true, peer := k.group, lane := k.lane } else { mcast := false, peer := k.dev, lane := k.lane }

/-- The command is performed on its own device (R417, R368). -/
def State.ownDevice (s : State) (e : Entry) : Bool := e.op != .putm && s.fabric.devnum == some e.ctl.dev

/-- What refuses a fabric command at its start: no number, no group, or a closed connection (R25, R26, R34). -/
def State.fabricRefusal (s : State) (e : Entry) : Option FaultInfo :=
  let f := s.core.entryFault 3 e 0x35
  let k := e.ctl
  if s.fabric.devnum.isNone || (s.groupFor k.group).isNone then some (linkDead f k.dev k.lane 6)
  else if !s.ownDevice e && s.fabric.closed.contains e.conn then some (linkDead f k.dev k.lane 1)
  else none

/-- A packet of an entry. -/
def State.entryPacket (s : State) (e : Entry) (op : Nat) (addr : Nat) : Packet :=
  let k := e.ctl
  { s.newPacket op with
    addr := BitVec.ofNat 56 addr, dst := if e.op = .putm then 0 else BitVec.ofNat 12 k.dev, lane := BitVec.ofNat 3 k.lane,
    cls := BitVec.ofNat 2 k.cls, ord := BitVec.ofNat 1 k.ord, group := BitVec.ofNat 16 k.group, tag := BitVec.ofNat 16 e.ptag }

/-- Who waits for the packets of an entry. -/
def State.originOf (s : State) (e : Entry) : Origin := .queue s.core.id s.core.task.num e.num

/-- The members of a command's group but the issuer (R46). -/
def State.others (s : State) (e : Entry) : List Nat :=
  match s.groupFor e.ctl.group with
  | none => []
  | some g => g.members.filter (fun m => some m != s.fabric.devnum)

/-- The signal packet to a device (R45). -/
def State.signalPacket (s : State) (e : Entry) (dev : Nat) : Packet :=
  { s.entryPacket e 0x02 (nth 0 e.group 4).toNat with dst := BitVec.ofNat 12 dev, aux := BitVec.ofNat 16 e.cuts.length }

/-- A multicast command with a signal (R363). -/
def Entry.signals (e : Entry) : Bool := e.op == .puts || (e.op == .putm && nth 0 e.group 4 != 0)

/-- Elements of an entry of q3: packets, or element runs of a qcoll (R350). -/
def State.elements (s : State) (e : Entry) : Nat :=
  match e.op with
  | .put | .get => e.cuts.length
  | .puts => e.cuts.length + 1
  | .putm => e.cuts.length + (if e.signals then (s.others e).length else 0)
  | .cel => 1
  | .collFrom => (collOf e.group).runs
  | _ => 0

/-! Responses (R365, R417) -/

/-- A response's first word lands in the register, its tag is freed, and the payload goes to RET (R365). -/
def State.answer (s : State) (e : Entry) (ret : List Byte) : Except FaultInfo State × State :=
  let s := { s with core := s.core.landEntry e (payWord ret 0) true }
  if nth 0 e.group 3 = 0 ∨ ret = [] then (.ok s, s)
  else
    match s.locWrite (s.core.entryFault 3 e 0x30) 0 (e.loc s.core.cluster 3) ret with
    | .ok s => (.ok s, s)
    | .error f => (.error f, s.modEntry 3 e.num (fun x => { x with answer := ret }))

/-- The fault of a Cellarer operation that is refused (R49, R159, R417). -/
def celFault (f : FaultInfo) (dev lane op aux addr : Nat) (o : CelOut) : FaultInfo :=
  match o with
  | .xlate c a => xlateFault f 0 (c, a)
  | .align =>
    let size := match op with | 0x10 => if bit aux 4 then 8 else 4 | 0x11 => 8 * 2 ^ aux | 0x15 => 4 | _ => 8
    { f with code := 0x13, addr := BitVec.ofNat 64 addr, d0 := BitVec.ofNat 64 size }
  | .shadows => { f with code := 0x23, addr := BitVec.ofNat 64 addr, d0 := BitVec.ofNat 64 addr, d1 := 1 }
  | _ => linkDead f dev lane 5

/-! Elements of q3 (R361 to R365, R417) -/

/-- The reach of the issuing job's own page tables (R417). -/
def State.ownReach (s : State) : Reach := .own s.core.id s.core.task.fn

/-- A put's data packet `i`: sent, or written locally. -/
def putElem (e : Entry) (s : State) (i : Nat) : Except FaultInfo State :=
  let f := s.core.entryFault 3 e 0x30
  let (off, n) := nth (0, 0) e.cuts i
  match s.locRead f i ((e.loc s.core.cluster 0).shift (off : Int)) n with
  | .error g => .error g
  | .ok (bs, s) =>
    let rem := (nth 0 e.group 1).toNat + off
    if s.ownDevice e then
      match s.writeAt s.ownReach rem bs with
      | .error x => .error (xlateFault f i x)
      | .ok s => .ok s
    else
      let p := { s.entryPacket e (if e.op = .putm then 0x05 else 0x01) rem with payload := bs }
      let ms := if e.op = .putm then s.others e else []
      if e.op = .putm ∧ ms = [] then .ok s else .ok (s.send p (s.originOf e) false ms 0)

/-- A get's packet `i`: sent, or read locally. -/
def getElem (e : Entry) (s : State) (i : Nat) : Except FaultInfo State :=
  let f := s.core.entryFault 3 e 0x30
  let (off, n) := nth (0, 0) e.cuts i
  let rem := (nth 0 e.group 1).toNat + off
  if s.ownDevice e then
    match s.readAt s.ownReach rem n with
    | .error x => .error (xlateFault f i x)
    | .ok (bs, s) => s.locWrite f i ((e.loc s.core.cluster 0).shift (off : Int)) bs
  else .ok (s.send { s.entryPacket e 0x03 rem with aux := BitVec.ofNat 16 n } (s.originOf e) true [] (BitVec.ofNat 64 off))

/-- A signal: sent to a device, or added locally (R45, R362, R417). -/
def signalElem (e : Entry) (dev : Nat) (s : State) (i : Nat) : Except FaultInfo State :=
  let f := s.core.entryFault 3 e 0x30
  if s.ownDevice e then
    match cellar s s.ownReach 0x16 0 (nth 0 e.group 4).toNat (toBytes 8 1) with
    | .done s _ => .ok s
    | .xlate c a => .error (xlateFault f i (c, a))
    | o => .error (celFault f dev e.ctl.lane 0x16 0 (nth 0 e.group 4).toNat o)
  else
    let p := s.signalPacket e dev
    if s.fabric.closed.contains (connOf p) then .ok (s.modEntry 3 e.num (fun x => { x with failed := x.failed ++ [dev] }))
    else .ok (s.send p (s.originOf e) false [] 0)

/-- A qcel: its request is sent, or performed by the local Cellarer. On a restart a kept response only goes to RET, and a request
that still waits for its response is not made again (R364, R365, R417). -/
def celElem (e : Entry) (s : State) : Except FaultInfo State :=
  let f := s.core.entryFault 3 e 0x30
  let k := e.ctl
  let op := 0x10 + k.cop
  let rem := (nth 0 e.group 0).toNat
  if !e.answer.isEmpty then s.locWrite f 0 (e.loc s.core.cluster 3) e.answer
  else
    match s.locRead f 0 (e.loc s.core.cluster 2) (celPayload op k.aux) with
    | .error g => .error g
    | .ok (pay, s) =>
      if s.ownDevice e then
        match cellar s s.ownReach op k.aux rem pay with
        | .done s ret => (s.answer e ret).1
        | o => .error (celFault f k.dev k.lane op k.aux rem o)
      else
        let p := { s.entryPacket e op rem with aux := BitVec.ofNat 16 k.aux, payload := pay }
        if s.fabric.unacked.any (fun u => u.origin == s.originOf e) then .ok s
        else .ok (s.send p (s.originOf e) (celReturns op) [] 0)

/-- Element run `r` of a contributor: its RED packets, or its operands to a destination on the same device (R367). -/
def collElem (e : Entry) (s : State) (r : Nat) : Except FaultInfo State :=
  let k := collOf e.group
  match k.readRun s (s.core.entryFault 3 e 0x30) r with
  | .error g => .error g
  | .ok (cs, s) =>
    let addr := k.addr + redWidth k.op * redRunLen k.op k.mode * r
    .ok (cs.foldl (fun s c =>
      if s.ownDevice e then s.redArrive k.group addr k.op k.mode c.1 c.2 true
      else s.emit { s.entryPacket e 0x08 addr with
        cnode := BitVec.ofNat 32 c.1, aux := BitVec.ofNat 16 ((c.2.length - 1) * 64 + k.op * 4 + k.mode),
        payload := c.2.flatMap (toBytes (redOperand k.op k.mode)) }) s)

/-- Element `i` of an entry of q3. -/
def fabricElem (e : Entry) (s : State) (i : Nat) : Except FaultInfo State :=
  match e.op with
  | .put => putElem e s i
  | .puts => if i < e.cuts.length then putElem e s i else signalElem e e.ctl.dev s i
  | .putm => if i < e.cuts.length then putElem e s i else signalElem e (nth 0 (s.others e) (i - e.cuts.length)) s i
  | .get => getElem e s i
  | .cel => celElem e s
  | .collFrom => collElem e s i
  | _ => .ok s

/-- The connection of element `i` of an entry: a multicast command's signals go to each member on its own (R29, R45, R46). -/
def State.elemConn (s : State) (e : Entry) (i : Nat) : Conn :=
  if e.op = .putm ∧ e.cuts.length ≤ i then { mcast := false, peer := nth 0 (s.others e) (i - e.cuts.length), lane := e.ctl.lane } else e.conn

/-- Sends elements from `i` on while the window of 4,096 of their connection has room (R34): the state, the next element, and a fault. -/
def sendElems (e : Entry) : Nat → State → Nat → State × Nat × Option FaultInfo
  | 0, s, i => (s, i, none)
  | n + 1, s, i =>
    if 4096 ≤ s.inWindow (s.elemConn e i) then (s, i, none)
    else match fabricElem e s i with
      | .error f => (s, i, some f)
      | .ok s => sendElems e n s (i + 1)

/-- The reduction of a destination entry. -/
def State.reductionOf (s : State) (e : Entry) : Option Reduction := s.fabric.reds.find? (fun r => r.entry == some (s.core.id, e.num))

/-- A packet of a destination entry's reduction had a bad payload check, or came more than the reduction's timeout ago (R43): the LINK_DEAD cause. -/
def State.badEntry (s : State) (e : Entry) : Option Nat :=
  match s.reductionOf e with
  | some r => if r.bad then some 3 else if r.late then some 4 else none
  | none => none

/-- A reduction that is discarded stops its entry; what still arrives for any of its element runs is discarded (R43). Behind a stop at an older entry
the entry is set back, and stops for it as soon as it starts again. -/
def State.stopBad (s : State) (e : Entry) (cause : Nat) : State :=
  let k := collOf e.group
  let behind := (s.core.queue 3).stoppedBy e.num && (s.core.queue 3).stopNum != e.num
  let drop (r : Reduction) : Reduction :=
    if r.entry = some (s.core.id, e.num) then
      (if behind then { r with runs := [], bad := r.bad || cause == 3, late := r.late || cause == 4 } else { r with entry := none, runs := [] })
    else r
  let s := { s with fabric := { s.fabric with reds := s.fabric.reds.map drop } }
  (s.modEntry 3 e.num (fun x => { x with own := false })).stopQueue 3 e.num 0 (linkDead (s.core.entryFault 3 e 0x35) k.dev k.lane cause)

/-- A destination starts: its own contributions are read and added, once, to what has arrived (R366, R368). -/
def State.collStart (s : State) (e : Entry) : State :=
  let k := collOf e.group
  let f := s.core.entryFault 3 e 0x30
  let own : Except (Nat × FaultInfo) (List (Nat × Nat × List Nat) × State) :=
    if k.t0 = k.t1 ∨ e.own then .ok ([], s)
    else (List.range k.runs).foldlM (fun (acc : List (Nat × Nat × List Nat) × State) r =>
      match k.readRun acc.2 f r with
      | .error g => Except.error (r, g)
      | .ok (cs, s) =>
        .ok (acc.1 ++ cs.map (fun c => (k.addr + redWidth k.op * redRunLen k.op k.mode * r, c.1, c.2)), s)) ([], s)
  match own with
  | .error (r, g) => s.stopQueue 3 e.num r g
  | .ok (cs, s) =>
    match s.redOpen e.num k with
    | none => s.stopQueue 3 e.num 0 (linkDead f k.dev k.lane 4)
    | some s =>
      match s.badEntry e with
      | some cause => s.stopBad e cause
      | none =>
        let s := cs.foldl (fun s c => s.redArrive k.group c.1 k.op k.mode c.2.1 c.2.2 true) s
        s.modEntry 3 e.num (fun x => { x with own := true, sent := true })

/-- Put-with-signal commands of a connection that are incomplete, on all cores (R45). -/
def State.signalling (s : State) (c : Conn) : Nat :=
  s.cores.foldl (fun n k => n + ((k.queue 3).entries.filter (fun e => e.signals && e.started && e.conn == c)).length) 0

/-- A put-with-signal waits to start while 4,096 of its connection are incomplete (R45). -/
def State.mayStart (s : State) (q : Nat) (e : Entry) : Bool :=
  q != 3 || e.started || !e.signals || decide (s.signalling e.conn < 4096)

/-- A multicast command that has sent packets and whose connection is dead: every member has failed (R34, R46). -/
def State.multicastLost (s : State) (e : Entry) : Bool := e.op == .putm && e.elem != 0 && s.fabric.closed.contains e.conn

/-- An entry of q3 starts, or goes on once its window has room (R25, R34, R42). -/
def State.startFabric (s : State) (e : Entry) : State :=
  if s.multicastLost e then
    s.modEntry 3 e.num (fun x => { x with failed := s.others e, elem := s.elements e, sent := true, answer := [] })
  else match s.fabricRefusal e with
  | some f => s.stopQueue 3 e.num e.elem f
  | none =>
    let k := collOf e.group
    let isColl := e.op == .collFrom || e.op == .collTo
    if isColl && k.misChunked then
      s.stopQueue 3 e.num 0 { s.core.entryFault 3 e 0x24 with
        d0 := BitVec.ofNat 64 k.t0, d1 := BitVec.ofNat 64 k.t1, d2 := BitVec.ofNat 64 k.t }
    else if e.op = .collTo then s.collStart e
    else if e.op = .collFrom ∧ k.t0 = k.t1 then s.modEntry 3 e.num (fun x => { x with sent := true })
    else
      let n := s.elements e
      match sendElems e (n - e.elem) s e.elem with
      | (s, i, some f) => s.stopQueue 3 e.num i f
      | (s, i, none) => s.modEntry 3 e.num (fun x => { x with elem := i, sent := decide (n ≤ i), answer := [] })

/-! Start and completion (R190 to R192) -/

/-- The entry before `e` in its queue is complete (R190). -/
def Queue.afterPrev (q : Queue) (e : Entry) : Bool := !(q.entries.any (fun x => x.num == (e.num + 2 ^ 32 - 1) % 2 ^ 32))

/-- A queue lets an entry go on: it runs, or it is stopped at a later entry (R153, R190). -/
def Queue.lets (q : Queue) (e : Entry) : Bool := q.stop.isNone || (e.started && decide (q.age e.num < q.age q.stopNum))

/-- The entries of a queue that may start or go on now (R176, R190 to R192). Entries start in issue order, one with J clear once its predecessor has
started; q0 and q1 let such entries overlap, a qdec that has blocks left, waiting for ring space or not, holds q2, and q3 sends in start order (R30,
R358). -/
def Core.startable (c : Core) (q : Nat) : List Entry :=
  let x := c.queue q
  let open_ (e : Entry) : Bool :=
    !e.sent && e.op != .fence && e.op != .marker && x.lets e && (e.started || (e.after.all (fun i => !c.isOut i) && (!e.j || x.afterPrev e)))
  let front := x.entries.takeWhile (fun e => e.started || e.sent)
  let es := (front ++ (x.entries.drop front.length).take 1).filter (fun e => !e.sent)
  if q < 2 then es.filter open_ else if q = 2 ∧ c.decoding.isSome then [] else (es.take 1).filter open_

/-- The entry behind `e` overlaps it: its J is clear (R190). -/
def Queue.overlapped (q : Queue) (e : Entry) : Bool := q.entries.any (fun y => y.num == (e.num + 1) % 2 ^ 32 && !y.j && !y.sent)

/-- An entry starts: the classes of its mask are merged (R191) and its formats are taken (R353, R374); at a restart those that its performed elements took
stay with them (R372). A fabric command takes the device's next tag where it starts from its first element: how a tag is chosen is the model's (R27 says
what it ties together; DESIGN CHOICE, log 123). -/
def State.beginEntry (s : State) (q : Nat) (e0 : Entry) : State × Entry :=
  if e0.started then (s, e0)
  else
    let s := s.mergeClasses e0.mask
    let fresh := q == 3 && e0.elem == 0
    let e : Entry := { e0 with
      started := true,
      fmts := match e0.op with
        | .copy | .dec => s.formats
        | _ => [],
      past := if e0.op = .copy ∧ e0.elem ≠ 0 then e0.past ++ [(e0.elem, e0.fmts)] else e0.past,
      ptag := if fresh then s.fabric.nextTag else e0.ptag }
    let s := if fresh then { s with fabric := { s.fabric with nextTag := (s.fabric.nextTag + 1) % 2 ^ 16 } } else s
    (s.modEntry q e.num (fun _ => e), e)

/-- A started entry does what it can (R153). -/
def State.runEntry (s : State) (q : Nat) (e : Entry) : State :=
  let finishRun (r : State × Option (Nat × FaultInfo)) : State :=
    match r with
    | (s, some (i, f)) => s.stopQueue q e.num i f
    | (s, none) => s.modEntry q e.num (fun x => { x with sent := true })
  match q with
  | 0 => finishRun (copyEntry s e)
  | 1 => finishRun (rowsEntry s e)
  | 2 => finishRun (decStart s e)
  | _ => s.startFabric e

/-- An entry of queue `q` starts or goes on: the only one that may, otherwise a free choice; one that another may overlap may only start (R190). -/
def State.startEntry (s : State) (q : Nat) : State :=
  let pick : Option (Entry × State) := match s.core.startable q with
    | [] => none
    | [e] => some (e, s)
    | e :: l => some (nth e (e :: l) (Config.choice s.fresh % (l.length + 1)), { s with fresh := s.fresh + 1 })
  match pick with
  | none => s
  | some (e0, s) =>
    let r := s.beginEntry q e0
    if !s.mayStart q e0 then s
    else if q < 2 && !e0.started && (s.core.queue q).overlapped e0 then
      let t := { r.1 with fresh := r.1.fresh + 1 }
      if Config.choice s.fresh % 2 = 1 then t else t.runEntry q r.2
    else r.1.runEntry q r.2

/-- A destination's results are written (R40, R368): the state, or the fault that stops the entry. -/
def State.writeResults (s : State) (e : Entry) (vs : List Nat) : Except FaultInfo State :=
  let k := collOf e.group
  let f := s.core.entryFault 3 e 0x30
  match s.arrivalRefused k with
  | some line => .error { f with code := 0x23, addr := BitVec.ofNat 64 line, d0 := BitVec.ofNat 64 line }
  | none => s.locWrite f 0 (e.loc s.core.cluster 1) (vs.flatMap (toBytes (redWidth k.op)))

/-- The status vector of a multicast: a bit for each failed rank (R46, R363). -/
def State.statusVector (s : State) (e : Entry) : List Byte :=
  match s.groupFor e.ctl.group with
  | none => toBytes 512 0
  | some g => toBytes 512 (g.members.zipIdx.foldl (fun a p => if e.failed.contains p.1 then a + 2 ^ p.2 else a) 0)

/-- No packet of an entry waits for an answer (R190). -/
def State.quiet (s : State) (e : Entry) : Bool := !(s.fabric.unacked.any (fun u => u.origin == s.originOf e))

/-- An entry that may complete now (R190, R192, R358, R363, R367, R368, R372). -/
def State.completable (s : State) (q : Nat) (e : Entry) : Bool :=
  let x := s.core.queue q
  !(x.stop.isSome && x.stopNum == e.num) &&
  (match e.op with
    | .copy | .gath | .scat | .collFrom => e.sent
    | .dec => e.sent && decide ((nth 0 e.group 2).toNat ≤ e.elem)
    | .puts => e.sent && !(s.fabric.unacked.any (fun u => u.origin == s.originOf e && u.pkt.op == 0x02))
    | .put | .putm | .get | .cel => e.sent && s.quiet e
    | .fence => e.mates.all (fun m => !((s.core.queue m.1).entries.any (fun y => y.num == m.2)))
    | .marker => x.afterPrev e
    | .collTo => e.sent && (match s.reductionOf e with | some r => r.bad || (redResults (collOf e.group) r).isSome | none => false))

/-- An entry leaves its queue; its completion posts event bit 0 where it was asked to (R349). -/
def State.retire (s : State) (q : Nat) (e : Entry) : State :=
  let s := if q = 3 then s.forget s.core.id [e.num] else s
  let s := { s with core := s.core.modQueue q (fun x => { x with entries := x.entries.filter (fun y => y.num != e.num) }) }
  if e.ev then s.post s.core.id 0 q else s

/-- Entry `num` of queue `q` completes. A reduction whose results could not be written is kept for a restart (R40, R368, R372). -/
def State.completeEntry (s : State) (q num : Nat) : State :=
  match (s.core.queue q).entries.find? (fun e => e.num == num) with
  | none => s
  | some e =>
    if !s.completable q e then s
    else match e.op with
      | .putm =>
        match s.locWrite (s.core.entryFault 3 e 0x30) e.elem (e.loc s.core.cluster 5) (s.statusVector e) with
        | .error f => s.stopQueue q num e.elem f
        | .ok s =>
          if e.failed.isEmpty then s.retire q e
          else s.stopQueue q num e.elem { s.core.entryFault 3 e 0x33 with
            d0 := nth 0 e.group 5, d1 := BitVec.ofNat 64 e.failed.length }
      | .collTo =>
        match s.reductionOf e with
        | none => s
        | some r =>
          if r.bad then s.stopBad e 3
          else match redResults (collOf e.group) r with
            | none => s
            | some vs =>
              match s.writeResults e vs with
              | .ok s => s.retire q e
              | .error f =>
                let t := s.stopQueue q num 0 f
                if (t.core.queue q).stop.isSome then { t with fabric := { t.fabric with reds := t.fabric.reds ++ [r] } } else t
      | _ => s.retire q e

/-! One meaning per instruction -/

/-- QCOPY (R352). -/
def execQcopy (o : CQ) (s : State) : Host.Outcome State Fault Refusal := finish (qcopyOp o) s

/-- QGATH (R354). -/
def execQgath (o : CQ) (s : State) : Host.Outcome State Fault Refusal := finish (qrowsOp .gath o) s

/-- QSCAT (R354). -/
def execQscat (o : CQ) (s : State) : Host.Outcome State Fault Refusal := finish (qrowsOp .scat o) s

/-- QDEC (R358). -/
def execQdec (o : CQ) (s : State) : Host.Outcome State Fault Refusal := finish (qdecOp o) s

/-- QACK (R359). -/
def execQack (o : CWA) (s : State) : Host.Outcome State Fault Refusal := finish (qackOp o) s

/-- QCOLL, contributor (R366). -/
def execQcollContribute (o : CQ) (s : State) : Host.Outcome State Fault Refusal := finish (qcollOp false o) s

/-- QCOLL, destination (R366). -/
def execQcollDestination (o : CQ) (s : State) : Host.Outcome State Fault Refusal := finish (qcollOp true o) s

/-- QPUT (R361). -/
def execQput (o : CQ) (s : State) : Host.Outcome State Fault Refusal := finish (qmoveOp .put o) s

/-- QPUTS (R362). -/
def execQputs (o : CQ) (s : State) : Host.Outcome State Fault Refusal := finish (qmoveOp .puts o) s

/-- QPUTM (R363). -/
def execQputm (o : CQ) (s : State) : Host.Outcome State Fault Refusal := finish (qmoveOp .putm o) s

/-- QGET (R361). -/
def execQget (o : CQ) (s : State) : Host.Outcome State Fault Refusal := finish (qmoveOp .get o) s

/-- QCEL (R364). -/
def execQcel (o : CQ) (s : State) : Host.Outcome State Fault Refusal := finish (qcelOp o) s

/-- QFENCE (R192). -/
def execQfence (o : CWF) (s : State) : Host.Outcome State Fault Refusal := finish (qfenceOp o) s

/-- QWAIT (R370). -/
def execQwait (o : CW) (s : State) : Host.Outcome State Fault Refusal := finish (qwaitOp o) s

/-- QSTAT (R371). -/
def execQstat (o : CW) (s : State) : Host.Outcome State Fault Refusal := finish (qstatOp o) s

/-- QIRQ, restart (R372). -/
def execQirqRestart (o : CW) (s : State) : Host.Outcome State Fault Refusal := finish (qirqOp .restart o) s

/-- QIRQ, discard (R372). -/
def execQirqDiscard (o : CW) (s : State) : Host.Outcome State Fault Refusal := finish (qirqOp .discard o) s

/-- QIRQ, mark (R372). -/
def execQirqMark (o : CW) (s : State) : Host.Outcome State Fault Refusal := finish (qirqOp .mark o) s

/-- QUEUE_ENTRY_START (R190). -/
def execQueueEntryStart (q : Fin 4) (s : State) : Host.Outcome State Fault Refusal := deviceStep (fun s => s.startEntry q.val) s

/-- QUEUE_ENTRY_COMPLETE (R190). -/
def execQueueEntryComplete (q : Fin 4) (num : Nat) (s : State) : Host.Outcome State Fault Refusal :=
  deviceStep (fun s => s.completeEntry q.val num) s

/-- DECOMP_BLOCK (R355 to R358). -/
def execDecompBlock (s : State) : Host.Outcome State Fault Refusal := deviceStep State.decBlock s

end Sys2Proof.Machine
end

