-- ==== Sys2Proof/Machine/Waves.lean ====
section
/-!
DEFINITION. Granary sessions across devices: balance transfers, counting waves, termination and cancel (R106 to R112).
-/
namespace Sys2Proof.Machine

/-- The members of a session's group in rank order. -/
def State.sessionMembers (s : State) (x : Session) : List Nat :=
  match s.fabric.groups.find? (fun g => g.num == x.group && g.fn == x.fn) with | some g => g.members | none => []

/-- This device starts the session's waves: it has the lowest group rank (R106). -/
def State.coordinates (s : State) (x : Session) : Bool := x.group != 0 && s.fabric.devnum.isSome && (s.sessionMembers x).head? == s.fabric.devnum

/-- A record's 32 bytes (R92). -/
def recBytes (r : Rec) : List Byte := toBytes 8 r.head.toNat ++ toBytes 8 r.arg0.toNat ++ toBytes 8 r.arg1.toNat ++ toBytes 8 r.arg2.toNat

/-- A record from 32 bytes (R92). -/
def recFrom (bs : List Byte) (slice : Nat) : Rec :=
  let w (i : Nat) : Word := BitVec.ofNat 64 (ofBytes ((bs.drop (8 * i)).take 8))
  recOf (w 0) (w 1) (w 2) (w 3) slice

/-- The records of a GXFER payload (R106). -/
def recsFrom (bs : List Byte) : List Rec := (List.range (bs.length / 32)).map (fun i => recFrom ((bs.drop (32 * i)).take 32) 0)

/-- The local minimum m: records held, popped and not done, and sent in a GXFER not yet acknowledged; 1,024 when there are none (R107). -/
def State.localMin (s : State) (x : Session) : Nat :=
  let out : List Packet := (s.fabric.unacked.filter (fun u => u.origin == .granary x.uid)).map (fun u => u.pkt) ++
    (s.fabric.backlog.filter (fun b => b.2 == x.uid)).map (fun b => b.1)
  let sent := out.flatMap (fun p => if p.op = 0x28 then (recsFrom p.payload).map (fun r => r.bin) else [])
  (sent ++ x.recs.map (fun r => r.bin) ++ x.popped.map (fun p => p.rec_.bin)).foldl min 1024

/-- A message of a session to one member (R106). -/
def State.sessionMsg (s : State) (x : Session) (op dev : Nat) (payload : List Byte) : State :=
  let p := { s.newPacket op with
    lane := 7, cls := 2, ord := 1, aux := BitVec.ofNat 16 x.num, group := BitVec.ofNat 16 x.group, dst := BitVec.ofNat 12 dev,
    payload := payload }
  s.sendMessage p x.uid

/-- Up to `n` records taken in the order that pops take them, over all slices: those with LOCK set, and then those nearest the floor; among those of
equal rank by a free choice, the `i`-th (R99, R109, log 1). -/
def takeRecords : Nat → Nat → Session → Session × List Rec
  | 0, _, x => (x, [])
  | n + 1, i, x =>
    match x.firstRank (fun _ => true) with
    | [] => (x, [])
    | r :: l =>
      let r := nth r (r :: l) (Config.choice i % (l.length + 1))
      let (y, rs) := takeRecords n (i + 1) { x with recs := x.recs.erase r }
      (y, r :: rs)

/-- A giver answers a request: up to 8 records when it has more than twice the low mark, otherwise none (R109). -/
def State.giveRecords (s : State) (uid dev : Nat) : State :=
  match s.sessionAt uid with
  | none => s
  | some x =>
    let (y, rs) := if 2 * x.lowm < x.eligible.length then takeRecords 8 s.fresh x else (x, [])
    let s := ({ s with fresh := s.fresh + 8 } : State).modSession uid (fun _ => { y with s := y.s + rs.length })
    s.sessionMsg x 0x28 dev (rs.flatMap recBytes)

/-- Stores records that a transfer brings, at Fc at the lowest (R104, R108), in the slices from slice 0 on, which R109 leaves open (log 119); none while no
slice has room for them. -/
def State.storeGiven (s : State) (uid : Nat) : List Rec → Option State
  | [] => some s
  | r :: rs =>
    match s.makeRoom uid 0 with
    | none => none
    | some (s, slice) =>
      (s.modSession uid (fun x => { x with recs := x.recs ++ [{ r with bin := max r.bin x.fc, slice := slice }], r := x.r + 1 })).storeGiven uid rs

/-- A transfer is held until the records it brings have room (R104, R106, log 99). -/
def State.mayTake (s : State) (uid : Nat) (p : Packet) : Bool := p.op != 0x28 || (s.storeGiven uid (recsFrom p.payload)).isSome

/-- The request of a member is answered or refused: it may ask again (R109). -/
def State.askedNoMore (s : State) (uid : Nat) : State := (s.modSession uid (fun x => { x with asked := false })).balance uid

/-- A requester stores what it receives (R108, R109). -/
def State.takeGiven (s : State) (uid : Nat) (bs : List Byte) : State :=
  match s.storeGiven uid (recsFrom bs) with
  | some s => s.askedNoMore uid
  | none => s

/-- What a member reports: it raises Fc at that moment (R107, R108). -/
def State.reportOf (s : State) (x : Session) : Report :=
  let m := s.localMin x
  { dev := s.fabric.devnum.getD 0, m := m, armed := x.opener == none, p := x.p, r := x.r, s := x.s, d := x.d }

/-- Two successive waves agree that the session is quiescent (R110). -/
def quiescent (prev now : List Report) : Bool :=
  let sum (f : Report → Nat) (l : List Report) : Nat := l.foldl (fun a r => a + f r) 0
  !now.isEmpty && prev.length == now.length && (prev ++ now).all (fun r => r.armed && r.m == 1024) &&
  sum Report.p prev == sum Report.p now && sum Report.r prev == sum Report.r now && sum Report.s prev == sum Report.s now &&
  sum Report.d prev == sum Report.d now && sum Report.s now == sum Report.r now && sum Report.p now == sum Report.d now

/-- A report reaches the coordinator; the last one of a wave may end the session (R108, R110). -/
def State.takeReport (s : State) (uid wave : Nat) (r : Report) : State :=
  match s.sessionAt uid with
  | none => s
  | some x =>
    if x.st ≠ 0 ∨ x.wave ≠ wave then s
    else
      let rs := x.replies.filter (fun y => y.dev != r.dev) ++ [r]
      let s := s.modSession uid (fun x => { x with replies := rs })
      if rs.length = (s.sessionMembers x).length ∧ quiescent x.prev rs then
        (s.tellMembers x 0x2C (toBytes 8 wave ++ List.replicate 24 0) false).endSession uid 1
      else s

/-- A member takes a wave: the committed floor, its clamp floor, and its report (R108). -/
def State.takeWave (s : State) (uid committed : Nat) : State × Option Report :=
  match s.sessionAt uid with
  | none => (s, none)
  | some x =>
    let m := s.localMin x
    let r := s.reportOf x
    let s := s.modSession uid (fun x => { x with fu := max x.fu committed, fc := max x.fc (min m 1023) })
    (s.balance uid, some r)

/-- GWREP's payload (R106). -/
def reportBytes (wave : Nat) (r : Report) : List Byte :=
  toBytes 8 wave ++ toBytes 2 r.m ++ toBytes 2 (r.armed.toNat + (if r.m = 1024 then 2 else 0)) ++ toBytes 4 0 ++ toBytes 8 r.p ++
  toBytes 8 r.r ++ toBytes 8 r.s ++ toBytes 8 r.d ++ List.replicate 16 0

/-- Every member has answered the current wave. -/
def State.waveDone (s : State) (x : Session) : Bool := x.wave == 0 || x.replies.length == (s.sessionMembers x).length

/-- The coordinator may start a wave: its session lives, and the last wave is answered (R108). -/
def State.mayWave (s : State) (x : Session) : Bool :=
  x.st == 0 && s.coordinates x && s.waveDone x && decide ((s.fnAt x.fn).st ≠ 6)

/-- The coordinator starts a wave with the floor that the last one agreed on; where that was none, with the last committed floor again (R108,
log 119). -/
def State.startWave (s : State) (uid : Nat) : State :=
  match s.sessionAt uid with
  | none => s
  | some x =>
    if !s.mayWave x then s
    else
      let low := x.replies.foldl (fun a r => min a r.m) 1024
      let committed := if x.wave ≠ 0 ∧ low < 1024 then low else x.committed
      let w := x.wave + 1
      let s := s.modSession uid (fun x => { x with wave := w, prev := x.replies, replies := [], committed := committed })
      let s := s.tellMembers x 0x2A (toBytes 8 w ++ toBytes 2 committed ++ List.replicate 22 0) false
      match s.takeWave uid committed with
      | (s, some r) => s.takeReport uid w r
      | (s, none) => s

/-- A session is known to have opened on a device, and, after a GTERM or GCANCEL, to have ended there (R110 to R112). -/
def Session.heardFrom (x : Session) (dev : Nat) (last : Bool) : Session :=
  { x with peers := x.peers.filter (fun d => d != dev) ++ [dev],
           endedOn := if last then x.endedOn.filter (fun d => d != dev) ++ [dev] else x.endedOn,
           late := if last then x.late.filter (fun q => q.src.toNat != dev) else x.late }

/-- A message that reaches an ended session may be for the next session of its number: a request, a wave or a cancel. A transfer or a report is not: it
answers a request or a wave of the receiver's own open session, and a session terminates only once it is open on every member (R106, R108 to R110,
log 103). -/
def mayBeNext (p : Packet) : Bool := p.op == 0x29 || p.op == 0x2A || p.op == 0x2D

/-- A message that reaches an ended session has no effect on it, and is held where it may be for the next session of its number (R106, log 103). -/
def Session.tooLate (x : Session) (p : Packet) : Session :=
  if mayBeNext p then { x with late := x.late.filter (fun q => q.op != p.op || q.src != p.src) ++ [p] } else x

/-- What a Granary message does to its session (R106 to R112). -/
def State.messageEffect (s : State) (uid : Nat) (p : Packet) : State :=
  match s.sessionAt uid with
  | none => s
  | some x =>
    if x.st ≠ 0 then s.modSession uid (fun x => x.tooLate p)
    else match p.op.toNat with
      | 0x28 => s.takeGiven uid p.payload
      | 0x29 => s.giveRecords uid p.src.toNat
      | 0x2A =>
        let w := fieldAt p.payload 0 8
        let s := s.modSession uid (fun x => { x with wave := w })
        match s.takeWave uid (fieldAt p.payload 8 2) with
        | (s, some r) => s.sessionMsg x 0x2B p.src.toNat (reportBytes w r)
        | (s, none) => s
      | 0x2B =>
        let f := fieldAt p.payload
        s.takeReport uid (f 0 8) { dev := p.src.toNat, m := f 8 2, armed := bit (f 10 2) 0, p := f 16 8, r := f 24 8, s := f 32 8, d := f 40 8 }
      | 0x2C => s.endSession uid 1
      | _ =>
        s.cancelSession uid (s.cutOff x) false

/-- A Granary message is performed on its session (R106 to R112); a GTERM or GCANCEL is the last one of its source. -/
def State.granaryMsg (s : State) (uid : Nat) (p : Packet) : State :=
  (s.modSession uid (fun x => x.heardFrom p.src.toNat (p.op == 0x2C || p.op == 0x2D))).messageEffect uid p

/-- A session has messages to take that came for its number before it opened (R106, log 103). -/
def State.hasLate (s : State) (x : Session) : Bool := x.st == 0 && !x.late.isEmpty && decide ((s.fnAt x.fn).st ≠ 6)

/-- A message that came for a number before its session opened takes effect; whether a cancel was meant for this session is a free choice (log 103). -/
def State.lateEffect (s : State) (uid : Nat) (p : Packet) : State :=
  if p.op == 0x2D && Config.choice s.fresh % 2 == 0 then { s with fresh := s.fresh + 1 }
  else ({ s with fresh := s.fresh + 1 } : State).messageEffect uid p

/-- Sessions take the messages that came for their number before they opened (R106, log 103). -/
def State.takeLate (s : State) : State :=
  (s.sessions.filter s.hasLate).foldl (fun s x =>
    x.late.foldl (fun s p => s.lateEffect x.uid p) (s.modSession x.uid (fun y => { y with late := [] }))) s

/-- A message of a session was refused with a NACK: codes 3 and 5 of a session that opened at both ends cancel it (R112); a refused request is
outstanding no more (R109). Any other refused message is dropped: R112 does not say that it is sent again, so a wave that a member refused before it
opened the session is not answered (log 119). -/
def State.messageRefused (s : State) (uid : Nat) (p : Packet) (code : Nat) : State :=
  match s.sessionAt uid with
  | none => s
  | some x =>
    if (code = 3 ∨ code = 5) ∧ x.peers.contains p.dst.toNat then s.cancelSession uid true true
    else if p.op = 0x29 then s.modSession uid (fun x => { x with asked := false }) else s

/-- A connection has died: every session that has the device at its other end among its members is cancelled (R34, R112). -/
def State.sessionsLost (s : State) (dev : Nat) : State :=
  ((s.sessions.filter (fun x => x.group != 0 && (s.sessionMembers x).contains dev)).map (fun x => x.uid)).foldl
    (fun s u => s.cancelSession u true true) s

/-- GWAVE_START (R108). -/
def execGwaveStart (session : Nat) (s : State) : Host.Outcome State Fault Refusal := deviceStep (fun s => s.startWave session) s

end Sys2Proof.Machine
end

