-- ==== Sys2Proof/Machine/Fabric.lean ====
section
/-!
DEFINITION. Packets that reach the device, their timers and their failures (R25 to R36, R43 to R51, R106).
-/
namespace Sys2Proof.Machine

/-! Checks (R27, R28, R37) -/

/-- A RED packet's own fields are as R37 says. -/
def redFormOk (p : Packet) : Bool :=
  let x := p.aux.toNat
  let n := bits x 6 6 + 1
  let op := bits x 2 4
  let mode := bits x 0 2
  bits x 12 4 == 0 && decide (op ≤ 8) && mode != 3 && (op == 0 || mode == 0) && decide (n ≤ redRunLen op mode) &&
  p.payload.length == n * redOperand op mode

/-- The operation field holds an assigned value (R28); a packet with any other value is malformed, whichever meaning it reaches. -/
def assignedOp (p : Packet) : Bool :=
  let x := p.op.toNat
  (decide (1 ≤ x) && decide (x ≤ 8)) || (decide (0x10 ≤ x) && decide (x ≤ 0x18)) || x == 0x20 || (decide (0x28 ≤ x) && decide (x ≤ 0x2D))

/-- A packet without a reserved field or code, of a length its operation has: R28's table gives each operation its payload and AUX, and the model
counts a packet that does not fit it as malformed (R28, log 101). -/
def packetOk (p : Packet) : Bool :=
  let x := p.op.toNat
  let none_ := p.payload.isEmpty
  p.rsv1 == 0 && p.rsv2 == 0 && decide (p.len.toNat ≤ 256) && p.len.toNat == p.payload.length && (p.phys == 0 || x == 0x20) &&
  (match x with
    | 0x01 | 0x05 | 0x04 | 0x18 | 0x20 => true
    | 0x02 | 0x07 => none_
    | 0x03 => none_ && decide (1 ≤ p.aux.toNat) && decide (p.aux.toNat ≤ 256)
    | 0x06 => none_ && decide (p.aux.toNat ≤ 1)
    | 0x08 => redFormOk p
    | 0x28 => p.payload.length % 32 == 0
    | 0x29 | 0x2D => none_
    | 0x2A | 0x2C => p.payload.length == 32
    | 0x2B => p.payload.length == 64
    | _ => decide (0x10 ≤ x) && decide (x ≤ 0x17))

/-- A packet that answers or acknowledges another (R28). -/
def isAnswer (p : Packet) : Bool := p.op == 0x04 || p.op == 0x06 || p.op == 0x07 || p.op == 0x18

/-- An answer to a packet, on its connection (R28, R29, R36). -/
def State.replyTo (s : State) (p : Packet) (op aux : Nat) (payload : List Byte) : Packet :=
  { s.newPacket op with
    dst := p.src, lane := p.lane, cls := p.cls, seq := p.seq, tag := p.tag, group := p.group, aux := BitVec.ofNat 16 aux, payload := payload }

/-- ACK of a packet (R28). -/
def State.ackTo (s : State) (p : Packet) : State := s.emit (s.replyTo p 0x06 0 [])
/-- NACK of a packet with a code (R51). -/
def State.nackTo (s : State) (p : Packet) (code : Nat) : State := s.emit (s.replyTo p 0x07 code [])

/-- A malformed packet is counted (R28). -/
def State.countMalformed (s : State) : State := { s with service := { s.service with malformed := s.service.malformed + 1 } }

/-- A malformed packet is dropped and counted, and refused with code 4 where its header check lets its source be trusted; its number does not count
as arrived (R28, log 101). -/
def State.malformed (s : State) (p : Packet) : State :=
  if p.hchk = headerCheck p then s.countMalformed.nackTo p 4 else s.countMalformed

/-- Runs a change with core `n` in focus. -/
def State.onCore (s : State) (n : Nat) (f : State → State) : State :=
  let me := s.core.id
  (f (s.focusOn n)).focusOn me

/-- REMOTE_FATAL: the record, and the end of the job (R51, R222, R225). -/
def State.remoteFatal (s : State) (fn core other code : Nat) (pc addr : Word) : State :=
  match s.jobAt fn with
  | none => s
  | some j =>
    let c := s.coreAt core
    let f : FaultInfo := { c.faultOf 0x34 with
      slot := 8, kind := 3, pc := pc, addr := addr, d0 := BitVec.ofNat 64 other, d1 := BitVec.ofNat 64 code }
    let s := s.modCore core (fun c => { c with faults := c.faults + 1 })
    let s := if j.srec = 0 then s
      else match writeVirtual s core fn (j.srec.toNat + 320 * core) (recordBytes f (c.handler == .user) (c.faults + 1)) with
        | .ok s => s
        | .error _ => s
    s.endJob fn 3 0x34 true

/-- The core whose record area a job's inbound failure uses: the root task's, or core 0 (log 12). -/
def State.rootCore (s : State) (fn : Nat) : Nat :=
  match s.cores.find? (fun c => c.run != .idle && c.task.fn == fn && c.task.root) with | some c => c.id | none => 0

/-! Inbound connections (R30, R35) -/

/-- The group of a multicast packet. -/
def mgroupOf (p : Packet) : Option Nat := if p.op = 0x05 then some p.group.toNat else none

/-- The packet arrived on the connection. -/
def Inbound.of (b : Inbound) (p : Packet) : Bool := b.src == p.src.toNat && b.lane == p.lane.toNat && b.group == mgroupOf p

/-- The inbound record of a packet's connection. -/
def State.inboundOf (s : State) (p : Packet) : Inbound :=
  match s.fabric.inbound.find? (fun b => b.of p) with
  | some b => b
  | none => { src := p.src.toNat, group := mgroupOf p, lane := p.lane.toNat, next := 2 ^ 16, seen := [], refused := [], waiting := [] }

/-- Puts an inbound record back. -/
def State.putInbound (s : State) (b : Inbound) : State :=
  let same (x : Inbound) : Bool := x.src == b.src && x.lane == b.lane && x.group == b.group
  { s with fabric := { s.fabric with inbound := s.fabric.inbound.filter (fun x => !same x) ++ [b] } }

/-- How far a number lies after `n`, modulo 2^16. -/
def seqAfter (n q : Nat) : Nat := (q + 2 ^ 16 - n % 2 ^ 16) % 2 ^ 16

/-- The place that a sequence number has on a connection: among the 4,096 places below `next`, or from `next` on (R29, R35). -/
def Inbound.place (b : Inbound) (q : Nat) : Nat :=
  b.next + seqAfter b.next q - (if 2 ^ 16 - 4096 ≤ seqAfter b.next q then 2 ^ 16 else 0)

/-- A number has arrived already: it is among the 4,096 below `next`, or marked (R35). -/
def Inbound.arrived (b : Inbound) (q : Nat) : Bool := decide (b.place q < b.next) || b.seen.contains (b.place q)

/-- A number lies among those that the record of a connection covers: the next 4,096 (R35). -/
def Inbound.covers (b : Inbound) (q : Nat) : Bool := decide (seqAfter b.next q < 4096)

/-- `next` moves over the places that have arrived. -/
def Inbound.advance : Nat → Inbound → Inbound
  | 0, b => b
  | n + 1, b =>
    if b.seen.contains b.next then Inbound.advance n { b with seen := b.seen.filter (fun q => q != b.next), next := b.next + 1 } else b

/-- A number arrives, and its packet waits to be performed. -/
def Inbound.take (b : Inbound) (p : Packet) : Inbound :=
  let k := b.place p.seq.toNat
  Inbound.advance 4097 { b with seen := b.seen ++ [k], waiting := b.waiting ++ [(k, p)] }

/-- Every packet of the connection below a place has been performed: all have arrived and none of them waits (R30). -/
def Inbound.inOrder (b : Inbound) (k : Nat) : Bool := decide (k < b.next) && b.waiting.all (fun w => decide (k ≤ w.1))

/-- How many places between two have not arrived. -/
def Inbound.missing (b : Inbound) (lo hi : Nat) : Nat :=
  (((List.range (hi - b.next)).map (fun i => b.next + i)).filter (fun k => decide (lo < k) && !b.seen.contains k)).length

/-- The place above every packet that has arrived. -/
def Inbound.top (b : Inbound) : Nat := b.seen.foldl (fun m k => max m (k + 1)) b.next

/-- The record is that of a packet's source, lane, group and tag: a command's data and its signal share them, though a multicast command's data and
signals use connections of their own (R45, R46). -/
def DataPart.of (x : DataPart) (p : Packet) : Bool :=
  x.src == p.src.toNat && x.lane == p.lane.toNat && x.group == p.group.toNat && x.tag == p.tag.toNat

/-- A data packet has been performed, or refused with a code, and is noted for its tag's signal; sent again by a restarted command, on a later place, it
takes the older one's (R45, R372). -/
def State.noteData (s : State) (k : Nat) (p : Packet) (refused : Option Nat) : State :=
  let x : DataPart :=
    { src := p.src.toNat, lane := p.lane.toNat, group := p.group.toNat, tag := p.tag.toNat, mcast := p.op == 0x05, place := k, addr := p.addr.toNat,
      len := p.payload.length, refused := refused }
  let same (y : DataPart) : Bool := y.of p && y.mcast == x.mcast && y.addr == x.addr
  if s.fabric.parts.any (fun y => same y && decide (k < y.place)) then s
  else { s with fabric := { s.fabric with parts := s.fabric.parts.filter (fun y => !same y) ++ [x] } }

/-- A signal has been added: its tag's data packets are forgotten. -/
def State.dropData (s : State) (p : Packet) : State := { s with fabric := { s.fabric with parts := s.fabric.parts.filter (fun x => !x.of p) } }

/-- The packet was cut at its length limit or at a 4 KiB boundary, so that another of its command may follow it (R361). -/
def DataPart.full (x : DataPart) : Bool := x.len == 256 || (x.addr + x.len) % 4096 == 0

/-- One data packet of a command comes right after another (R30, R361). -/
def DataPart.meets (x y : DataPart) : Bool := x.full && y.addr == x.addr + x.len && decide (x.place < y.place)

/-- The packets follow one another as a command's data does. -/
def isCommand (ds : List DataPart) : Bool :=
  decide ((ds.filter (fun x => !ds.any (fun y => x.meets y))).length ≤ 1) && decide ((ds.filter (fun y => !ds.any (fun x => x.meets y))).length ≤ 1)

/-- Some of the packets may be an earlier command's with the same tag: as many numbers that this command's first and last packets may have are missing
as the packets up to some one of them (R30, R45, log 102). -/
def mayBeOld (b : Inbound) (hi : Nat) (ds : List DataPart) : Bool :=
  ds.any (fun x =>
    let upTo := (ds.filter (fun y => decide (y.place ≤ x.place))).length
    match ds.find? (fun y => x.meets y) with
    | none => decide (upTo ≤ b.missing x.place hi)
    | some y =>
      let tail := ds.foldl (fun n z => if ds.any (fun w => z.meets w) || !z.full then n else b.missing z.place hi) 0
      decide (upTo ≤ b.missing x.place y.place + tail))

/-- A Granary message (R106). -/
def isGranary (p : Packet) : Bool := decide (0x28 ≤ p.op.toNat) && decide (p.op.toNat ≤ 0x2D)

/-- A message for an ended session's number is for a session that is still to open: its source's copy of the ended one is known to have ended, it is a
wave whose number that one has had, or it brings records, of which a terminated session leaves none on the way (R106, R108, R110, log 103). -/
def Session.past (x : Session) (p : Packet) : Bool :=
  x.endedOn.contains p.src.toNat || (p.op == 0x2A && decide (ofBytes (p.payload.take 8) ≤ x.wave)) ||
  (p.op == 0x28 && !p.payload.isEmpty && x.st == 1)

/-- The session a Granary message is for: the open one of its number, otherwise one that has ended here, on which a late message has no effect
(R106, R110, log 103). -/
def State.messageSession (s : State) (p : Packet) : Option Session :=
  match s.fabric.groups.find? (fun g => g.num == p.group.toNat) with
  | none => none
  | some g =>
    let mine := s.sessions.filter (fun x => x.fn == g.fn && x.num == p.aux.toNat && x.group == g.num)
    match mine.find? (fun x => x.st == 0) with
    | some x => some x
    | none => match mine.getLast? with
      | some x => if x.past p then none else some x
      | none => none

/-- What refuses a request before it is performed: a group that is not formed, or that a job's end dissolved (R51). -/
def State.requestRefused (s : State) (p : Packet) : Option Nat :=
  if p.op = 0x20 then none
  else match s.fabric.groups.find? (fun g => g.num == p.group.toNat) with
    | none => some (if s.fabric.ended.contains p.group.toNat then 3 else 5)
    | some g => if (s.jobAt g.fn).isNone then some 3 else none

/-- A message that no session here can take yet: it is for one that is still to open (R106). -/
def State.unopened (s : State) (p : Packet) : Bool := isGranary p && (s.requestRefused p).isNone && (s.messageSession p).isNone

/-- The sessions, by group and number, that are still to open and have messages held here (R106). -/
def State.heldSessions (s : State) : List (Nat × Nat) :=
  (((s.fabric.inbound.flatMap (fun b => b.waiting.map (fun w => w.2))).filter s.unopened).map (fun w => (w.group.toNat, w.aux.toNat))).eraseDups

/-- Those sessions, with each whose number an ended session has that holds a message which may be for the next one (R106, log 103). -/
def State.perhapsHeld (s : State) : List (Nat × Nat) :=
  (s.heldSessions ++ ((s.sessions.filter (fun x => x.st != 0 && !x.late.isEmpty)).map (fun x => (x.group, x.num)))).eraseDups

/-- A message may be for a ninth session that is still to open (R106, log 103). -/
def State.perhapsNinth (s : State) (p : Packet) : Bool :=
  let key := (p.group.toNat, p.aux.toNat)
  let next := match s.messageSession p with | some x => x.st != 0 && mayBeNext p | none => false
  (s.unopened p || (isGranary p && (s.requestRefused p).isNone && next)) && !s.heldSessions.contains key &&
  decide (8 ≤ (s.perhapsHeld.filter (fun k => k != key)).length)

/-- A message arrives for a ninth session that is still to open, while messages of eight others are held (R106); where only held messages of ended
sessions' numbers would make it the ninth, or it is itself such a message, a free choice (log 103). -/
def State.ninthSession (s : State) (p : Packet) : Bool :=
  let key := (p.group.toNat, p.aux.toNat)
  s.perhapsNinth p &&
  ((s.unopened p && !s.perhapsHeld.contains key && decide (8 ≤ (s.heldSessions.filter (fun k => k != key)).length)) || Config.choice s.fresh % 2 == 1)

/-- A signal's data packets of one kind, PUT or PUTMC, once all have been performed or refused: of its tag the last ones, as many as it names, on the
places before its own (a multicast signal has none on its data's connection), that follow one another as a command's, of which none waits and none may be
an earlier command's (R45, R46, log 102). -/
def State.dataOf (s : State) (k : Nat) (p : Packet) (mcast : Bool) : Option (List DataPart) :=
  let b := s.inboundOf (if mcast then { p with op := 0x05 } else p)
  let hi := if mcast then b.top else k
  let all := s.fabric.parts.filter (fun x => x.of p && x.mcast == mcast && decide (x.place < hi))
  let ds := all.filter (fun x => decide ((all.filter (fun (y : DataPart) => decide (x.place < y.place))).length < p.aux.toNat))
  let waits := b.waiting.any (fun w => (w.2.op == 0x01 || w.2.op == 0x05) && w.2.tag == p.tag && w.2.group == p.group && decide (w.1 < hi) &&
    ds.any (fun x => decide (x.place < w.1)))
  if ds.length = p.aux.toNat ∧ isCommand ds = true ∧ waits = false ∧ mayBeOld b hi ds = false then some ds else none

/-- A signal's data packets, once all have been performed or refused (R45, R46). -/
def State.signalData (s : State) (k : Nat) (p : Packet) : Option (List DataPart) :=
  match s.dataOf k p false with | some ds => some ds | none => s.dataOf k p true

/-- What refuses a signal: what refuses any request, or the code with which a data packet of its command was refused (R51, log 102). -/
def State.signalRefused (s : State) (k : Nat) (p : Packet) : Option Nat :=
  match s.requestRefused p with
  | some code => some code
  | none => if p.op = 0x02 then ((s.signalData k p).getD []).findSome? (fun x => x.refused) else none

/-- A waiting packet may be performed: its order (R30), a signal's data (R45), a session that is open in a job that is not being suspended and has
room for what a transfer brings (R86, R104, R106): messages are held in STATE 6 and not yet in STATE 5 (log 119). -/
def State.performable (s : State) (b : Inbound) (w : Nat × Packet) : Bool :=
  let p := w.2
  (p.ord == 0 || b.inOrder w.1) && (p.op != 0x02 || (s.requestRefused p).isSome || (s.signalData w.1 p).isSome) &&
  (!isGranary p || (s.requestRefused p).isSome ||
    (match s.messageSession p with | some x => decide ((s.fnAt x.fn).st ≠ 6) && (x.st != 0 || s.mayTake x.uid p) | none => false))

/-- Bytes of a checkpoint region, whose channels all stand (R12, R20). -/
def State.ckptStands (s : State) (pa n : Nat) : Bool :=
  decide (0x140000000000 ≤ pa) && decide (pa + n ≤ 0x180000000000) &&
  (List.range 16).all (fun c => s.chan (768 + c) != 3 || !(decide (pa < 0x140000000000 + (c + 1) * 2 ^ 38) && decide (0x140000000000 + c * 2 ^ 38 < pa + n)))

/-- How a performed request is answered. -/
inductive Reply where
  | ack
  | nack (code : Nat)
  | response (op : Nat) (bs : List Byte)
  deriving DecidableEq, Repr

/-- A failed translation or permission of a remote access: NACK 1 or 2, and the target's job stops (R51). -/
def State.remoteFailure (s : State) (fn : Nat) (p : Packet) (code addr : Nat) : State × Reply :=
  let n := if code = 0x12 then 2 else 1
  (s.remoteFatal fn (s.rootCore fn) p.src.toNat n 0 (BitVec.ofNat 64 addr), .nack n)

/-- A request at a place of its connection is performed for the job of a function (R31, R44 to R49, R51, R106). A signal at a misaligned word is refused as a Cellarer operand is
(R45, R49, log 101). -/
def State.performRequest (s : State) (fn k : Nat) (p : Packet) : State × Reply :=
  let addr := p.addr.toNat
  match p.op.toNat with
  | 0x01 | 0x05 =>
    match s.writeAt (.remote fn) addr p.payload with
    | .error e => s.remoteFailure fn p e.1 e.2
    | .ok s => (s.noteData k p none, .ack)
  | 0x02 =>
    match cellar s (.remote fn) 0x16 0 addr (toBytes 8 1) with
    | .done s _ => (s.dropData p, .ack)
    | .xlate c a => s.remoteFailure fn p c a
    | _ => (s, .nack 6)
  | 0x03 =>
    match s.readAt (.remote fn) addr p.aux.toNat with
    | .error e => s.remoteFailure fn p e.1 e.2
    | .ok (bs, s) => (s, .response 0x04 bs)
  | 0x20 =>
    let n := p.payload.length
    if p.phys = 1 ∧ s.ckptStands addr n = true ∧ s.fabric.grants.any (fun g => g.dev == p.src.toNat && decide (g.base ≤ addr) && decide (addr + n ≤ g.base + g.len))
    then (s.larderWrite addr p.payload, .ack)
    else (s, .nack 2)
  | op =>
    if 0x28 ≤ op then
      match s.messageSession p with
      | none => (s, .nack 5)
      | some x => (s.granaryMsg x.uid p, .ack)
    else match cellar s (.remote fn) op p.aux.toNat addr p.payload with
      | .done s ret => (s, if celReturns op then .response 0x18 ret else .ack)
      | .xlate c a => s.remoteFailure fn p c a
      | .align => (s, .nack 6)
      | .shadows => (s, .nack 7)
      | .form => (s.countMalformed, .nack 4)

/-- A data packet was refused, and its signal will be with it (R45, R51). -/
def State.refuseData (s : State) (k : Nat) (p : Packet) (code : Nat) : State :=
  if p.op = 0x01 ∨ p.op = 0x05 then s.noteData k p (some code) else s

/-- A refusal is kept with its number, for duplicates, and sent (R35, R51). -/
def State.refuse (s : State) (p : Packet) (code : Nat) : State :=
  let b := s.inboundOf p
  (s.putInbound { b with refused := b.refused.filter (fun x => x.1 != p.seq.toNat) ++ [(p.seq.toNat, code)] }).nackTo p code

/-- Performs a waiting packet and answers it; a response is kept until it is acknowledged (R36). -/
def State.performPacket (s : State) (b : Inbound) (w : Nat × Packet) : State :=
  let p := w.2
  let s := s.putInbound { b with waiting := b.waiting.filter (fun x => x.1 != w.1) }
  let fn := match s.fabric.groups.find? (fun g => g.num == p.group.toNat) with | some g => g.fn | none => 0
  let (s, r) := match s.signalRefused w.1 p with
    | some code => (s.refuseData w.1 p code, Reply.nack code)
    | none => s.performRequest fn w.1 p
  match r with
  | .ack => s.ackTo p
  | .nack code => s.refuse p code
  | .response op bs =>
    let q := sealPacket (s.replyTo p op 0 bs)
    let k : Kept := { src := p.src.toNat, lane := p.lane.toNat, seq := p.seq.toNat, pkt := q, resends := 0 }
    ({ s with fabric := { s.fabric with kept := s.fabric.kept ++ [k] } }).emit q

/-- Performs every waiting packet that may be, at most `n` of them. -/
def State.drainInbound : Nat → State → State
  | 0, s => s
  | n + 1, s =>
    match s.fabric.inbound.findSome? (fun b => (b.waiting.find? (fun w => s.performable b w)).map (fun w => (b, w))) with
    | none => s
    | some (b, w) => State.drainInbound n (s.performPacket b w)

/-- Waiting packets of all connections. -/
def State.waitingCount (s : State) : Nat := s.fabric.inbound.foldl (fun n b => n + b.waiting.length) 0

/-- A duplicate: its response, which only a unicast connection keeps, or its acknowledgement again, and nothing for one that still waits (R35, R36). -/
def State.duplicate (s : State) (b : Inbound) (p : Packet) : State :=
  if b.waiting.any (fun w => w.1 == b.place p.seq.toNat) then s
  else match s.fabric.kept.find? (fun k => (mgroupOf p).isNone && k.src == p.src.toNat && k.lane == p.lane.toNat && k.seq == p.seq.toNat) with
    | some k => s.emit k.pkt
    | none =>
      match b.refused.find? (fun x => x.1 == p.seq.toNat) with
      | some x => s.nackTo p x.2
      | none => s.ackTo p

/-- The packet is for this device, which has a number (R25, R27). -/
def State.addressed (s : State) (p : Packet) : Bool :=
  match s.fabric.devnum with | none => false | some n => p.op == 0x05 || p.dst.toNat == n

/-- The checks of a packet hold; without them it is dropped and not acknowledged (R50). -/
def checksOk (p : Packet) : Bool := p.hchk == headerCheck p && p.pchk == payloadCheck p.payload

/-- A sequenced request arrives (R28, R30, R35, R50); one of a number beyond the record's is dropped, and its source sends it again (log 101), and a
message for a ninth session that has not opened is refused as it arrives (R106). -/
def State.receive (s : State) (op : Nat) (p : Packet) : State :=
  if (p.op.toNat ≠ op ∧ assignedOp p) ∨ !s.addressed p then s
  else if !packetOk p then s.malformed p
  else if !checksOk p then s
  else
    let b := s.inboundOf p
    if b.arrived p.seq.toNat then s.duplicate b p
    else if !b.covers p.seq.toNat then s
    else
      let ninth := s.ninthSession p
      let s := if s.perhapsNinth p then { s with fresh := s.fresh + 1 } else s
      let k := b.place p.seq.toNat
      let b := b.take p
      let b := { b with refused := b.refused.filter (fun x => x.1 != p.seq.toNat) }
      let s := s.putInbound (if ninth then { b with waiting := b.waiting.filter (fun w => w.1 != k) } else b)
      let s := if ninth then s.refuse p 5 else s
      State.drainInbound s.waitingCount s

/-- A RED packet arrives (R37, R43, R51, R368). -/
def State.receiveRed (s : State) (p : Packet) : State :=
  if (p.op ≠ 0x08 ∧ assignedOp p) ∨ !s.addressed p then s
  else if !packetOk p then s.malformed p
  else if p.hchk ≠ headerCheck p then s
  else match s.fabric.groups.find? (fun g => g.num == p.group.toNat) with
    | none => s.nackTo p (if s.fabric.ended.contains p.group.toNat then 3 else 5)
    | some _ =>
      let x := p.aux.toNat
      let op := bits x 2 4
      let mode := bits x 0 2
      let w := redOperand op mode
      let xs := (List.range (bits x 6 6 + 1)).map (fun i => ofBytes ((p.payload.drop (w * i)).take w))
      let s := s.redArrive p.group.toNat p.addr.toNat op mode p.cnode.toNat xs (p.pchk == payloadCheck p.payload)
      match s.fabric.reds.find? (fun r => r.bad && r.entry.isSome && r.holds p.group.toNat p.addr.toNat op mode) with
      | some r =>
        match r.entry with
        | some (c, n) => s.onCore c (fun s => match (s.core.queue 3).entries.find? (fun e => e.num == n) with
          | some e => s.stopBad e 3
          | none => s)
        | none => s
      | none => s

/-! Answers at the source (R34 to R36, R46, R51) -/

/-- The answer is for this packet (R29, R34). -/
def Unacked.answeredBy (u : Unacked) (p : Packet) : Bool :=
  u.pkt.seq == p.seq && u.pkt.tag == p.tag && u.conn.lane == p.lane.toNat &&
  (if u.conn.mcast then u.conn.peer == p.group.toNat && u.members.contains p.src.toNat else u.conn.peer == p.src.toNat)

/-- The packet an answer is for. -/
def State.unackedFor (s : State) (p : Packet) : Option Unacked := s.fabric.unacked.find? (fun u => u.answeredBy p)

/-- A packet no longer waits. -/
def State.dropUnacked (s : State) (u : Unacked) : State :=
  { s with fabric := { s.fabric with unacked := s.fabric.unacked.filter (fun x => x != u) } }

/-- One member of a multicast has answered: the packet waits for the rest. -/
def State.memberDone (s : State) (u : Unacked) (dev : Nat) : State :=
  let ms := u.members.filter (fun m => m != dev)
  if ms.isEmpty then s.dropUnacked u
  else { s with fabric := { s.fabric with unacked := s.fabric.unacked.map (fun x => if x = u then { x with members := ms } else x) } }

/-- The entry that sent a packet, with its core in focus. -/
def State.withEntry (s : State) (o : Origin) (f : State → Entry → State) : State :=
  match o with
  | .queue c t n =>
    let k := s.coreAt c
    if k.run ≠ .idle ∧ k.task.num = t then
      s.onCore c (fun s => match (s.core.queue 3).entries.find? (fun e => e.num == n) with | some e => f s e | none => s)
    else s
  | _ => s

/-- The element of an entry that a packet is. -/
def Entry.elemOf (e : Entry) (p : Packet) : Nat :=
  if p.op = 0x02 then e.cuts.length
  else match e.op with
    | .cel => 0
    | _ => (e.cuts.findIdx? (fun c => (nth 0 e.group 1).toNat + c.1 == p.addr.toNat)).getD 0

/-- A member of a multicast has failed (R46). -/
def State.memberFailed (s : State) (u : Unacked) (dev : Nat) : State :=
  (s.withEntry u.origin (fun s e => s.modEntry 3 e.num (fun x => { x with failed := x.failed.filter (fun d => d != dev) ++ [dev] }))).memberDone u dev

/-- A checkpoint transfer ends with a RESULT for the PF's mailbox (R17, R63); what it has sent is still resent until it is acknowledged, for nobody
(R34). -/
def State.moverEnd (s : State) (result : Nat) (out : List Byte) : State :=
  match s.fabric.mover with
  | none => s
  | some _ =>
    let orphan (u : Unacked) : Unacked := if u.origin = .mover then { u with origin := .nobody } else u
    let s := { s with fabric := { s.fabric with mover := none, unacked := s.fabric.unacked.map orphan } }
    s.modFn 0 (fun f => { f with monitor := { f.monitor with pendResult := result, pendOut := out } })

/-- The mover sends what its window lets it, and ends once all is acknowledged (R17, R34). -/
def State.moverGo : Nat → State → State
  | 0, s => s
  | n + 1, s =>
    match s.fabric.mover with
    | none => s
    | some m =>
      match m.queue with
      | p :: r =>
        if 4096 ≤ s.inWindow (connOf p) then s
        else State.moverGo n (({ s with fabric := { s.fabric with mover := some { m with queue := r } } }).send p .mover false [] 0)
      | [] => if s.fabric.unacked.any (fun u => u.origin == .mover) then s else s.moverEnd 0 (toBytes 8 m.total)

/-- A connection's window has more room: the mover goes on, and messages that waited are sent (R17, R34). -/
def State.windowOpen (s : State) : State := (State.moverGo 4097 s).flushBacklog

/-- What follows when a packet has been acknowledged: a session is known to have opened there, and to have ended where the packet ended it (R110 to
R112). -/
def State.afterAck (s : State) (u : Unacked) (dev : Nat) : State :=
  match u.origin with
  | .granary uid => s.modSession uid (fun x => x.heardFrom dev (u.pkt.op == 0x2C || u.pkt.op == 0x2D))
  | _ => s

/-- An ACK arrives (R34 to R36). -/
def State.receiveAck (s : State) (p : Packet) : State :=
  if (p.op ≠ 0x06 ∧ assignedOp p) ∨ !s.addressed p then s
  else if !packetOk p then s.malformed p
  else if !checksOk p then s
  else if p.aux = 1 then
    { s with fabric := { s.fabric with kept := s.fabric.kept.filter (fun k =>
      !(k.src == p.src.toNat && k.lane == p.lane.toNat && k.seq == p.seq.toNat)) } }
  else match s.unackedFor p with
    | none => s
    | some u =>
      if u.conn.mcast then (s.memberDone u p.src.toNat).windowOpen
      else if u.response then s
      else ((s.dropUnacked u).afterAck u p.src.toNat).windowOpen

/-- The function whose job sent a packet, while that job lasts (R34, R51). -/
def State.jobOf (s : State) (u : Unacked) : Option Nat :=
  match u.job with
  | none => none
  | some (fn, root) => match s.jobAt fn with | some j => if j.rootTask = root then some fn else none | none => none

/-- The bundle of the entry that sent a packet, while the entry is there. -/
def State.originPc (s : State) (o : Origin) : Word :=
  match o with
  | .queue c t n =>
    let k := s.coreAt c
    if k.run ≠ .idle ∧ k.task.num = t then match (k.queue 3).entries.find? (fun e => e.num == n) with | some e => e.pc | none => k.pc
    else 0
  | _ => 0

/-- The core of an origin, otherwise the one that the job's root task is on. -/
def State.originCore (s : State) (o : Origin) (fn : Nat) : Nat := match o with | .queue c _ _ => c | _ => s.rootCore fn

/-- NACK 1 or 2: the source's own job stops, whether or not the command still stands (R51). -/
def State.sourceFatal (s : State) (u : Unacked) (dev code : Nat) : State :=
  match s.jobOf u with
  | none => s
  | some fn => s.remoteFatal fn (s.originCore u.origin fn) dev code (s.originPc u.origin) (u.pkt.addr.zeroExtend 64)

/-- A command's packet was refused with a code that stops its queue: LINK_DEAD, ALIGN or REDMODE; a code that R51 reserves counts as code 3
(R28, R49, R51, R159; log 101). -/
def State.commandRefused (s : State) (u : Unacked) (dev code : Nat) : State :=
  s.withEntry u.origin (fun s e =>
    let f := s.core.entryFault 3 e 0x35
    let k := e.ctl
    let a := u.pkt.addr.toNat
    let g := match code with
      | 6 => celFault f dev k.lane u.pkt.op.toNat u.pkt.aux.toNat a .align
      | 7 => celFault f dev k.lane u.pkt.op.toNat u.pkt.aux.toNat a .shadows
      | 4 => linkDead f dev k.lane 5
      | _ => linkDead f dev k.lane 2
    if e.op = .putm ∧ u.pkt.op = 0x02 ∧ (code = 3 ∨ code = 5) then
      s.modEntry 3 e.num (fun x => { x with failed := x.failed.filter (fun d => d != dev) ++ [dev] })
    else s.stopQueue 3 e.num (e.elemOf u.pkt) g)

/-- A NACK arrives (R28, R46, R49, R51, R112, R159). A transfer that meets any code but 2 ends as if its connection were dead (R17, log 101). -/
def State.receiveNack (s : State) (p : Packet) : State :=
  if (p.op ≠ 0x07 ∧ assignedOp p) ∨ !s.addressed p then s
  else if !packetOk p then s.malformed p
  else if !checksOk p then s
  else match s.unackedFor p with
    | none => s
    | some u =>
      let code := p.aux.toNat
      let dev := p.src.toNat
      match u.origin with
      | .mover => ((s.dropUnacked u).moverEnd (if code = 2 then 5 else 6) []).windowOpen
      | .granary uid => ((s.dropUnacked u).messageRefused uid u.pkt code).windowOpen
      | .nobody => (s.dropUnacked u).windowOpen
      | .queue _ _ _ =>
        if code = 1 ∨ code = 2 then (s.dropUnacked u).sourceFatal u dev code
        else if (code = 3 ∨ code = 5) ∧ u.conn.mcast then (s.memberFailed u dev).windowOpen
        else ((s.dropUnacked u).commandRefused u dev code).windowOpen

/-- A GETRESP or CELRESP arrives: it is acknowledged, and the first for an outstanding request is applied, a GET's also while its queue is stopped;
that of a stopped qcel waits for the restart (R36, R44, R365). -/
def State.receiveResponse (s : State) (op : Nat) (p : Packet) : State :=
  if (p.op.toNat ≠ op ∧ assignedOp p) ∨ !s.addressed p then s
  else if !packetOk p then s.malformed p
  else if !checksOk p then s
  else
    let s := s.emit (s.replyTo p 0x06 1 [])
    match s.unackedFor p with
    | none => s
    | some u =>
      if !u.response then s
      else
        ((s.dropUnacked u).withEntry u.origin (fun s e =>
          if u.pkt.op = 0x03 then
            let i := e.elemOf u.pkt
            match s.locWrite (s.core.entryFault 3 e 0x30) i ((e.loc s.core.cluster 0).shift (u.loc.toNat : Int)) p.payload with
            | .ok s => s
            | .error f => s.stopQueue 3 e.num i f
          else if (s.core.queue 3).stop.isSome && (s.core.queue 3).stopNum == e.num then
            s.modEntry 3 e.num (fun x => { x with answer := p.payload })
          else match s.answer e p.payload with
            | (.ok s, _) => s
            | (.error f, s) => s.stopQueue 3 e.num 0 f)).windowOpen

/-! Timers and links (R33, R34, R36, R43) -/

/-- What a packet given up by a dead connection means to the command that sent it (R34, R46). -/
def State.packetLost (s : State) (c : Conn) (u : Unacked) : State :=
  let fail (ds : List Nat) (s : State) (e : Entry) : State :=
    s.modEntry 3 e.num (fun x => { x with failed := x.failed.filter (fun y => !ds.contains y) ++ ds })
  match u.origin with
  | .mover | .granary _ | .nobody => s
  | .queue _ _ _ =>
    s.withEntry u.origin (fun s e =>
      if u.conn.mcast then fail u.members s e
      else if e.op = .putm then fail [c.peer] s e
      else s.stopQueue 3 e.num (e.elemOf u.pkt) (linkDead (s.core.entryFault 3 e 0x35) c.peer c.lane 1))

/-- The connection of the mover (R17). -/
def Mover.conn (m : Mover) : Conn := { mcast := false, peer := m.dev, lane := 6 }

/-- A transfer whose connection is dead has ended, whether or not it had packets on it (R17). -/
def State.moverLost (s : State) (c : Conn) : State :=
  match s.fabric.mover with | some m => if m.conn = c then s.moverEnd 6 [] else s | none => s

/-- A connection is dead: it stays closed until the jobs whose packets it gave up end, and all that waits on it fails (R17, R34, R46, R112). Open again,
it goes on from its last sequence number, and its record at the target stays as it was: R34 does not say which numbers it then uses (DESIGN CHOICE,
log 123). -/
def State.connectionDead (s : State) (c : Conn) : State :=
  let gone := s.fabric.unacked.filter (fun u => u.conn == c)
  let by_ := ((gone.filterMap s.jobOf).map (fun f => (c, f))).eraseDups
  let s := { s with fabric := { s.fabric with
    closed := if by_.isEmpty then s.fabric.closed else s.fabric.closed.filter (fun x => x != c) ++ [c],
    closers := s.fabric.closers.filter (fun x => !by_.contains x) ++ by_,
    unacked := s.fabric.unacked.filter (fun u => u.conn != c) } }
  let s := gone.foldl (fun s u => s.packetLost c u) (s.moverLost c)
  if c.mcast || c.lane != 7 then s else s.sessionsLost c.peer

/-- The end-to-end timer of a packet expires: resent, or its connection is dead after eight resends (R34). -/
def State.packetTimeout (s : State) (c : Conn) (seq : Nat) : State :=
  match s.fabric.unacked.find? (fun u => u.conn == c && u.pkt.seq.toNat == seq) with
  | none => s
  | some u =>
    if 8 ≤ u.resends then s.connectionDead c
    else
      let again (x : Unacked) : Unacked := if x = u then { x with resends := x.resends + 1 } else x
      let s := { s with fabric := { s.fabric with unacked := s.fabric.unacked.map again } }
      s.emit u.pkt

/-- The timer of a kept response expires: resent, or dropped after eight resends (R36). -/
def State.responseTimeout (s : State) (c : Conn) (seq : Nat) : State :=
  match s.fabric.kept.find? (fun k => k.src == c.peer && k.lane == c.lane && k.seq == seq) with
  | none => s
  | some k =>
    if 8 ≤ k.resends then { s with fabric := { s.fabric with kept := s.fabric.kept.filter (fun x => x != k) } }
    else
      let again (x : Kept) : Kept := if x = k then { x with resends := x.resends + 1 } else x
      let s := { s with fabric := { s.fabric with kept := s.fabric.kept.map again } }
      s.emit k.pkt

/-- A bad link CRC: replays are counted, and a port that cannot retrain after 16 is down, until device reset (R24, R33, log 101). Which ports carry a
packet shows in no state; that packets pass even with every port down is the model's choice (R24, log 101). -/
def State.linkError (s : State) (port failed : Nat) (retrained : Bool) : State :=
  let p := nth (true, 0) s.service.ports port
  let p' := (p.1 && (decide (failed < 16) || retrained), p.2 + failed)
  { s with service := { s.service with ports := s.service.ports.set port p' } }

/-- A kept reduction's time is over: it is discarded with what still arrives for it, and its entry stops, or will as soon as it starts (R43, R368).
One whose results only wait to be written, or that was discarded before, has no timer. -/
def State.redTimeout (s : State) (idx : Nat) : State :=
  match s.fabric.reds[idx]? with
  | none => s
  | some r =>
    let with_ (x : Reduction) : State := { s with fabric := { s.fabric with reds := s.fabric.reds.set idx x } }
    match r.entry with
    | none => if r.gone || r.bad then s else with_ { r with runs := [], late := true }
    | some (c, n) =>
      let t := with_ { r with entry := none, runs := [] }
      if r.bad || r.late then s
      else match ((s.coreAt c).queue 3).entries.find? (fun e => e.num == n) with
      | none => t
      | some e =>
        if (redResults (collOf e.group) r).isSome then s else s.onCore c (fun s => s.stopBad e 4)

/-! One meaning per instruction -/

/-- PUT (R44). -/
def execPut (p : Packet) (s : State) : Host.Outcome State Fault Refusal := deviceStep (fun s => s.receive 0x01 p) s

/-- PUTSIG (R45). -/
def execPutsig (p : Packet) (s : State) : Host.Outcome State Fault Refusal := deviceStep (fun s => s.receive 0x02 p) s

/-- GET (R44). -/
def execGet (p : Packet) (s : State) : Host.Outcome State Fault Refusal := deviceStep (fun s => s.receive 0x03 p) s

/-- GETRESP (R36). -/
def execGetresp (p : Packet) (s : State) : Host.Outcome State Fault Refusal := deviceStep (fun s => s.receiveResponse 0x04 p) s

/-- PUTMC (R46). -/
def execPutmc (p : Packet) (s : State) : Host.Outcome State Fault Refusal := deviceStep (fun s => s.receive 0x05 p) s

/-- ACK (R34). -/
def execAck (p : Packet) (s : State) : Host.Outcome State Fault Refusal := deviceStep (fun s => s.receiveAck p) s

/-- NACK (R51). -/
def execNack (p : Packet) (s : State) : Host.Outcome State Fault Refusal := deviceStep (fun s => s.receiveNack p) s

/-- RED (R368). -/
def execRed (p : Packet) (s : State) : Host.Outcome State Fault Refusal := deviceStep (fun s => s.receiveRed p) s

/-- FETCH_AND_OP (R48). -/
def execFetchAndOp (p : Packet) (s : State) : Host.Outcome State Fault Refusal := deviceStep (fun s => s.receive 0x10 p) s

/-- COMPARE_AND_SWAP (R48). -/
def execCompareAndSwap (p : Packet) (s : State) : Host.Outcome State Fault Refusal := deviceStep (fun s => s.receive 0x11 p) s

/-- LIST_ENQUEUE (R48). -/
def execListEnqueue (p : Packet) (s : State) : Host.Outcome State Fault Refusal := deviceStep (fun s => s.receive 0x12 p) s

/-- LIST_DEQUEUE (R48). -/
def execListDequeue (p : Packet) (s : State) : Host.Outcome State Fault Refusal := deviceStep (fun s => s.receive 0x13 p) s

/-- POINTER_CHASE (R48). -/
def execPointerChase (p : Packet) (s : State) : Host.Outcome State Fault Refusal := deviceStep (fun s => s.receive 0x14 p) s

/-- EXACT_REDUCE (R48). -/
def execExactReduce (p : Packet) (s : State) : Host.Outcome State Fault Refusal := deviceStep (fun s => s.receive 0x15 p) s

/-- SIGNAL_ADD (R48). -/
def execSignalAdd (p : Packet) (s : State) : Host.Outcome State Fault Refusal := deviceStep (fun s => s.receive 0x16 p) s

/-- BOUNDED_COPY (R48). -/
def execBoundedCopy (p : Packet) (s : State) : Host.Outcome State Fault Refusal := deviceStep (fun s => s.receive 0x17 p) s

/-- CELRESP (R36). -/
def execCelresp (p : Packet) (s : State) : Host.Outcome State Fault Refusal := deviceStep (fun s => s.receiveResponse 0x18 p) s

/-- CKPT (R47). -/
def execCkpt (p : Packet) (s : State) : Host.Outcome State Fault Refusal := deviceStep (fun s => s.receive 0x20 p) s

/-- GXFER (R109). -/
def execGxfer (p : Packet) (s : State) : Host.Outcome State Fault Refusal := deviceStep (fun s => s.receive 0x28 p) s

/-- GBREQ (R109). -/
def execGbreq (p : Packet) (s : State) : Host.Outcome State Fault Refusal := deviceStep (fun s => s.receive 0x29 p) s

/-- GWAVE (R108). -/
def execGwave (p : Packet) (s : State) : Host.Outcome State Fault Refusal := deviceStep (fun s => s.receive 0x2A p) s

/-- GWREP (R108). -/
def execGwrep (p : Packet) (s : State) : Host.Outcome State Fault Refusal := deviceStep (fun s => s.receive 0x2B p) s

/-- GTERM (R110). -/
def execGterm (p : Packet) (s : State) : Host.Outcome State Fault Refusal := deviceStep (fun s => s.receive 0x2C p) s

/-- GCANCEL (R111). -/
def execGcancel (p : Packet) (s : State) : Host.Outcome State Fault Refusal := deviceStep (fun s => s.receive 0x2D p) s

/-- E2E_TIMEOUT (R34). -/
def execE2eTimeout (conn : Conn) (seq : BitVec 16) (s : State) : Host.Outcome State Fault Refusal :=
  deviceStep (fun s => s.packetTimeout conn seq.toNat) s

/-- RESPONSE_TIMEOUT (R36). -/
def execResponseTimeout (conn : Conn) (seq : BitVec 16) (s : State) : Host.Outcome State Fault Refusal :=
  deviceStep (fun s => s.responseTimeout conn seq.toNat) s

/-- LINK_CRC_ERROR (R33). -/
def execLinkCrcError (port : Fin 12) (failed : Nat) (retrained : Bool) (s : State) : Host.Outcome State Fault Refusal :=
  deviceStep (fun s => s.linkError port.val failed retrained) s

/-- REDUCTION_TIMEOUT (R43). -/
def execReductionTimeout (idx : Nat) (s : State) : Host.Outcome State Fault Refusal := deviceStep (fun s => s.redTimeout idx) s

end Sys2Proof.Machine
end

