-- ==== Sys2Proof/Machine/Host.lean ====
section
/-!
DEFINITION. The endpoint, job control, mailboxes and firmware (R17, R21, R23, R25, R26, R47, R52 to R67), and the validation and start of a
job (R56 to R58, R87 to R89).
-/
namespace Sys2Proof.Machine

/-! Job images (R56) -/

/-- The fields of a job image header (R56). -/
structure ImageHeader where
  ckpt : Bool
  len : Nat
  imgva : Nat
  plan : Nat
  root : Nat
  inbox : Nat
  stat : Nat
  spill : Nat
  pbudget : Nat
  attic : Nat
  ctx : Nat
  deriving DecidableEq, Repr

/-- Reads the fields of a job image header (R56). -/
def imageHeader (bs : List Byte) : ImageHeader :=
  let f := fieldAt bs
  { ckpt := bit (f 6 2) 0, len := f 0x08 8, imgva := f 0x10 8, plan := f 0x18 8, root := f 0x20 8, inbox := f 0x28 8, stat := f 0x30 8,
    spill := f 0x38 8, pbudget := f 0x40 4, attic := f 0x48 8, ctx := f 0x50 8 }

/-- MAGIC, VERSION and the reserved fields of an image header (R56, R58 code 1). -/
def imageFormOk (bs : List Byte) : Bool :=
  let f := fieldAt bs
  f 0 4 == 0x4A424947 && f 4 2 == 1 && decide (f 6 2 < 2) && f 0x44 4 == 0 && zeroBytes bs 0x58 40 && f 0x38 8 % 4096 == 0

/-- A region of an image (R56). -/
def insideImage (h : ImageHeader) (off len : Nat) : Bool := decide (off + len ≤ h.len)

/-- `n` bytes from `pa` on, as a plain read at the Larder finds them. -/
def State.imageBytes (s : State) (pa n : Nat) : List Byte := (s.larderRead pa n).1

/-! The memory plan (R87 to R89) -/

/-- The plan header's fields when it is well formed and its tables lie in the image: phases, mappings and their tables' offsets in the image (R87).
Tables and carve arrays outside the image are code 7, as parts of a malformed plan (log 53). -/
def State.planHeader (s : State) (img : Nat) (h : ImageHeader) : Option (Nat × Nat × Nat × Nat) :=
  let bs := s.imageBytes (img + h.plan) 64
  let f := fieldAt bs
  let np := f 6 2
  let nm := f 8 4
  let mo := f 0x10 8
  let po := f 0x18 8
  if f 0 4 == 0x504C414E && f 4 2 == 1 && decide (1 ≤ np) && decide (np ≤ 64) && decide (1 ≤ nm) && f 0x0C 4 == 0 && mo % 32 == 0 &&
      po % 32 == 0 && zeroBytes bs 0x20 32 && insideImage h (h.plan + mo) (32 * nm) && insideImage h (h.plan + po) (32 * np)
  then some (np, nm, h.plan + mo, h.plan + po) else none

/-- The mapping entries of a plan, with those that are well formed by themselves marked (R88). -/
def State.planMaps (s : State) (img nm mo : Nat) : List (Mapping × Bool) :=
  (List.range nm).map (fun i =>
    let (m, attr) := mappingOf (s.imageBytes (img + mo + 32 * i) 32)
    (m, m.formOk && decide (attr < 2 ^ 5)))

/-- A carve element is well formed (R89, R146). -/
def carveOk (bs : List Byte) : Bool :=
  decide ((nth 0 bs 0).toNat ≤ 16) && zeroBytes bs 1 7 && (List.range 16).all (fun b => decide (bits (fieldAt bs 8 8) (4 * b) 4 ≤ 10))

/-- A phase entry: its attic size and carve elements, with a mark when its fields and the elements of the function's cores are well formed (R89). -/
def State.planPhase (s : State) (f img : Nat) (h : ImageHeader) (at_ : Nat) : Phase × Bool :=
  let bs := s.imageBytes (img + at_) 32
  let carve := h.plan + fieldAt bs 8 8
  let ok := fieldAt bs 0 4 % 4096 == 0 && zeroBytes bs 4 4 && zeroBytes bs 16 16 && insideImage h carve 4096
  if ok then
    let es := (List.range 256).map (fun c => s.imageBytes (img + carve + 16 * c) 16)
    ({ attic := fieldAt bs 0 4, carve := es.map (fun e => ((nth 0 e 0).toNat, fieldAt e 8 8)) },
      es.zipIdx.all (fun p => !((s.fnAt f).clusters.getLsbD (p.2 / 8)) || carveOk p.1))
  else ({ attic := fieldAt bs 0 4, carve := [] }, false)

/-- A range of a checkpoint region (R12, R15). -/
def touchesCheckpoint (pa len : Nat) : Bool := overlaps pa len 0x140000000000 0x40000000000

/-- A range in HBM or in working Cellar (R12). -/
def inMemory (pa len : Nat) : Bool := decide (pa + len ≤ 0xC000000000) || (decide (0x100000000000 ≤ pa) && decide (pa + len ≤ 0x140000000000))

/-- The state with everything that is held until the job boundary in force (R21). -/
def State.withHeld (s : State) : State := { s with ladders := s.ladders.settled }

/-- A range of a region that is withdrawn, or is about to be: by a held result, or as the shadow area that will move (R20, R21, R159). -/
def State.withdrawn (s : State) (pa len : Nat) : Bool :=
  !s.withHeld.rangeOk pa len ||
  (match s.withHeld.shadowArea with
    | some b => s.shadowArea != some b && overlaps pa len b (2 ^ 30)
    | none => false)

/-- The mappings carry the image at IMGVA: each virtual range from `va` on stands at the same distance from `pa` (R56, R58). -/
def mapsImage (maps : List Mapping) (va pa len : Nat) : Nat → Bool
  | 0 => len == 0
  | n + 1 =>
    if len = 0 then true
    else match maps.find? (fun m => m.covers va) with
      | none => false
      | some m =>
        let k := min len (m.va + m.len - va)
        m.pa + (va - m.va) == pa && mapsImage maps (va + k) (pa + k) (len - k) n

/-- No two ranges of virtual addresses overlap (R88). -/
def disjointMaps : List Mapping → Bool
  | [] => true
  | m :: r => r.all (fun x => !overlaps m.va m.len x.va x.len) && disjointMaps r

/-- What the Monitor finds in an image: a job and its root kernel, or the lowest reject code of R58. A phase entry 0 that is malformed itself still
gives its ATTICSZ to the check of ROOTATTIC's region, and of a phase entry with a malformed field or element no element is checked for code 6 (log 53). -/
def State.validate (s : State) (f : Nat) : Except Nat (Job × KernelHeader × Nat × ImageHeader) :=
  let fn := s.fnAt f
  let img := fn.latched
  let bs := s.imageBytes img 128
  let h := imageHeader bs
  if 0xC000000000 < img + 128 then .error 2
  else if !imageFormOk bs then .error 1
  else
    let place := h.len % 65536 == 0 && decide (img + h.len ≤ 0xC000000000) && fn.owns img h.len && insideImage h 0 128 &&
      insideImage h h.plan 64 && h.root % 128 == 0 && insideImage h h.root 128 && h.inbox % 4096 == 0 && insideImage h h.inbox 4096 &&
      h.stat % 8 == 0 && insideImage h h.stat 8 && h.attic % 4096 == 0 && insideImage h h.attic 0 && h.ctx % 256 == 0 &&
      insideImage h h.ctx 0x3D0000
    if !place then .error 2
    else
      let plan := s.planHeader img h
      let maps := match plan with | some (_, nm, mo, _) => s.planMaps img nm mo | none => []
      let good := (maps.map (fun p => p.1)).filter (fun m => decide (0 < m.len) && decide (m.pa + m.len ≤ 2 ^ 64))
      let phases := match plan with
        | some (np, _, _, po) => (List.range np).map (fun i => s.planPhase f img h (po + 32 * i))
        | none => []
      let attic0 := (phases.map (fun p => p.1.attic)).headD 0
      let kbs := s.imageBytes (img + h.root) 128
      let kern := parseKernel kbs
      let cores := (List.range 256).filter (fun c => fn.clusters.getLsbD (c / 8))
      let retiredTagged := phases.any (fun p => p.2 && cores.any (fun c => (List.range 16).any (fun b =>
        decide (16 - (nth (0, 0) p.1.carve c).1 ≤ b) && s.rung c b == 3)))
      let shadow := s.shadowArea
      if !insideImage h h.attic attic0 then .error 2
      else if good.any (fun m => touchesCheckpoint m.pa m.len) then .error 3
      else if h.ckpt && decide (2 ^ 42 < (good.filter (fun m => inMemory m.pa m.len)).foldl (fun n m => n + m.len) 0) then .error 4
      else if good.any (fun m => inMemory m.pa m.len && s.withdrawn m.pa m.len) then .error 5
      else if (match kern with | some k => !(cores.any (fun c => s.eligible f k.caps 0 c)) | none => false) || retiredTagged then .error 6
      else match kern with
        | none => .error 7
        | some k =>
          let ms := maps.map (fun p => p.1)
          if plan.isSome && maps.all (fun p => p.2 && inMemory p.1.pa p.1.len && s.mapOk f shadow p.1) && disjointMaps ms &&
              phases.all (fun p => p.2) && decide (h.imgva < 2 ^ 56) && mapsImage ms h.imgva img h.len (ms.length + 1) &&
              decide (k.attic ≤ attic0) then
            .ok ({ imgva := h.imgva, stat := img + h.stat, inbox := img + h.inbox, token := fn.token, maps := ms, phases := phases.map (fun p => p.1),
                   phase := 0, spill := h.spill, pbudget := if h.pbudget = 0 then 40 else h.pbudget, svec := 0, srec := 0, pgrant := 0,
                   lctr := [], gctr := [], gphase := [], pctr := [], jctr := 1, lmarks := [], gmarks := [], rootTask := s.dist.nextTask,
                   cancelled := false, shadow := shadow }, k, img, h)
          else .error 7

/-- MEAS is extended by the digest of a component (R66). -/
def extendDigest (m d : BitVec 512) : BitVec 512 := sha512 (toBytes 64 m.toNat ++ toBytes 64 d.toNat)

/-- MEAS is extended by a component (R66). -/
def extendMeas (m : BitVec 512) (component : List Byte) : BitVec 512 := extendDigest m (sha512 component)

/-- The digest of the component that MEAS0 to MEAS2 measure: the Monitor, service firmware, the resident emulation library (R66). -/
def componentDigest (k : Nat) : BitVec 512 :=
  if k = 2 then sha512 libraryImage else Config.firmwareDigest k

/-- A component is loaded after reset, and measured into its register (R66, log 107). Service firmware submits its errata bundles once it is loaded
(R65, log 105). -/
def State.measure (s : State) (k : Nat) : State :=
  if s.ladders.loaded.contains k then s
  else
    let s := { s with meas := s.meas.set k (extendDigest (nth 0 s.meas k) (componentDigest k)),
                      ladders := { s.ladders with loaded := s.ladders.loaded ++ [k] } }
    if k ≠ 1 then s
    else
      let bs := (Config.firmwareErrata s.fresh).map (fun b => ({ records := b.1, signature := b.2 } : ErrataBundle))
      { s with fresh := s.fresh + 1, ladders := { s.ladders with bundles := s.ladders.bundles ++ bs } }

/-- Errata records that fit a capability page behind its other records (R69). -/
def errataRoom : Nat := (Config.capPageSize - 0x1770) / 32

/-- The Monitor verifies the oldest errata bundle submitted; it accepts the records of a genuine one that fit the page, and holds them while a job runs
(R65, R69, log 105). -/
def State.takeErrata (s : State) : State :=
  match s.ladders.bundles with
  | [] => s
  | b :: r =>
    let l := s.ladders
    let ok := b.records.all (fun v => v.length == 24) && decide (l.errata.length + l.errataHeld.length + b.records.length ≤ errataRoom) &&
      Config.errataGenuine b.records.flatten b.signature
    ({ s with ladders := { l with bundles := r, errataHeld := if ok then l.errataHeld ++ b.records else l.errataHeld } } : State).applyHeld

/-- A validation fails: the status word is written for the codes from 3 on (R58). -/
def State.rejectJob (s : State) (f code : Nat) : State :=
  let fn := s.fnAt f
  let h := imageHeader (s.imageBytes fn.latched 128)
  let s := if 3 ≤ code then
      s.larderWrite (fn.latched + h.stat) (toBytes 8 (fn.token.toNat * 2 ^ 32 + code * 2 ^ 16 + 4 * 2 ^ 8)) else s
  (s.modFn f (fun x => { x with st := 0, cause := 4 })).msix f 0

/-- The cores on which a root task may start: eligible and FREE, and in no cluster where a tuning pass runs (R57, R82, R234). -/
def State.rootCores (s : State) (f caps : Nat) : List Nat :=
  (List.range 256).filter (fun c => s.eligible f caps 0 c && (s.coreAt c).run == .idle && s.isFree c && !s.passOn c)

/-- The core that the Distributor gives the root task (R57): a free choice among those that it may have (log 1). -/
def State.rootPlace (s : State) (f caps : Nat) : Nat :=
  let cs := s.rootCores f caps
  nth (cs.headD 0) cs (Config.choice s.fresh % cs.length)

/-- Starts the root task (R57). -/
def State.startRoot (s : State) (f : Nat) (j : Job) (k : KernelHeader) (h : ImageHeader) : State :=
  let n := s.rootPlace f k.caps
  let kva := j.imgva + h.root
  let t : TaskId := { num := s.dist.nextTask, fn := f, root := true, launch := 0, gang := 0, rank := 0, lctr := 0, phase := 0,
                      atticSize := (nth { attic := 0, carve := [] } j.phases 0).attic,
                      args := [BitVec.ofNat 64 j.imgva, BitVec.ofNat 64 (j.imgva + h.inbox), j.token.zeroExtend 64] }
  let c := (s.coreAt n).fresh (s.fabric.devnum.getD 0xFFFF) t { addr := kva, len := k.len, encver := k.encver, det := k.det }
    (BitVec.ofNat 64 (kva + k.entry)) .s
  let c := c.loadCtl [(0x009, steerOf 0 k.steer), (0x011, 1), (0x030, j.imgva + h.attic), (0x033, j.imgva + h.ctx),
    (0x034, if k.drainOff = 0 then 0 else kva + k.drainOff), (0x035, k.drainN)]
  let s := s.putCore (c.loadArgs t.args)
  { s with fresh := s.fresh + 1, dist := { s.dist with nextTask := s.dist.nextTask + 1, busy := s.dist.busy ++ [n] } }

/-- What a job start does beside its root task: tiles, pointers, measurements and the capability page's extension (R66, R69, R80, R236). MEAS3 is
extended by the header and then by the root kernel, as two components, the latter up to the image's end (R66, log 112). -/
def State.openJob (s : State) (f : Nat) (j : Job) (k : KernelHeader) (img : Nat) (h : ImageHeader) : State :=
  let fn := s.fnAt f
  let mine (c : Nat) : Bool := fn.clusters.getLsbD (c / 8)
  let meas := extendMeas (extendMeas 0 (s.imageBytes img 128)) (s.imageBytes (img + h.root) (min k.len (h.len - h.root)))
  let ext : Extension := { devnum := s.fabric.devnum, clusters := fn.clusters, engines := s.ladders.engines, banks := s.ladders.banks,
                           chans := s.ladders.chans, library := s.library, errata := s.ladders.errata }
  let s := s.cores.foldl (fun s c => if mine c.id then s.modCore c.id (fun c => { c with tiles := [], tileBase := none, tflights := [] }) else s) s
  let s := s.modFn f (fun x => { x with st := 2, job := some j, ext := some ext, meas3 := meas })
  { s with dist := { s.dist with pointers := s.dist.pointers.zipIdx.map (fun p => if fn.clusters.getLsbD p.2 then 7 else p.1) } }

/-- A tuning pass of the window between jobs runs: one on a memory channel, or any while no function has a job. No job starts before it has ended
(R234). -/
def State.idlePass (s : State) : Bool :=
  s.ladders.passes.any (fun r => (coreOfPass r).isNone) || (s.fns.all (fun x => x.job.isNone) && !s.ladders.passes.isEmpty)

/-- JOB_VALIDATION (R57, R58): a job that passes starts once a core may have its root task (log 108). -/
def State.validateJob (s : State) (f : Nat) : State :=
  if (s.fnAt f).st ≠ 1 then s
  else match s.validate f with
    | .error code => s.rejectJob f code
    | .ok (j, k, img, h) => if (s.rootCores f k.caps).isEmpty || s.idlePass then s else (s.openJob f j k img h).startRoot f j k h

/-! Job control (R55, R57, R60, R86) -/

/-- ERR of a function. -/
def State.setErr (s : State) (f e : Nat) : State := s.modFn f (fun x => { x with err := e })

/-- JOBGO with CMD = 1 (R57). -/
def State.jobStart (s : State) (f : Nat) (token : BitVec 32) : State :=
  if (s.fnAt f).st = 0 then s.modFn f (fun x => { x with st := 1, err := 0, token := token, latched := x.jobaddr }) else s.setErr f 1

/-- JOBGO with CMD = 2 (R60). -/
def State.jobCancel (s : State) (f : Nat) : State :=
  match (s.fnAt f).st with
  | 1 =>
    let fn := s.fnAt f
    let trusted := match s.validate f with | .error 1 | .error 2 => false | _ => true
    let h := imageHeader (s.imageBytes fn.latched 128)
    let s := if trusted then s.larderWrite (fn.latched + h.stat) (toBytes 8 (fn.token.toNat * 2 ^ 32 + 2 * 2 ^ 8)) else s
    (s.modFn f (fun x => { x with st := 0, err := 0, cause := 2 })).msix f 0
  | 2 | 5 | 6 => (s.setErr f 0).cancelJob f
  | _ => s.setErr f 3

/-- JOBGO with CMD = 3: every running task gets a pre-emption request (R86). -/
def State.jobSuspend (s : State) (f : Nat) : State :=
  if (s.fnAt f).st = 2 then
    let s := s.modFn f (fun x => { x with st := 5, err := 0 })
    let s := s.cores.foldl (fun s c => if (c.run = .running ∨ c.run = .leaving) ∧ c.task.fn = f ∧ c.preempt = 0 then
      s.modCore c.id (fun c => { c with preempt := 1 }) else s) s
    s.settleSuspension f
  else s.setErr f 3

/-- JOBGO with CMD = 4 (R86). -/
def State.jobResume (s : State) (f : Nat) : State :=
  if (s.fnAt f).st = 6 then s.modFn f (fun x => { x with st := 2, err := 0 }) else s.setErr f 3

/-- A Function Level Reset: the job stops without draining, no status word is written, and BAR 2 has its smallest size (R54, R60). -/
def State.functionReset (s : State) (f : Nat) : State :=
  let s := if (s.jobAt f).isSome then s.dropWork f else s
  (s.modFn f (fun x => { x with job := none, st := 0, meas3 := 0, barLog := 30 })).applyHeld

/-- Device reset (R25, R54, R66, R69): memory, pantries, the ladders and the errata outlast it, and held tuning results take effect (log 3). -/
def State.deviceReset (s : State) : State :=
  { State.reset with ladders := { s.withHeld.ladders with held := [], passes := [], bundles := [], loaded := [] }, mem := s.mem, larder := s.larder, pantry := s.pantry,
                     inputs := s.inputs, fresh := s.fresh }

/-! BAR 0 and BAR 2 (R54, R55, R62, R64) -/

/-- A masked vector is unmasked: a pending one is sent (R62). -/
def State.unmask (s : State) (f v : Nat) : State :=
  s.modFn f (fun x => { x with
    msixMask := x.msixMask.filter (fun y => y != v), msixPend := x.msixPend.filter (fun y => y != v),
    msixSent := if x.msixPend.contains v then x.msixSent ++ [v] else x.msixSent })

/-- A vector is masked (R62). -/
def State.maskVector (s : State) (f v : Nat) : State := s.modFn f (fun x => { x with msixMask := x.msixMask.filter (fun y => y != v) ++ [v] })

/-- A 32-bit write to the MSI-X table; bit 0 of an entry's last word masks its vector (R54, R62; the layout is PCI Express's, log 17). -/
def State.msixWrite (s : State) (f i : Nat) (v : BitVec 32) : State :=
  if i % 4 = 3 then (if v.getLsbD 0 then s.maskVector f (i / 4) else s.unmask f (i / 4))
  else s.modFn f (fun x => { x with msixTable := SMap.set 0 x.msixTable i (if i % 4 = 0 then v &&& ~~~ 3 else v) })

/-- Puts bytes into a mailbox's payload area (R63). -/
def Mailbox.fill (m : Mailbox) (off : Nat) (bs : List Byte) : Mailbox :=
  { m with payload := bs.zipIdx.foldl (fun p b => SMap.set 0 p (off + b.2) b.1) m.payload }

/-- Changes a mailbox of a function (R63). -/
def State.modBox (s : State) (f : Nat) (service : Bool) (g : Mailbox → Mailbox) : State :=
  s.modFn f (fun x => if service then { x with service := g x.service } else { x with monitor := g x.monitor })

/-- A mailbox of a function (R63). -/
def Fn.box (f : Fn) (service : Bool) : Mailbox := if service then f.service else f.monitor

/-- A host write to a register of BAR 0 that stores what it is given (R54, R55, R63). A 64-bit WINBASE keeps the bits below the BAR 2 size, which
are ignored while it has that size (log 109). -/
def State.storeRegister (s : State) (f off size : Nat) (v : BitVec 64) : State :=
  let bs := toBytes size v.toNat
  if off = 0x1000 then (if size = 8 then s.modFn f (fun x => { x with jobaddr := bits v.toNat 16 32 * 2 ^ 16 }) else s)
  else if off = 0x1018 then (if size = 8 then s.modFn f (fun x => { x with winbase := bits v.toNat 0 48 }) else s)
  else if 0x10000 ≤ off ∧ off + size ≤ 0x10100 then
    if off % 4 ≠ 0 then s
    else if size = 4 then s.msixWrite f ((off - 0x10000) / 4) (v.truncate 32)
    else if size = 8 then (s.msixWrite f ((off - 0x10000) / 4) (v.truncate 32)).msixWrite f ((off - 0x10000) / 4 + 1) ((v >>> 32).truncate 32)
    else s
  else if 0x2100 ≤ off ∧ off + size ≤ 0x3000 then s.modBox f false (fun m => m.fill (off - 0x2100) bs)
  else if f = 0 ∧ 0x3100 ≤ off ∧ off + size ≤ 0x4000 then s.modBox f true (fun m => m.fill (off - 0x3100) bs)
  else s

/-- The device physical address of a BAR 2 access: in BAR 2, and in the function's share outside the checkpoint regions (R54). -/
def State.bar2Addr (s : State) (f off n : Nat) : Option Nat :=
  let x := s.fnAt f
  let size := 2 ^ x.barLog
  let pa := x.winbase / size * size + off
  if off + n ≤ size ∧ x.owns pa n ∧ touchesCheckpoint pa n = false then some pa else none

/-- One more access that BAR 2 does not perform (R54): one counter for reads and writes, which no telemetry offset of R64 shows (log 109). -/
def State.unsupportedAccess (s : State) : State := { s with service := { s.service with unsupported := s.service.unsupported + 1 } }

/-- The physical addresses of the message slots that hold messages which the job of a function has not consumed: those from CONS up to PROD (R61). -/
def State.unreadSlots (s : State) (f : Nat) : List Nat :=
  match s.jobAt f with
  | none => []
  | some j =>
    let prod := ofBytes (s.imageBytes j.inbox 8)
    let cons := ofBytes (s.imageBytes (j.inbox + 0x80) 8)
    (List.range (min 60 ((prod + 2 ^ 64 - cons) % 2 ^ 64))).map (fun i => j.inbox + 0x100 + 64 * ((cons + i) % 60))

/-- Message slots that were overwritten before they were consumed hold undefined contents (R8, R61). -/
def State.spoilSlots (s : State) (slots : List Nat) : State :=
  slots.foldl (fun s a => let b := s.freeBytes 64; { b.2 with larder := larderPut b.2.larder a b.1 }) s

/-- A posted write through BAR 2 (R54), which may overwrite message slots (R61). -/
def State.bar2Write (s : State) (f off : Nat) (bs : List Byte) : State :=
  match s.bar2Addr f off bs.length with
  | some pa => (s.larderWrite pa bs).spoilSlots ((s.unreadSlots f).filter (fun a => overlaps a 64 pa bs.length))
  | none => s.unsupportedAccess

/-- A read through BAR 2: the bytes, or Unsupported Request (R54). -/
def State.bar2Read (s : State) (f off n : Nat) : State :=
  match s.bar2Addr f off n with
  | some pa => let r := s.larderRead pa n; { r.2 with bar2Out := some r.1 }
  | none => { s.unsupportedAccess with bar2Out := none }

/-- BAR 2 is resized (R54). -/
def State.bar2Resize (s : State) (f log : Nat) : State :=
  if 30 ≤ log ∧ log ≤ 43 then s.modFn f (fun x => { x with barLog := log }) else s

/-- JOBSTAT (R55). -/
def Fn.jobstat (f : Fn) : Nat := f.token.toNat * 2 ^ 32 + f.err * 2 ^ 16 + f.cause * 2 ^ 8 + f.st

/-- MBSTAT (R63). -/
def Mailbox.status (m : Mailbox) : Nat := m.outlen * 2 ^ 32 + m.result * 2 ^ 8 + m.busy.toNat

/-- The identity record value of a function (R69). -/
def State.identity (s : State) (f : Nat) : List Byte :=
  recIdentity f { devnum := s.fabric.devnum, clusters := (s.fnAt f).clusters, engines := [], banks := [], chans := [], library := s.library,
                  errata := [] }

/-- The 8 bytes that a 64-bit host read of BAR 0 finds at an offset (R54, R55, R62 to R64). WINBASE reads as zero in the bits below the BAR 2 size,
which R55 calls ignored (log 109). -/
def State.bar0Read (s : State) (f off : Nat) : Nat :=
  let x := s.fnAt f
  let box (m : Mailbox) (o : Nat) : Nat :=
    if o = 8 then m.status else if 0x100 ≤ o then ofBytes ((List.range 8).map (fun i => SMap.get 0 m.payload (o - 0x100 + i))) else 0
  let dword (i : Nat) : Nat :=
    if i % 4 = 3 then (if x.msixMask.contains (i / 4) then 1 else 0) else (SMap.get 0 x.msixTable i).toNat
  if off < 0x1000 then ofBytes (((s.identity f).drop off).take 8)
  else if off = 0x1000 then x.jobaddr
  else if off = 0x1010 then x.jobstat
  else if off = 0x1018 then x.winbase / 2 ^ x.barLog * 2 ^ x.barLog
  else if 0x2000 ≤ off ∧ off < 0x3000 then box x.monitor (off - 0x2000)
  else if 0x3000 ≤ off ∧ off < 0x4000 then (if f = 0 then box x.service (off - 0x3000) else 0)
  else if 0x10000 ≤ off ∧ off < 0x10100 then dword ((off - 0x10000) / 4) + dword ((off - 0x10000) / 4 + 1) * 2 ^ 32
  else if off = 0x18000 then x.msixPend.foldl (fun a v => a + 2 ^ v) 0
  else if off = 0x100000 then 1
  else if off = 0x100008 then s.service.powerMW
  else if 0x100010 ≤ off ∧ off < 0x100030 ∧ off % 8 = 0 then nth 0 s.service.temps ((off - 0x100010) / 8)
  else if off = 0x100030 then s.service.clockMHz
  else if 0x100040 ≤ off ∧ off < 0x1000A0 ∧ off % 8 = 0 then
    let p := nth (false, 0) s.service.ports ((off - 0x100040) / 8)
    p.2 % 2 ^ 32 * 2 ^ 32 + p.1.toNat
  else if off = 0x100100 then s.service.malformed
  else 0

/-- What a host read of BAR 0 finds, of 8 bytes or of 4: 32 bits of a job control register are zero (R55). -/
def State.hostRead (s : State) (f off size : Nat) : Nat :=
  if size = 4 then
    if 0x1000 ≤ off ∧ off < 0x1020 then 0 else s.bar0Read f (off / 8 * 8) / 2 ^ (32 * (off / 4 % 2)) % 2 ^ 32
  else s.bar0Read f off

/-! Mailbox commands (R63) -/

/-- The first `n` bytes of a payload area. -/
def Mailbox.input (m : Mailbox) (n : Nat) : List Byte := (List.range n).map (fun i => SMap.get 0 m.payload i)

/-- A command in a mailbox: nothing while one is in progress; an input that is too short is a bad argument (R63, log 16). Until it completes, RESULT
and OUTLEN show the command before it (log 109). -/
def State.command (s : State) (f : Nat) (service : Bool) (inlen need : Nat) (run : List Byte → State → State × Nat × List Byte) : State :=
  let m := (s.fnAt f).box service
  if m.busy then s
  else
    let (s, result, out) := if inlen < need then (s, 4, []) else run (m.input inlen) s
    s.modBox f service (fun m => { m with busy := true, pendResult := result, pendOut := out })

/-- A command in progress completes (R63); a checkpoint transfer is in progress until its mover is done (R17). -/
def State.completeMailbox (s : State) (f : Nat) (service : Bool) : State :=
  let m := (s.fnAt f).box service
  if !m.busy || (f == 0 && !service && s.fabric.mover.isSome) then s
  else
    let done (m : Mailbox) : Mailbox :=
      { busy := false, result := m.pendResult, outlen := m.pendOut.length, payload := [], pendResult := 0, pendOut := [] }
    (s.modBox f service (fun m => (done m).fill 0 m.pendOut)).msix f (if service then 2 else 1)

/-- Any function has a job (R55). -/
def State.anyJob (s : State) : Bool := s.fns.any (fun x => x.st != 0)

/-- The rung of an engine by bits [3:0] of its bitmap (R233). -/
def engineRung (b : BitVec 16) : Nat := match b.toNat % 16 with | 15 => 0 | 11 => 1 | 1 => 2 | _ => 3

/-- RUNGS of a quote: how many engines, banks and channels stand at each rung (R67). -/
def State.rungCounts (s : State) : List Nat :=
  let count (l : List Nat) (g : Nat) : Nat := (l.filter (fun x => x == g)).length
  let es := (List.range 256).map (fun c => engineRung (SMap.get 0x003F s.ladders.engines c))
  let bs := (List.range 4096).map (fun i => SMap.get 0 s.ladders.banks i)
  let cs := (List.range 784).map s.chan
  (List.range 4).map (count es) ++ (List.range 4).map (count bs) ++ (List.range 4).map (count cs)

/-- The signed part of a quote (R67); LADHASH covers the three records with their padding, as the page stores them (log 112). -/
def State.quoteBody (s : State) (f : Nat) (nonce : List Byte) : List Byte :=
  let x := s.fnAt f
  let ladders := match x.ext with
    | some e => capRecord 0x0020 (recEngines e) ++ capRecord 0x0021 (recBanks e) ++ capRecord 0x0022 (recChans e)
    | none => []
  toBytes 4 0x51544531 ++ toBytes 2 1 ++ toBytes 2 f ++ toBytes 2 (s.fabric.devnum.getD 0xFFFF) ++ toBytes 6 0 ++
  (List.range 16).map Config.serial ++ nonce ++ (s.meas ++ [x.meas3]).flatMap (fun m => toBytes 64 m.toNat) ++
  toBytes 64 (sha512 (capPage f x.ext)).toNat ++ toBytes 64 (sha512 ladders).toNat ++
  s.rungCounts.flatMap (toBytes 2) ++ toBytes 8 0

/-- QUOTE (R67). -/
def quoteRun (f : Nat) (bs : List Byte) (s : State) : State × Nat × List Byte :=
  let body := s.quoteBody f (bs.take 64)
  (s, 0, body ++ (List.range 132).map (Config.sign body) ++ toBytes 4 0)

/-- ASSIGN: a VF's clusters and share; the PF owns what no VF does (R53, R63; the input's layout is log 16). It may take clusters on which the PF's job
has tasks or held gangs, which go on there, and a mask or share that another VF has, or a share outside HBM and working Cellar, is a bad argument
(log 112). -/
def assignRun (f : Nat) (bs : List Byte) (s : State) : State × Nat × List Byte :=
  let g := fieldAt bs
  let vf := g 0 4
  let mask : BitVec 32 := BitVec.ofNat 32 (g 4 4)
  let share := [(g 8 8, g 16 8), (g 24 8, g 32 8)].filter (fun r => r.2 != 0)
  if f ≠ 0 then (s, 3, [])
  else if vf = 0 ∨ 8 < vf then (s, 4, [])
  else if (s.fnAt vf).st ≠ 0 then (s, 3, [])
  else
    let rest := (List.range 9).filter (fun n => n != 0 && n != vf)
    let clash := rest.any (fun n => (s.fnAt n).clusters &&& mask != 0 ||
      (s.fnAt n).share.any (fun a => share.any (fun b => overlaps a.1 a.2 b.1 b.2)))
    let regions := share.all (fun r => inMemory r.1 r.2)
    if clash || !regions then (s, 4, [])
    else
      let s := s.modFn vf (fun x => { x with clusters := mask, share := share })
      let taken := (List.range 9).foldl (fun (m : BitVec 32) n => if n = 0 then m else m ||| (s.fnAt n).clusters) 0
      (s.modFn 0 (fun x => { x with clusters := ~~~ taken }), 0, [])

/-- CKPTAUTH: grants or revokes a checkpoint range; none that a channel at rung 3 withdraws (R20, R47, R63; the input's layout is log 16). -/
def ckptauthRun (f : Nat) (bs : List Byte) (s : State) : State × Nat × List Byte :=
  let g := fieldAt bs
  let r : Grant := { dev := g 0 2, base := g 8 8, len := g 16 8 }
  if f ≠ 0 then (s, 3, [])
  else if 4095 < r.dev ∨ 1 < g 4 4 ∨ r.base < 0x140000000000 ∨ 0x180000000000 < r.base + r.len ∨ (g 4 4 = 1 ∧ s.ckptStands r.base r.len = false) then (s, 4, [])
  else
    let others := s.fabric.grants.filter (fun x => x != r)
    ({ s with fabric := { s.fabric with grants := if g 4 4 = 1 then others ++ [r] else others } }, 0, [])

/-- DEVNUM (R25, R63). -/
def devnumRun (f : Nat) (bs : List Byte) (s : State) : State × Nat × List Byte :=
  let n := fieldAt bs 0 2
  if f ≠ 0 || s.anyJob || s.fabric.devnum.isSome then (s, 3, [])
  else if 4095 < n then (s, 4, [])
  else ({ s with fabric := { s.fabric with devnum := some n } }, 0, [])

/-- GFORM (R26, R63); an open session of the group whose connection to a member is dead is cancelled (R112). -/
def gformRun (f : Nat) (bs : List Byte) (s : State) : State × Nat × List Byte :=
  let num := fieldAt bs 0 2
  let n := fieldAt bs 2 2
  let pa := fieldAt bs 8 8
  let st := (s.fnAt f).st
  match s.fabric.devnum with
  | none => (s, 3, [])
  | some dev =>
    if st ≠ 2 ∧ st ≠ 5 ∧ st ≠ 6 then (s, 3, [])
    else if num = 0 ∨ n < 2 ∨ 4096 < n ∨ fieldAt bs 4 4 ≠ 0 ∨ (s.fnAt f).owns pa (2 * n) = false then (s, 4, [])
    else
      let r := s.larderRead pa (2 * n)
      let ms := (List.range n).map (fun i => fieldAt r.1 (2 * i) 2)
      if r.2.fabric.groups.any (fun g => g.num == num) || decide (64 ≤ r.2.fabric.groups.length) || decide (ms.eraseDups.length < n) ||
          ms.any (fun m => decide (4095 < m)) || !ms.contains dev then (r.2, 4, [])
      else (({ r.2 with fabric := { r.2.fabric with
        groups := r.2.fabric.groups ++ [{ num := num, members := ms, fn := f }],
        ended := r.2.fabric.ended.filter (fun g => g != num) } } : State).cutSessions, 0, [])

/-- GDISSOLVE (R63). -/
def gdissolveRun (f : Nat) (bs : List Byte) (s : State) : State × Nat × List Byte :=
  let num := fieldAt bs 0 2
  let mine (g : Group) : Bool := g.num == num && g.fn == f
  if s.fabric.groups.any mine then ({ s with fabric := { s.fabric with groups := s.fabric.groups.filter (fun g => !mine g) } }, 0, [])
  else (s, 4, [])

/-- The packets of a checkpoint, in the order of the mapping entries (R17). All bytes are read here, in the CKPTSEND step, while the job is suspended;
pages that MAPREQ has added are sent even where they take the image past 4 TiB (log 109). -/
def State.ckptPackets (s : State) (j : Job) (dev base : Nat) : List Packet :=
  let pieces := j.maps.flatMap (fun m => if inMemory m.pa m.len then (List.range (m.len / 256)).map (fun i => m.pa + 256 * i) else [])
  pieces.zipIdx.map (fun p => { s.newPacket 0x20 with
    phys := 1, lane := 6, dst := BitVec.ofNat 12 dev, addr := BitVec.ofNat 56 (base + 256 * p.2), payload := s.imageBytes p.1 256 })

/-- CKPTSEND: the mover starts (R17, R63; the input's layout is log 16). -/
def ckptsendRun (f : Nat) (bs : List Byte) (s : State) : State × Nat × List Byte :=
  let fn := fieldAt bs 0 2
  let dev := fieldAt bs 2 2
  if f ≠ 0 ∨ s.fabric.devnum = none then (s, 3, [])
  else if 8 < fn ∨ 4095 < dev then (s, 4, [])
  else if (s.fnAt fn).st ≠ 6 then (s, 3, [])
  else if s.fabric.closed.contains { mcast := false, peer := dev, lane := 6 } then (s, 6, [])
  else match s.jobAt fn with
    | none => (s, 3, [])
    | some j =>
      let ps := s.ckptPackets j dev (fieldAt bs 8 8)
      let s := State.moverGo 4097 { s with fabric := { s.fabric with
        mover := some { fn := fn, dev := dev, total := 256 * ps.length, queue := ps } } }
      (s, 0, toBytes 8 (256 * ps.length))

/-- The resource of a tuning pass by number: every engine's rung, MH and MD, every bank and every channel (R234). -/
def passOf (n : Nat) : TuneRes :=
  let k := n % 5648
  if k < 256 then .engine k else if k < 512 then .rotation (k - 256) else if k < 768 then .drain (k - 512)
  else if k < 4864 then .bank ((k - 768) / 16) ((k - 768) % 16) else .channel (k - 4864)

/-- The Monitor authorises a pass that runs nowhere yet (R65, R234). -/
def State.startPass (s : State) (r : TuneRes) : State :=
  if s.ladders.passes.contains r then s else { s with ladders := { s.ladders with passes := s.ladders.passes ++ [r] } }

/-- TUNE: the pending passes, which the spec leaves to service firmware, start under the Monitor's authority (R21, R63, R65, R234; log 104). -/
def tuneRun (_bs : List Byte) (s : State) : State × Nat × List Byte :=
  if s.anyJob then (s, 3, [])
  else ((Config.pendingPasses s.fresh).foldl (fun s n => s.startPass (passOf n)) { s with fresh := s.fresh + 1 }, 0, [])

/-- CLKCAP: a ceiling of 8 to 14 steps of 100 MHz (R23, R63). -/
def clkcapRun (bs : List Byte) (s : State) : State × Nat × List Byte :=
  let n := fieldAt bs 0 4
  if n < 8 ∨ 14 < n then (s, 4, [])
  else
    let v := s.service
    ({ s with service := { v with ceiling := 100 * n, clockMHz := if v.hot.isEmpty then 100 * n else min v.clockMHz (100 * n) } }, 0, [])

/-- LOG: the oldest unread entries (R63, R223). -/
def logRun (_bs : List Byte) (s : State) : State × Nat × List Byte :=
  ({ s with service := { s.service with logged := s.service.logged.drop 60 } }, 0,
    (s.service.logged.take 60).flatMap (fun c => (List.range Config.logEntryBytes).map (Config.logByte c)))

/-! Heat, machine checks and tuning (R21, R23, R223, R234) -/

/-- Vector 3 of every function (R62). -/
def State.msixAll (s : State) (v : Nat) : State := (List.range 9).foldl (fun s f => s.msix f v) s

/-- A machine check ends the job of a function (R59, R62, R223). -/
def State.checkMachine (s : State) (f : Nat) : State := ((s.endJob f 5 0x7F true).logError 0x7F).msix f 3

/-- A thermal trip: every job ends, and the compute dies lose power (R23, R223). -/
def State.tripAt (s : State) (die t : Nat) : State :=
  let s := { s with service := { s.service with temps := s.service.temps.set die t } }
  let s := (List.range 9).foldl (fun s f => if (s.jobAt f).isSome then s.endJob f 5 0x7F true else s) s
  { ((s.logError 0x7F).msixAll 3) with powered := false }

/-- A junction has reached 115 °C (R23). -/
def State.thermalTrip (s : State) (die : Nat) : State := s.tripAt die 115000

/-- The dies that keep the clock throttled once the junction of one reports `t`: from 105 °C on, until it falls below 100 °C (R23). -/
def Service.hotAfter (v : Service) (die t : Nat) : List Nat :=
  let rest := v.hot.filter (fun d => d != die)
  if 105000 ≤ t then rest ++ [die] else if t < 100000 then rest else v.hot

/-- A junction reports its temperature, and the package its power, a free value of at most 3,000 W (log 3). While a die keeps it throttled the clock goes
down a step at each report, and a junction at 115 °C is a thermal trip (R23, log 85). -/
def State.thermalStep (s : State) (die t : Nat) : State :=
  let v := { s.service with temps := s.service.temps.set die t, powerMW := Config.powerMW s.fresh % 3000001, hot := s.service.hotAfter die t }
  let s : State := { s with fresh := s.fresh + 1, service := v }
  if 115000 ≤ t then s.tripAt die t
  else if v.hot.isEmpty then s
  else ({ s with service := { v with clockMHz := max 100 (v.clockMHz - 100) } } : State).msixAll 3

/-- A tuning pass may start on a resource of core `c`: a job grants the cluster, and all its cores are FREE (R234). -/
def State.passWindow (s : State) (c : Nat) : Bool :=
  (List.range 9).any (fun f => match s.jobAt f with | some j => j.pgrant.getLsbD (c / 8) && (s.fnAt f).clusters.getLsbD (c / 8) | none => false) &&
  (List.range 8).all (fun i => s.isFree (c / 8 * 8 + i)) && !s.passOn c

/-- Service firmware starts a pass on a pantry bank or the engine of core `c` of a granted cluster (R65, R234): which one is a free choice (log 104). -/
def State.grantedPass (s : State) (c : Nat) : State :=
  if s.passWindow c then
    let k := Config.choice s.fresh % 19
    ({ s with fresh := s.fresh + 1 } : State).startPass (if k = 0 then .engine c else if k = 1 then .rotation c else if k = 2 then .drain c else .bank c (k - 3))
  else s

/-- A tuning pass that runs completes: its result is held, and takes effect at the job boundary (R21, R234). -/
def State.tuned (s : State) (r : TuneRes) (g : BitVec 2) : State :=
  if s.ladders.passes.contains r then
    ({ s with ladders := { s.ladders with passes := s.ladders.passes.erase r, held := s.ladders.held ++ [(r, g)] } } : State).applyHeld
  else s

/-! Registers that are commands (R55, R63) -/

/-- A 64-bit write of JOBGO: CMD in bits [3:0], the token in bits [63:32]; any of bits [31:4], or another CMD, is refused (R55). -/
def State.jobgo (s : State) (f : Nat) (v : BitVec 64) : State :=
  match bits v.toNat 0 32 with
  | 1 => s.jobStart f (v.extractLsb' 32 32)
  | 2 => s.jobCancel f
  | 3 => s.jobSuspend f
  | 4 => s.jobResume f
  | _ => s.setErr f 2

/-- A 64-bit write of MBCMD: CMD in bits [15:0], INLEN in bits [47:32]; another code is answered with RESULT 2 (R63). -/
def State.mailboxCommand (s : State) (f : Nat) (service : Bool) (v : BitVec 64) : State :=
  let inlen := bits v.toNat 32 16
  match service, bits v.toNat 0 16 with
  | false, 1 => s.command f false inlen 64 (quoteRun f)
  | false, 2 => s.command f false inlen 40 (assignRun f)
  | false, 3 => s.command f false inlen 24 (ckptauthRun f)
  | false, 4 => s.command f false inlen 2 (devnumRun f)
  | false, 5 => s.command f false inlen 16 (gformRun f)
  | false, 6 => s.command f false inlen 2 (gdissolveRun f)
  | false, 7 => s.command f false inlen 16 (ckptsendRun f)
  | true, 0x10 => s.command f true inlen 0 tuneRun
  | true, 0x11 => s.command f true inlen 4 clkcapRun
  | true, 0x12 => s.command f true inlen 0 logRun
  | _, _ => s.command f service 0 0 (fun _ s => (s, 2, []))

/-- A host write to BAR 0 (R54, R55, R63): a write of JOBGO or of a mailbox's MBCMD is its command, any other stores; a VF's service mailbox ignores
writes. -/
def State.registerWrite (s : State) (f off size : Nat) (v : BitVec 64) : State :=
  if off = 0x1008 then (if size = 8 then s.jobgo f v else s)
  else if off = 0x2000 then (if size = 8 then s.mailboxCommand f false v else s)
  else if off = 0x3000 then (if size = 8 ∧ f = 0 then s.mailboxCommand 0 true v else s)
  else s.storeRegister f off size v

/-! One meaning per instruction -/

/-- DEVICE_RESET (R69). -/
def execDeviceReset (s : State) : Host.Outcome State Fault Refusal := deviceStep State.deviceReset s

/-- FUNCTION_LEVEL_RESET (R60). -/
def execFunctionLevelReset (fn : Fin 9) (s : State) : Host.Outcome State Fault Refusal := deviceStep (fun s => s.functionReset fn.val) s

/-- JOBGO_START (R57). -/
def execJobgoStart (fn : Fin 9) (token : BitVec 32) (s : State) : Host.Outcome State Fault Refusal :=
  deviceStep (fun s => s.jobStart fn.val token) s

/-- JOBGO_CANCEL (R60). -/
def execJobgoCancel (fn : Fin 9) (s : State) : Host.Outcome State Fault Refusal := deviceStep (fun s => s.jobCancel fn.val) s

/-- JOBGO_SUSPEND (R86). -/
def execJobgoSuspend (fn : Fin 9) (s : State) : Host.Outcome State Fault Refusal := deviceStep (fun s => s.jobSuspend fn.val) s

/-- JOBGO_RESUME (R86). -/
def execJobgoResume (fn : Fin 9) (s : State) : Host.Outcome State Fault Refusal := deviceStep (fun s => s.jobResume fn.val) s

/-- JOBGO_REFUSED (R55). -/
def execJobgoRefused (fn : Fin 9) (s : State) : Host.Outcome State Fault Refusal := deviceStep (fun s => s.setErr fn.val 2) s

/-- REGISTER_WRITE (R55). -/
def execRegisterWrite (fn : Fin 9) (off size : Nat) (val : BitVec 64) (s : State) : Host.Outcome State Fault Refusal :=
  deviceStep (fun s => s.registerWrite fn.val off size val) s

/-- MSIX_UNMASK (R62). -/
def execMsixUnmask (fn : Fin 9) (vec : Fin 16) (s : State) : Host.Outcome State Fault Refusal :=
  deviceStep (fun s => s.unmask fn.val vec.val) s

/-- BAR2_WRITE (R54). -/
def execBar2Write (fn : Fin 9) (off : Nat) (data : List Byte) (s : State) : Host.Outcome State Fault Refusal :=
  deviceStep (fun s => s.bar2Write fn.val off data) s

/-- BAR2_READ (R54). -/
def execBar2Read (fn : Fin 9) (off n : Nat) (s : State) : Host.Outcome State Fault Refusal := deviceStep (fun s => s.bar2Read fn.val off n) s

/-- QUOTE (R67). -/
def execQuote (fn : Fin 9) (inlen : Nat) (s : State) : Host.Outcome State Fault Refusal :=
  deviceStep (fun s => s.command fn.val false inlen 64 (quoteRun fn.val)) s

/-- ASSIGN (R53). -/
def execAssign (fn : Fin 9) (inlen : Nat) (s : State) : Host.Outcome State Fault Refusal :=
  deviceStep (fun s => s.command fn.val false inlen 40 (assignRun fn.val)) s

/-- CKPTAUTH (R47). -/
def execCkptauth (fn : Fin 9) (inlen : Nat) (s : State) : Host.Outcome State Fault Refusal :=
  deviceStep (fun s => s.command fn.val false inlen 24 (ckptauthRun fn.val)) s

/-- DEVNUM (R25). -/
def execDevnum (fn : Fin 9) (inlen : Nat) (s : State) : Host.Outcome State Fault Refusal :=
  deviceStep (fun s => s.command fn.val false inlen 2 (devnumRun fn.val)) s

/-- GFORM (R26). -/
def execGform (fn : Fin 9) (inlen : Nat) (s : State) : Host.Outcome State Fault Refusal :=
  deviceStep (fun s => s.command fn.val false inlen 16 (gformRun fn.val)) s

/-- GDISSOLVE (R63). -/
def execGdissolve (fn : Fin 9) (inlen : Nat) (s : State) : Host.Outcome State Fault Refusal :=
  deviceStep (fun s => s.command fn.val false inlen 2 (gdissolveRun fn.val)) s

/-- CKPTSEND (R17). -/
def execCkptsend (fn : Fin 9) (inlen : Nat) (s : State) : Host.Outcome State Fault Refusal :=
  deviceStep (fun s => s.command fn.val false inlen 16 (ckptsendRun fn.val)) s

/-- TUNE (R234). -/
def execTune (inlen : Nat) (s : State) : Host.Outcome State Fault Refusal := deviceStep (fun s => s.command 0 true inlen 0 tuneRun) s

/-- CLKCAP (R63). -/
def execClkcap (inlen : Nat) (s : State) : Host.Outcome State Fault Refusal := deviceStep (fun s => s.command 0 true inlen 4 clkcapRun) s

/-- LOG (R223). -/
def execLog (inlen : Nat) (s : State) : Host.Outcome State Fault Refusal := deviceStep (fun s => s.command 0 true inlen 0 logRun) s

/-- UNKNOWN_COMMAND (R63): a VF's write to the service mailbox is ignored (R54). -/
def execUnknownCommand (fn : Fin 9) (service : Bool) (_cmd : BitVec 16) (s : State) : Host.Outcome State Fault Refusal :=
  deviceStep (fun s => if service ∧ fn.val ≠ 0 then s else s.command fn.val service 0 0 (fun _ s => (s, 2, []))) s

/-- MAILBOX_COMPLETE (R63). -/
def execMailboxComplete (fn : Fin 9) (service : Bool) (s : State) : Host.Outcome State Fault Refusal :=
  deviceStep (fun s => s.completeMailbox fn.val service) s

/-- JOB_VALIDATION (R57). -/
def execJobValidation (fn : Fin 9) (s : State) : Host.Outcome State Fault Refusal := deviceStep (fun s => s.validateJob fn.val) s

/-- THERMAL_STEP (R23). -/
def execThermalStep (die : Fin 4) (milliDeg : Nat) (s : State) : Host.Outcome State Fault Refusal :=
  deviceStep (fun s => s.thermalStep die.val milliDeg) s

/-- THERMAL_TRIP (R23). -/
def execThermalTrip (die : Fin 4) (s : State) : Host.Outcome State Fault Refusal := deviceStep (fun s => s.thermalTrip die.val) s

/-- MACHINE_CHECK (R223). -/
def execMachineCheck (fn : Fin 9) (s : State) : Host.Outcome State Fault Refusal := deviceStep (fun s => s.checkMachine fn.val) s

/-- TUNING_PASS_COMPLETE (R21). -/
def execTuningPassComplete (res : TuneRes) (rung : BitVec 2) (s : State) : Host.Outcome State Fault Refusal :=
  deviceStep (fun s => s.tuned res rung) s

/-- BAR2_RESIZE (R54). -/
def execBar2Resize (fn : Fin 9) (log : Nat) (s : State) : Host.Outcome State Fault Refusal := deviceStep (fun s => s.bar2Resize fn.val log) s

end Sys2Proof.Machine
end

