-- ==== Sys2Proof/Machine/Boundary.lean ====
section
/-!
DEFINITION. What a core does at a bundle boundary: deferred-precise faults, emulation traps and event entries (R132, R222, R228, R237), and
the results that come back to it (R120, R121, R171, R178, R310).
-/
namespace Sys2Proof.Machine

/-! Deferred faults (R222, R228) -/

/-- Takes the deferred-precise fault that is due (R222). -/
def State.takeDeferred (s : State) : State :=
  match s.core.dueFault with
  | none => s
  | some f => ({ s with core := { s.core with deferred := s.core.deferred.erase f } } : State).raise f

/-- DEFERRED_PRECISE_FAULT (R222). -/
def execDeferredPreciseFault (s : State) : Host.Outcome State Fault Refusal := deviceStep State.takeDeferred s

/-! Emulation traps (R237) -/

/-- The shadow bank at the entry of an emulation trap (R237). -/
def Core.trapBank (c : Core) (e : EmulInfo) : Core :=
  let put (c : Core) (n : Nat) (v : Word) : Core := c.setCell (regKey 6 n) { val := v.zeroExtend 2048, taint := 0, dm := false }
  let c := put (put (put (put (put c 56 (e.syl.zeroExtend 64)) 57 (e.ext.zeroExtend 64)) 58 e.pc) 59 (BitVec.ofNat 64 e.missing)) 60
    (BitVec.ofNat 64 e.bitmap)
  let c := put (put (put c 61 0) 62 0) 63 0
  (List.range 4).foldl (fun c i => c.setCell (regKey 7 (12 + i)) RegCell.zero) c

/-- Enters the emulation trap that is due: at U level, in the shadow context, at the library's entry (R237, R238). -/
def State.enterTrap (s : State) : State :=
  match s.core.emul with
  | none => s
  | some e =>
    if !s.core.trapDue then s
    else
      let c := (s.core.setCtl 0x25 s.core.pc).setCtl 0x24 0xC0000020
      { s with core := { (c.trapBank e).enter (BitVec.ofNat 64 Config.libraryEntry) with
          level := .u, handler := .emul, emul := none, serving := some { e with ptaint := c.order.ptaint, pdm := c.order.pdm },
          uepc0 := c.pc, uxfer := c.xfer, entryFrames := c.frames.length + c.spilled.length } }

/-- EMULATION_TRAP (R237). -/
def execEmulationTrap (s : State) : Host.Outcome State Fault Refusal := deviceStep State.enterTrap s

/-! The emulation library (R237, R238, R406 to R408) -/

/-- The core stands at the library's entry with an operation to emulate (R237). -/
def Core.inLibrary (c : Core) : Bool := c.handler == .emul && !c.sup && c.serving.isSome && c.pc == BitVec.ofNat 64 Config.libraryEntry

/-- What an operation that needs a class leaves, the same under emulation as on any engine (R214). -/
def emulatedResult (i : Instr) : M MResult := do
  let mma (k : Product) (o : MA) : M MResult := do mmaResult k o (← readDesc o.ga) (← readDesc o.gb)
  let mmas (k : Product) (o : MAS) : M MResult := do mmasResult k o (← readDesc o.ga) (← readDesc o.gb)
  match i with
  | .mmaF8 o => mma (prodF8 o.p) o
  | .mmaE2m1 o => mma prodE2m1 o
  | .mmaI8 o => mma prodI8 o
  | .mmaI6 o => mma prodI6 o
  | .mmaI4 o => mma (prodI4 o.p) o
  | .mmasBf16 o => mmas prodBf16 o
  | .mmasF8 o => mmas (prodF8 o.p) o
  | .mmasE2m1 o => mmas prodE2m1 o
  | .mmasI8 o => mmas prodI8 o
  | .mmasI4 o => mmas (prodI4 o.p) o
  | .mrot o => do mrotResult o (← readDesc o.g)
  | .mdrainx o => do mdrainxResult o (← readParam o) (← readDesc o.g)
  | _ => return { tiles := [], bytes := [], fault := none, spans := [], source := [] }

/-- A callr of the library through its tables, which its entry's ret takes back (R128, R407). -/
def libraryCall : M Unit := do
  let rs ← roomForReturn
  setCore (fun c => { c with rets := rs })

/-- The fault of the emulated operation as the library reports it in s56 to s60 (R237). -/
def reportedFault (c : Core) (e : EmulInfo) (f : FaultInfo) : FaultInfo :=
  { c.faultOf f.code with slot := 3, kind := 1, emulated := true, age := e.cyc, pc := e.pc, d0 := f.d0, d1 := f.d1, d2 := f.d2 }

/-- The library's retu after an operation whose routine the spec does not list: the destination is written, or the fault is due at the boundary with the
destination unchanged, and the task goes on at UEPC; how long the routine takes is a free value (R237, R238, log 50). -/
def State.leaveLibrary (s : State) (e : EmulInfo) (r : MResult) : State :=
  let s : State := match r.fault with
    | none => r.bytes.foldl (fun (s : State) b => s.pantryWriteFor (some s.core.id) b.1 b.2.1 b.2.2)
        { s with core := { s.core with tiles := r.tiles.foldl (fun (m : SMap (BitVec 32768)) t => SMap.put m t.1 t.2) s.core.tiles } }
    | some f => { s with core := { s.core with deferred := s.core.deferred ++ [reportedFault s.core e f] } }
  let c := s.core
  ({ s with
      core := { c with
        pc := c.ctl 0x25, npc := c.ctl 0x25, xfer := c.uxfer, taken := none, handler := .main, serving := none,
        level := if c.task.root then .s else .u, deferred := c.deferred.map (fun (f : FaultInfo) => { f with held := false }) },
      fresh := s.fresh + 1 } : State).tick (1 + Config.choice s.fresh)

/-- The library stops at an instruction of its own that waits or faults: what the ones before it did stands (R222, R238). -/
def State.stopLibrary (s : State) (e : EmulInfo) (x : Stop) : State :=
  let s : State := { s with core := { s.core with serving := some e } }
  match x with
  | .stall _ => s.tick 1
  | .fault f => s.raise { f with toS := true }

/-- The library's entry has found mma.bf16 and goes on at emu_bf16, whose bundles the core then issues like any others (R406, R408). What it leaves in s61 to
s63 and k12 to k15, and how long it takes, are free values (log 50). -/
def State.dispatchEmu (s : State) : State :=
  let at_ : Word := BitVec.ofNat 64 Config.emuEntry
  let put (c : Core) (p : Nat × Nat) (v : BitVec 2048) : Core := c.setCell (regKey p.1 p.2) { val := v, taint := 0, dm := false }
  let c := (List.range 3).foldl (fun c i => put c (6, 61 + i) ((Config.freeBits (s.fresh + i)).truncate 64 |>.zeroExtend 2048)) s.core
  let c := (List.range 4).foldl (fun c i => put c (7, 12 + i) ((Config.freeBits (s.fresh + 3 + i)).truncate 1 |>.zeroExtend 2048)) c
  ({ s with core := { c with pc := at_, npc := at_, xfer := none, taken := none }, fresh := s.fresh + 8 } : State).tick (1 + Config.choice (s.fresh + 7))

/-- Results of the task's earlier operations that an emulated one may read are still on their way: tiles, and pantry bytes of matrix operations
(R193, R325, R408). -/
def Core.awaitsResults (c : Core) : Bool := !c.tflights.isEmpty || !c.drains.isEmpty || c.steered.any (fun x => !x.bytes.isEmpty)

/-- The library at its entry (R237, R238): it goes on at emu_bf16 for mma.bf16 (R406), and for any other operation, whose routine the spec does not list,
does what R214 fixes as a whole, after a call through its tables (log 50). It waits for results that it may read; a fault of its own goes to S level
(R238). -/
noncomputable def State.runLibrary (s : State) : State :=
  match s.core.serving with
  | none => s
  | some e =>
    if s.core.awaitsResults then s.tick 1
    else match decodeOp .m e.syl (if e.ext = 0 then none else some (field e.ext 0 28)) with
      | .error _ => s
      | .ok (.mmaBf16 _) => s.dispatchEmu
      | .ok i =>
        let s : State := { s with core := { s.core with serving := none, cur := { slot := 0, syl := 0, ext := 0 } } }
        match libraryCall.run s with
        | .error x => s.stopLibrary e x
        | .ok (_, s) =>
          match (emulatedResult i).run s with
          | .error x => s.stopLibrary e x
          | .ok (r, t) => t.leaveLibrary e r

/-! Event handlers (R132, R133) -/

/-- The lowest enabled event that is pending. -/
def Core.pendingEvent (c : Core) : Option Nat := (List.range 5).find? (fun b => (c.ctl 0x23 &&& c.ctl 0x22).getLsbD b)

/-- An event handler may be entered now: no handler, stub or restore routine is active (R132). -/
def Core.eventDue (c : Core) : Bool := c.pendingEvent.isSome && !c.inHandler && c.ctl 0x36 == 0

/-- Enters the handler of the lowest pending event, or faults BAD_TARGET to S level when UVEC names no header with L = 1 (R132). -/
def State.enterEvent (s : State) : State :=
  let c := s.core
  match c.pendingEvent with
  | none => s
  | some b =>
    if !c.eventDue then s
    else if s.headerAt (c.ctl 0x21).toNat ≠ some true then
      s.raise { c.faultOf 0x03 with slot := 6, toS := true, pc := c.ctl 0x21, addr := c.pc }
    else
      let v := match c.events.find? (fun e => e.bit == b) with | some e => e.value | none => 0
      let c := ((c.setCtl 0x23 (c.ctl 0x23 &&& ~~~ (BitVec.ofNat 64 (2 ^ b)))).setCtl 0x24 (BitVec.ofNat 64 (b + v * 2 ^ 32))).setCtl 0x25 c.pc
      { s with core := { (c.freshBank 6 7).enter (c.ctl 0x21) with
          handler := .user, uepc0 := c.pc, uxfer := c.xfer, entryFrames := c.frames.length + c.spilled.length,
          events := c.events.filter (fun e => e.bit != b) } }

/-- EVENT_HANDLER_ENTRY (R132). -/
def execEventHandlerEntry (s : State) : Host.Outcome State Fault Refusal := deviceStep State.enterEvent s

/-! Results that come back (R120, R121, R171, R178, R310) -/

/-- Performs access `id` of the core in focus when its order lets it and it is of the kind asked for (R165, R171). -/
def State.performReady (s : State) (returns : Bool) (id : Nat) : State :=
  if s.core.performable.any (fun a => a.id == id && a.kind.returns == returns) then s.perform id else s

/-- LOAD_RETURN (R178). -/
def execLoadReturn (id : Nat) (s : State) : Host.Outcome State Fault Refusal := deviceStep (fun s => s.performReady true id) s

/-- STORE_PERFORMED (R171). -/
def execStorePerformed (id : Nat) (s : State) : Host.Outcome State Fault Refusal := deviceStep (fun s => s.performReady false id) s

/-- A special function's result lands (R121, R310). -/
def State.landSpecial (s : State) (id : Nat) : State :=
  match s.core.specials.find? (fun x => x.id == id) with
  | none => s
  | some x => { s with core := { s.core.landCell x.key x.cell with specials := s.core.specials.filter (fun y => y.id != id) } }

/-- SPECIAL_FUNCTION_RESULT (R310). -/
def execSpecialFunctionResult (id : Nat) (s : State) : Host.Outcome State Fault Refusal := deviceStep (fun s => s.landSpecial id) s

/-- BOUNDED_RESULT_WRITE: every bounded result whose bound has passed lands (R120). -/
def execBoundedResultWrite (s : State) : Host.Outcome State Fault Refusal := deviceStep State.land s

end Sys2Proof.Machine
end

