-- ==== Sys2Proof/Machine/Loads.lean ====
section
/-!
DEFINITION. Global loads and stores, pantry loads and stores, atomics, exact reduce, update-only atomics, fences, taint control and ldisc
(R278 to R284, R295, R181 to R184).
-/
namespace Sys2Proof.Machine

/-- The address of a global load or store: a + imm times the size (R278). -/
def sgAddr (a : RegCell) (size : Nat) (o : SG) : Word := a.word + joinImm o.o o.e * BitVec.ofNat 64 size

/-- A global load (R278). -/
def loadGlobal (size : Nat) (signed : Bool) (o : SG) : M Unit := do
  let a ← readS o.a
  let va := sgAddr a size o
  let pa ← globalAddr va size .read a
  issueLoad size signed .s o.r.toNat va pa o.cl.toNat [a] false 0

/-- A store enters the store buffer (R171, R176, R278). -/
def issueStore (size : Nat) (va : Word) (pa cls : Nat) (data a : RegCell) (release : Bool) (mb : BitVec 16) : M Unit :=
  issue { Access.blank with kind := .store, va := va, pa := pa, len := size, data := toBytes size data.word.toNat, cls := cls,
                            acquire := release, taint := data.taint, dm := data.dm } [a, data] mb 0

/-- A global store (R278). -/
def storeGlobal (size : Nat) (o : SG) : M Unit := do
  let a ← readS o.a
  let b ← readS o.r
  let va := sgAddr a size o
  let pa ← globalAddr va size .write a
  issueStore size va pa o.cl.toNat b a false 0

/-- An acquire load (R183, R279). -/
def loadAcquire (size : Nat) (o : SO) : M Unit := do
  let a ← readS o.a
  let pa ← globalAddr a.word size .read a
  issueLoad size true .s o.r.toNat a.word pa o.cl.toNat [a] true o.m

/-- A release store (R183, R279). -/
def storeRelease (size : Nat) (o : SO) : M Unit := do
  let a ← readS o.a
  let b ← readS o.r
  let pa ← globalAddr a.word size .write a
  issueStore size a.word pa o.cl.toNat b a true o.m

/-- The address of a pantry load or store (R280). -/
def syAddr (a : RegCell) (size : Nat) (o : SY) : Word := a.word + joinImm o.o o.e * BitVec.ofNat 64 size

/-- A pantry load, latency 4 (R280). -/
def loadPantry (size : Nat) (signed : Bool) (o : SY) : M Unit := do
  let a ← readS o.a
  let p ← pantryAddr (syAddr a size o) size a
  let bs ← readOwn p size
  writeS o.r (BitVec.ofNat 64 (loadValue size signed bs)) [a] 4

/-- A pantry store (R280). -/
def storePantry (size : Nat) (o : SY) : M Unit := do
  let a ← readS o.a
  let b ← readS o.r
  let p ← pantryAddr (syAddr a size o) size a
  writeOwn p (toBytes size b.word.toNat)

/-- The group of an atomic with its defaults (R251): class, 32-bit, failure acquire, class mask. -/
def atomicGroup (g : Option SAG) : Nat × Bool × Bool × BitVec 16 :=
  match g with
  | none => (0, false, false, 1)
  | some g => (g.cl.toNat, g.w == 1, g.fo == 1, g.m)

/-- An atomic that returns the old value in d (R184, R281). -/
def atomic (k : AccKind) (o : SA) : M Unit := do
  let (cls, narrow, fail, mask) := atomicGroup o.g
  let size := if narrow then 4 else 8
  let a ← readS o.a
  let b ← readS o.b
  let d ← (match k with | .cas => readS o.d | _ => pure RegCell.zero)
  let pa ← globalAddr a.word size .read a
  let pa' ← globalAddr a.word size .write a
  let key ← target .s o.d.toNat
  let acq := o.o.getLsbD 0
  let rel := o.o.getLsbD 1
  issue { Access.blank with kind := k, va := a.word, pa := max pa pa', len := size, operand := b.word, expect := d.word, cls := cls,
                            dsts := [key], acquire := acq, failAcquire := fail }
    (match k with | .cas => [a, b, d] | _ => [a, b]) (if rel then mask else 0) (if acq || fail then mask else 0)

/-- cas2: 16 bytes, pairs of registers (R281). -/
def atomicPair (o : SA) : M Unit := do
  let (cls, _, fail, mask) := atomicGroup o.g
  let a ← readS o.a
  let b0 ← readS o.b
  let b1 ← readS (o.b + 1)
  let d0 ← readS o.d
  let d1 ← readS (o.d + 1)
  let pa ← globalAddr a.word 16 .read a
  let pa' ← globalAddr a.word 16 .write a
  let k0 ← target .s o.d.toNat
  let k1 ← target .s (o.d.toNat + 1)
  let acq := o.o.getLsbD 0
  let rel := o.o.getLsbD 1
  issue { Access.blank with kind := .cas2, va := a.word, pa := max pa pa', len := 16, operand := b0.word, operandHi := b1.word,
                            expect := d0.word, expectHi := d1.word, cls := cls, dsts := [k0, k1], acquire := acq, failAcquire := fail }
    [a, b0, b1, d0, d1] (if rel then mask else 0) (if acq || fail then mask else 0)

/-- redx: an exact addition at the home slice (R282). -/
def exactReduceOp (o : SAR) : M Unit := do
  let (cls, _, _, _) := atomicGroup o.g
  let a ← readS o.a
  let b ← readS o.b
  let pa ← globalAddr a.word 4 .read a
  let pa' ← globalAddr a.word 4 .write a
  issue { Access.blank with kind := .redx, va := a.word, pa := max pa pa', len := 4, operand := b.word, cls := cls } [a, b] 0 0

/-- An update-only atomic (R155, R172, R283). -/
def updateOnly (op : Nat) (o : SU) : M Unit := do
  let size := if o.w = 1 then 8 else 4
  let a ← readS o.a
  let b ← readS o.b
  let pa ← globalAddr a.word size .read a
  let pa' ← globalAddr a.word size .write a
  issue { Access.blank with kind := .update op, va := a.word, pa := max pa pa', len := size, operand := b.word, cls := o.cl.toNat }
    [a, b] 0 0

/-- fence: earlier accesses of MB before later accesses of MA, at device or fabric scope (R182, R168); with both masks, at any scope, earlier pantry
writes of the M slot before later pantry accesses (R182, R193). At any scope the update-only lines of MB are merged, once the updates of MB are
performed (R156). -/
def fenceOp (o : SF) : M Unit := do
  modify (fun s =>
    let wide := decide (2 ≤ o.sco.toNat)
    let ids := (s.core.order.acc.filter (fun x => o.mb.getLsbD x.cls)).map (fun x => x.id)
    let held := (s.core.order.holds.filter (fun h => (h.ma &&& o.mb) != 0)).flatMap (fun h => h.ids)
    let waits := o.mb ≠ 0 ∧ (ids ++ held) ≠ []
    let s := if waits then s else s.mergeClasses o.mb
    let l1 := wide && o.ma != 0
    { s with core := { s.core with
        l1 := if l1 then [] else s.core.l1,
        order := { s.core.order with
          holds := if waits then s.core.order.holds ++ [{ ids := ids ++ held, ma := if wide then o.ma else 0, mb := o.mb, l1 := l1 }]
                   else s.core.order.holds } } })
  if o.mb ≠ 0 ∧ o.ma ≠ 0 then
    setCore (fun c => { c with drains := c.drains.map (fun d => { d with fenced := true }),
                               steered := c.steered.map (fun x => if x.bytes = [] then x else { x with fenced := true }) })

/-- The file of a taint code (R251 ST). -/
def taintFile (f : BitVec 3) : File := match f.toNat with | 0 => .s | 1 => .k | 2 => .v | 3 => .w | 4 => .c | _ => .d

/-- tclr: a register's or the path's taint and mark are emptied, for every op after the bundle (R181, R284). -/
def tclrOp (o : STC) : M Unit := do
  if o.f = 6 then later .clearPath
  else do
    let c ← core
    later (.clearTaint (c.phys (taintFile o.f) o.n.toNat))

/-- A tag as a taint set. -/
def tagBit (t : Option Nat) : BitVec 16 := match t with | some t => BitVec.ofNat 16 (2 ^ t) | none => 0

/-- The taint set and mark that a register has, those of a pending result where one is on its way (R181). -/
def Core.taintAt (c : Core) (key : Nat) : BitVec 16 × Bool :=
  match (c.order.acc.filter (fun a => a.dsts.contains key)).getLast?, c.specials.find? (fun x => x.key == key),
      ((c.queues.flatMap (fun q => q.entries)).filter (fun e => e.key == some key)).getLast?, (c.flights.filter (fun x => x.key == key)).getLast? with
  | some a, _, _, _ => if a.clean.contains key then (0, false) else (a.taint ||| tagBit a.tag, a.dm)
  | none, some x, _, _ => (x.cell.taint, x.cell.dm)
  | none, none, some e, _ => if e.clean then (0, false) else (e.taint ||| tagBit e.tag, e.dm)
  | none, none, none, some x => (x.cell.taint, x.cell.dm)
  | none, none, none, none => ((c.cell key).taint, (c.cell key).dm)

/-- tquery: INUSE, D and TAINT of a register or the path (R181). -/
def tqueryOp (o : ST) : M Unit := do
  let c ← core
  let q := if o.f = 6 then (c.order.ptaint, c.order.pdm) else c.taintAt (c.phys (taintFile o.f) o.n.toNat)
  writeS o.r (BitVec.ofNat 64 (c.outstanding.toNat * 2 ^ 32 + q.2.toNat * 2 ^ 16 + q.1.toNat)) [] 1

/-- tsync: the bundle waits for the named tags (R181); a mask naming tag 15 waits for every load. -/
def tsyncOp (o : SH) : M Unit := do
  let c ← core
  let wait := if o.i.getLsbD 15 then c.outstanding else c.outstanding &&& o.i
  if wait = 0 then pure () else stall

/-- ldisc: every page is checked for writing, then each line's discard is an access of class 0 (R160, R295). -/
def ldiscOp (o : SRD) : M Unit := do
  let a ← readS o.a
  let b ← readS o.b
  checkReg a (a.word.toNat % 128 == 0)
  checkReg b (b.word.toNat % 128 == 0 && decide (128 ≤ b.word.toNat) && decide (b.word.toNat ≤ 2 ^ 20))
  let n := b.word.toNat / 128
  let pas ← (List.range n).mapM (fun i => globalAddr (a.word + BitVec.ofNat 64 (128 * i)) 1 .write a)
  pas.forM (fun pa => issue { Access.blank with kind := .discard, pa := pa, len := 128 } [a, b] 0 0)

/-- LdB (R278). -/
def execLdB (o : SG) (s : State) : Host.Outcome State Fault Refusal := finish (loadGlobal 1 true o) s

/-- LdBU (R278). -/
def execLdBU (o : SG) (s : State) : Host.Outcome State Fault Refusal := finish (loadGlobal 1 false o) s

/-- LdH (R278). -/
def execLdH (o : SG) (s : State) : Host.Outcome State Fault Refusal := finish (loadGlobal 2 true o) s

/-- LdHU (R278). -/
def execLdHU (o : SG) (s : State) : Host.Outcome State Fault Refusal := finish (loadGlobal 2 false o) s

/-- LdW (R278). -/
def execLdW (o : SG) (s : State) : Host.Outcome State Fault Refusal := finish (loadGlobal 4 true o) s

/-- LdWU (R278). -/
def execLdWU (o : SG) (s : State) : Host.Outcome State Fault Refusal := finish (loadGlobal 4 false o) s

/-- LdD (R278). -/
def execLdD (o : SG) (s : State) : Host.Outcome State Fault Refusal := finish (loadGlobal 8 false o) s

/-- StB (R278). -/
def execStB (o : SG) (s : State) : Host.Outcome State Fault Refusal := finish (storeGlobal 1 o) s

/-- StH (R278). -/
def execStH (o : SG) (s : State) : Host.Outcome State Fault Refusal := finish (storeGlobal 2 o) s

/-- StW (R278). -/
def execStW (o : SG) (s : State) : Host.Outcome State Fault Refusal := finish (storeGlobal 4 o) s

/-- StD (R278). -/
def execStD (o : SG) (s : State) : Host.Outcome State Fault Refusal := finish (storeGlobal 8 o) s

/-- LdaW (R279). -/
def execLdaW (o : SO) (s : State) : Host.Outcome State Fault Refusal := finish (loadAcquire 4 o) s

/-- LdaD (R279). -/
def execLdaD (o : SO) (s : State) : Host.Outcome State Fault Refusal := finish (loadAcquire 8 o) s

/-- StlW (R279). -/
def execStlW (o : SO) (s : State) : Host.Outcome State Fault Refusal := finish (storeRelease 4 o) s

/-- StlD (R279). -/
def execStlD (o : SO) (s : State) : Host.Outcome State Fault Refusal := finish (storeRelease 8 o) s

/-- LdpB (R280). -/
def execLdpB (o : SY) (s : State) : Host.Outcome State Fault Refusal := finish (loadPantry 1 true o) s

/-- LdpBU (R280). -/
def execLdpBU (o : SY) (s : State) : Host.Outcome State Fault Refusal := finish (loadPantry 1 false o) s

/-- LdpH (R280). -/
def execLdpH (o : SY) (s : State) : Host.Outcome State Fault Refusal := finish (loadPantry 2 true o) s

/-- LdpHU (R280). -/
def execLdpHU (o : SY) (s : State) : Host.Outcome State Fault Refusal := finish (loadPantry 2 false o) s

/-- LdpW (R280). -/
def execLdpW (o : SY) (s : State) : Host.Outcome State Fault Refusal := finish (loadPantry 4 true o) s

/-- LdpWU (R280). -/
def execLdpWU (o : SY) (s : State) : Host.Outcome State Fault Refusal := finish (loadPantry 4 false o) s

/-- LdpD (R280). -/
def execLdpD (o : SY) (s : State) : Host.Outcome State Fault Refusal := finish (loadPantry 8 false o) s

/-- StpB (R280). -/
def execStpB (o : SY) (s : State) : Host.Outcome State Fault Refusal := finish (storePantry 1 o) s

/-- StpH (R280). -/
def execStpH (o : SY) (s : State) : Host.Outcome State Fault Refusal := finish (storePantry 2 o) s

/-- StpW (R280). -/
def execStpW (o : SY) (s : State) : Host.Outcome State Fault Refusal := finish (storePantry 4 o) s

/-- StpD (R280). -/
def execStpD (o : SY) (s : State) : Host.Outcome State Fault Refusal := finish (storePantry 8 o) s

/-- AmoAdd (R281). -/
def execAmoAdd (o : SA) (s : State) : Host.Outcome State Fault Refusal := finish (atomic (.amo 0) o) s

/-- AmoAnd (R281). -/
def execAmoAnd (o : SA) (s : State) : Host.Outcome State Fault Refusal := finish (atomic (.amo 1) o) s

/-- AmoOr (R281). -/
def execAmoOr (o : SA) (s : State) : Host.Outcome State Fault Refusal := finish (atomic (.amo 2) o) s

/-- AmoXor (R281). -/
def execAmoXor (o : SA) (s : State) : Host.Outcome State Fault Refusal := finish (atomic (.amo 3) o) s

/-- AmoMin (R281). -/
def execAmoMin (o : SA) (s : State) : Host.Outcome State Fault Refusal := finish (atomic (.amo 4) o) s

/-- AmoMax (R281). -/
def execAmoMax (o : SA) (s : State) : Host.Outcome State Fault Refusal := finish (atomic (.amo 5) o) s

/-- AmoMinu (R281). -/
def execAmoMinu (o : SA) (s : State) : Host.Outcome State Fault Refusal := finish (atomic (.amo 6) o) s

/-- AmoMaxu (R281). -/
def execAmoMaxu (o : SA) (s : State) : Host.Outcome State Fault Refusal := finish (atomic (.amo 7) o) s

/-- AmoSwap (R281). -/
def execAmoSwap (o : SA) (s : State) : Host.Outcome State Fault Refusal := finish (atomic (.amo 8) o) s

/-- Cas (R281). -/
def execCas (o : SA) (s : State) : Host.Outcome State Fault Refusal := finish (atomic .cas o) s

/-- Cas2 (R281). -/
def execCas2 (o : SA) (s : State) : Host.Outcome State Fault Refusal := finish (atomicPair o) s

/-- Redx (R282). -/
def execRedx (o : SAR) (s : State) : Host.Outcome State Fault Refusal := finish (exactReduceOp o) s

/-- Uadd (R283). -/
def execUadd (o : SU) (s : State) : Host.Outcome State Fault Refusal := finish (updateOnly 0 o) s

/-- Umin (R283). -/
def execUmin (o : SU) (s : State) : Host.Outcome State Fault Refusal := finish (updateOnly (if o.u = 1 then 6 else 4) o) s

/-- Umax (R283). -/
def execUmax (o : SU) (s : State) : Host.Outcome State Fault Refusal := finish (updateOnly (if o.u = 1 then 7 else 5) o) s

/-- Uand (R283). -/
def execUand (o : SU) (s : State) : Host.Outcome State Fault Refusal := finish (updateOnly 1 o) s

/-- Uor (R283). -/
def execUor (o : SU) (s : State) : Host.Outcome State Fault Refusal := finish (updateOnly 2 o) s

/-- Uxor (R283). -/
def execUxor (o : SU) (s : State) : Host.Outcome State Fault Refusal := finish (updateOnly 3 o) s

/-- UminF (R283). -/
def execUminF (o : SU) (s : State) : Host.Outcome State Fault Refusal := finish (updateOnly 9 o) s

/-- UmaxF (R283). -/
def execUmaxF (o : SU) (s : State) : Host.Outcome State Fault Refusal := finish (updateOnly 10 o) s

/-- Fence (R182). -/
def execFence (o : SF) (s : State) : Host.Outcome State Fault Refusal := finish (fenceOp o) s

/-- Tclr (R181). -/
def execTclr (o : STC) (s : State) : Host.Outcome State Fault Refusal := finish (tclrOp o) s

/-- Tsync (R181). -/
def execTsync (o : SH) (s : State) : Host.Outcome State Fault Refusal := finish (tsyncOp o) s

/-- Tquery (R181). -/
def execTquery (o : ST) (s : State) : Host.Outcome State Fault Refusal := finish (tqueryOp o) s

/-- Ldisc (R295). -/
def execLdisc (o : SRD) (s : State) : Host.Outcome State Fault Refusal := finish (ldiscOp o) s

end Sys2Proof.Machine
end

