-- ==== Sys2Proof/Machine/Scalar.lean ====
section
/-!
DEFINITION. Scalar arithmetic, compares and predicates (R269 to R273): one meaning per instruction over shared operand forms.
-/
namespace Sys2Proof.Machine

/-- A shift or rotate amount: bits [5:0] (R271). -/
def shiftAmount (b : Word) : Nat := b.toNat % 64

/-- Leading zeros of a word (R271). -/
def clzWord (a : Word) : Word := if a = 0 then 64 else BitVec.ofNat 64 (63 - Nat.log2 a.toNat)
/-- Trailing zeros of a word (R271). -/
def ctzWord (a : Word) : Word :=
  match (List.range 64).find? (fun i => a.getLsbD i) with | some i => BitVec.ofNat 64 i | none => 64
/-- Ones of a word (R271). -/
def popcWord (a : Word) : Word := BitVec.ofNat 64 ((List.range 64).filter (fun i => a.getLsbD i)).length
/-- Signed division (R272). -/
def divWord (a b : Word) : Word := if b = 0 then BitVec.allOnes 64 else a.sdiv b
/-- Unsigned division (R272). -/
def divuWord (a b : Word) : Word := if b = 0 then BitVec.allOnes 64 else a.udiv b
/-- Signed remainder (R272). -/
def remWord (a b : Word) : Word := if b = 0 then a else a.srem b
/-- Unsigned remainder (R272). -/
def remuWord (a b : Word) : Word := if b = 0 then a else a.umod b
/-- High half of the signed product (R271). -/
def mulhWord (a b : Word) : Word := ((a.signExtend 128 * b.signExtend 128) >>> 64).truncate 64
/-- High half of the unsigned product (R271). -/
def mulhuWord (a b : Word) : Word := ((a.zeroExtend 128 * b.zeroExtend 128) >>> 64).truncate 64
/-- The source width of sext and zext (R251). -/
def extWidth (x : BitVec 2) : Nat := match x.toNat with | 0 => 8 | 1 => 16 | _ => 32
/-- Sign extension from `w` bits. -/
def sextWord (w : Nat) (a : Word) : Word := (BitVec.ofNat w a.toNat).signExtend 64
/-- Zero extension from `w` bits. -/
def zextWord (w : Nat) (a : Word) : Word := BitVec.ofNat 64 (a.toNat % 2 ^ w)
/-- A bit field, zero-extended (R271). -/
def bfxWord (p w : Nat) (a : Word) : Word := BitVec.ofNat 64 (bits a.toNat p w)
/-- A word with a bit field replaced (R271). -/
def bfiWord (p w : Nat) (d a : Word) : Word :=
  let m := BitVec.ofNat 64 ((2 ^ w - 1) * 2 ^ p)
  (d &&& ~~~ m) ||| (BitVec.ofNat 64 (a.toNat * 2 ^ p) &&& m)

/-- Three registers: d from a and b, latency `lat` (R251 SR, R271). -/
def alu3 (f : Word → Word → Word) (lat : Nat) (o : SR3) : M Unit := do
  let a ← readS o.a
  let b ← readS o.b
  writeS o.d (f a.word b.word) [a, b] lat

/-- One source: d from a (R251 SR, R271). -/
def alu2 (f : Word → Word) (o : SR2) : M Unit := do
  let a ← readS o.a
  writeS o.d (f a.word) [a] 1

/-- Register and immediate (R251 SI, R271). -/
def aluI (f : Word → Word → Word) (o : SI) : M Unit := do
  let a ← readS o.a
  writeS o.d (f a.word (joinImm o.i o.e)) [a] 1

/-- Compare of registers into a predicate (R251 SK, R273). -/
def cmpK (f : Word → Word → Bool) (o : SK) : M Unit := do
  let a ← readS o.a
  let b ← readS o.b
  writeK o.k (f a.word b.word) [a, b]

/-- Compare with an immediate into a predicate (R251 SJ, R273). -/
def cmpJ (f : Word → Word → Bool) (o : SJ) : M Unit := do
  let a ← readS o.a
  writeK o.k (f a.word (joinImm o.i o.e)) [a]

/-- Predicate operation (R251 SP, R273). -/
def predOp (f : Bool → Bool → Bool) (o : SP) : M Unit := do
  let a ← readK o.ka
  let b ← readK o.kb
  writeK o.k (f a.flag b.flag) [a, b]

/-- nop (R271). -/
def execNop (s : State) : Host.Outcome State Fault Refusal := finish (pure ()) s

/-- Add (R271). -/
def execAdd (o : SR3) (s : State) : Host.Outcome State Fault Refusal := finish (alu3 (fun a b => a + b) 1 o) s

/-- Sub (R271). -/
def execSub (o : SR3) (s : State) : Host.Outcome State Fault Refusal := finish (alu3 (fun a b => a - b) 1 o) s

/-- Mul (R271). -/
def execMul (o : SR3) (s : State) : Host.Outcome State Fault Refusal := finish (alu3 (fun a b => a * b) 3 o) s

/-- Mulh (R271). -/
def execMulh (o : SR3) (s : State) : Host.Outcome State Fault Refusal := finish (alu3 (mulhWord) 3 o) s

/-- Mulhu (R271). -/
def execMulhu (o : SR3) (s : State) : Host.Outcome State Fault Refusal := finish (alu3 (mulhuWord) 3 o) s

/-- Div (R272). -/
def execDiv (o : SR3) (s : State) : Host.Outcome State Fault Refusal := finish (alu3 (divWord) 18 o) s

/-- Divu (R272). -/
def execDivu (o : SR3) (s : State) : Host.Outcome State Fault Refusal := finish (alu3 (divuWord) 18 o) s

/-- Rem (R272). -/
def execRem (o : SR3) (s : State) : Host.Outcome State Fault Refusal := finish (alu3 (remWord) 18 o) s

/-- Remu (R272). -/
def execRemu (o : SR3) (s : State) : Host.Outcome State Fault Refusal := finish (alu3 (remuWord) 18 o) s

/-- And (R271). -/
def execAnd (o : SR3) (s : State) : Host.Outcome State Fault Refusal := finish (alu3 (fun a b => a &&& b) 1 o) s

/-- Or (R271). -/
def execOr (o : SR3) (s : State) : Host.Outcome State Fault Refusal := finish (alu3 (fun a b => a ||| b) 1 o) s

/-- Xor (R271). -/
def execXor (o : SR3) (s : State) : Host.Outcome State Fault Refusal := finish (alu3 (fun a b => a ^^^ b) 1 o) s

/-- Andn (R271). -/
def execAndn (o : SR3) (s : State) : Host.Outcome State Fault Refusal := finish (alu3 (fun a b => a &&& ~~~ b) 1 o) s

/-- Shl (R271). -/
def execShl (o : SR3) (s : State) : Host.Outcome State Fault Refusal := finish (alu3 (fun a b => a <<< shiftAmount b) 1 o) s

/-- Shr (R271). -/
def execShr (o : SR3) (s : State) : Host.Outcome State Fault Refusal := finish (alu3 (fun a b => a >>> shiftAmount b) 1 o) s

/-- Sra (R271). -/
def execSra (o : SR3) (s : State) : Host.Outcome State Fault Refusal := finish (alu3 (fun a b => a.sshiftRight (shiftAmount b)) 1 o) s

/-- Rotl (R271). -/
def execRotl (o : SR3) (s : State) : Host.Outcome State Fault Refusal := finish (alu3 (fun a b => a.rotateLeft (shiftAmount b)) 1 o) s

/-- Min (R271). -/
def execMin (o : SR3) (s : State) : Host.Outcome State Fault Refusal := finish (alu3 (fun a b => if b.slt a then b else a) 1 o) s

/-- Max (R271). -/
def execMax (o : SR3) (s : State) : Host.Outcome State Fault Refusal := finish (alu3 (fun a b => if a.slt b then b else a) 1 o) s

/-- Minu (R271). -/
def execMinu (o : SR3) (s : State) : Host.Outcome State Fault Refusal := finish (alu3 (fun a b => if b.ult a then b else a) 1 o) s

/-- Maxu (R271). -/
def execMaxu (o : SR3) (s : State) : Host.Outcome State Fault Refusal := finish (alu3 (fun a b => if a.ult b then b else a) 1 o) s

/-- Clz (R271). -/
def execClz (o : SR2) (s : State) : Host.Outcome State Fault Refusal := finish (alu2 clzWord o) s

/-- Ctz (R271). -/
def execCtz (o : SR2) (s : State) : Host.Outcome State Fault Refusal := finish (alu2 ctzWord o) s

/-- Popc (R271). -/
def execPopc (o : SR2) (s : State) : Host.Outcome State Fault Refusal := finish (alu2 popcWord o) s

/-- Sext (R271). -/
def execSext (o : SRX) (s : State) : Host.Outcome State Fault Refusal := finish (do check (o.x != 3); let a ← readS o.a; writeS o.d (sextWord (extWidth o.x) a.word) [a] 1) s

/-- Zext (R271). -/
def execZext (o : SRX) (s : State) : Host.Outcome State Fault Refusal := finish (do check (o.x != 3); let a ← readS o.a; writeS o.d (zextWord (extWidth o.x) a.word) [a] 1) s

/-- Lea (R271). -/
def execLea (o : SR4) (s : State) : Host.Outcome State Fault Refusal := finish (do let a ← readS o.a; let b ← readS o.b; writeS o.d (a.word + (b.word <<< o.x.toNat)) [a, b] 1) s

/-- Sel (R271). -/
def execSel (o : SX) (s : State) : Host.Outcome State Fault Refusal := finish (do let a ← readS o.a; let b ← readS o.b; let k ← readK o.k; writeS o.d (if k.flag then a.word else b.word) [a, b, k] 1) s

/-- Bfx (R271). -/
def execBfx (o : SXB) (s : State) : Host.Outcome State Fault Refusal := finish (do let a ← readS o.a; writeS o.d (bfxWord o.p.toNat (o.w.toNat + 1) a.word) [a] 1) s

/-- Bfi (R271). -/
def execBfi (o : SXB) (s : State) : Host.Outcome State Fault Refusal := finish (do let a ← readS o.a; let d ← readS o.d; writeS o.d (bfiWord o.p.toNat (o.w.toNat + 1) d.word a.word) [a, d] 1) s

/-- Addi (R271). -/
def execAddi (o : SI) (s : State) : Host.Outcome State Fault Refusal := finish (aluI (fun a b => a + b) o) s

/-- Andi (R271). -/
def execAndi (o : SI) (s : State) : Host.Outcome State Fault Refusal := finish (aluI (fun a b => a &&& b) o) s

/-- Ori (R271). -/
def execOri (o : SI) (s : State) : Host.Outcome State Fault Refusal := finish (aluI (fun a b => a ||| b) o) s

/-- Xori (R271). -/
def execXori (o : SI) (s : State) : Host.Outcome State Fault Refusal := finish (aluI (fun a b => a ^^^ b) o) s

/-- Shli (R271). -/
def execShli (o : SI) (s : State) : Host.Outcome State Fault Refusal := finish (aluI (fun a b => a <<< shiftAmount b) o) s

/-- Shri (R271). -/
def execShri (o : SI) (s : State) : Host.Outcome State Fault Refusal := finish (aluI (fun a b => a >>> shiftAmount b) o) s

/-- Srai (R271). -/
def execSrai (o : SI) (s : State) : Host.Outcome State Fault Refusal := finish (aluI (fun a b => a.sshiftRight (shiftAmount b)) o) s

/-- Movi (R271). -/
def execMovi (o : SM) (s : State) : Host.Outcome State Fault Refusal := finish (writeS o.d (joinImm o.i o.e) [] 1) s

/-- CmpEq (R273). -/
def execCmpEq (o : SK) (s : State) : Host.Outcome State Fault Refusal := finish (cmpK (fun a b => a == b) o) s

/-- CmpNe (R273). -/
def execCmpNe (o : SK) (s : State) : Host.Outcome State Fault Refusal := finish (cmpK (fun a b => a != b) o) s

/-- CmpLt (R273). -/
def execCmpLt (o : SK) (s : State) : Host.Outcome State Fault Refusal := finish (cmpK (fun a b => a.slt b) o) s

/-- CmpLtu (R273). -/
def execCmpLtu (o : SK) (s : State) : Host.Outcome State Fault Refusal := finish (cmpK (fun a b => a.ult b) o) s

/-- CmpGe (R273). -/
def execCmpGe (o : SK) (s : State) : Host.Outcome State Fault Refusal := finish (cmpK (fun a b => !a.slt b) o) s

/-- CmpGeu (R273). -/
def execCmpGeu (o : SK) (s : State) : Host.Outcome State Fault Refusal := finish (cmpK (fun a b => !a.ult b) o) s

/-- CmpiEq (R273). -/
def execCmpiEq (o : SJ) (s : State) : Host.Outcome State Fault Refusal := finish (cmpJ (fun a b => a == b) o) s

/-- CmpiNe (R273). -/
def execCmpiNe (o : SJ) (s : State) : Host.Outcome State Fault Refusal := finish (cmpJ (fun a b => a != b) o) s

/-- CmpiLt (R273). -/
def execCmpiLt (o : SJ) (s : State) : Host.Outcome State Fault Refusal := finish (cmpJ (fun a b => a.slt b) o) s

/-- CmpiLtu (R273). -/
def execCmpiLtu (o : SJ) (s : State) : Host.Outcome State Fault Refusal := finish (cmpJ (fun a b => a.ult b) o) s

/-- CmpiGe (R273). -/
def execCmpiGe (o : SJ) (s : State) : Host.Outcome State Fault Refusal := finish (cmpJ (fun a b => !a.slt b) o) s

/-- CmpiGeu (R273). -/
def execCmpiGeu (o : SJ) (s : State) : Host.Outcome State Fault Refusal := finish (cmpJ (fun a b => !a.ult b) o) s

/-- Pand (R273). -/
def execPand (o : SP) (s : State) : Host.Outcome State Fault Refusal := finish (predOp (fun a b => a && b) o) s

/-- Por (R273). -/
def execPor (o : SP) (s : State) : Host.Outcome State Fault Refusal := finish (predOp (fun a b => a || b) o) s

/-- Pxor (R273). -/
def execPxor (o : SP) (s : State) : Host.Outcome State Fault Refusal := finish (predOp (fun a b => a != b) o) s

/-- Pnot (R273). -/
def execPnot (o : SP1) (s : State) : Host.Outcome State Fault Refusal := finish (do let a ← readK o.ka; writeK o.k (!a.flag) [a]) s

end Sys2Proof.Machine
end

