-- ==== Sys2Proof/Machine/VectorMem.lean ====
section
/-!
DEFINITION. Vector accesses to the pantry and to global memory (R318 to R322).
-/
namespace Sys2Proof.Machine

/-- A pantry base whose bits [63:20] are not zero faults PANTRY_RANGE (R318). -/
def checkBase (a : RegCell) : M Unit := do
  if a.base.toNat < 2 ^ 20 then pure () else do let _ ← pantryAddr a.base 1 a

/-- vldp (R319). -/
def vldpOp (o : VM) : M Unit := do
  let g ← readGuard o.v o.m
  let a ← readV o.v o.a
  if g.some_ 64 then do
    checkBase a
    let p ← pantryAddr (vmAddr a o) 256 a
    let bs ← readOwn p 256
    writeLanes o.v o.d g 32 (lanesOf 32 64 (ofBytes bs)) [a] 8
  else writeLanes o.v o.d g 32 (List.replicate 64 0) [a] 8

/-- Lanes up to the last active of 64. -/
def Guard.reach (g : Guard) : Nat := match ((List.range 64).filter g.active).getLast? with | some j => j + 1 | none => 0

/-- The fault of a decoding load of `n` elements at an address, in the order of R416 (R320): a lane beyond the last active one never faults (R300). -/
def State.decodeCode (s : State) (coreN a n : Nat) : Option Nat :=
  if Config.pantryBytes ≤ a then some 0x15
  else
    let b := a / Config.bankBytes
    let off := a % Config.bankBytes
    let fmt := s.fmtAt coreN b
    let w := fmtBits fmt
    if fmt ≠ 0 ∧ (off * 8 % w ≠ 0 ∨ off * 8 / w % 64 ≠ 0) then some 0x13
    else match s.pantryCode coreN a 1 with
      | some c => some c
      | none =>
        if fmt ≠ 0 ∧ elemCount fmt (s.usableAt coreN b) < off * 8 / w + n then some 0x15
        else if fmt = 0 then some 0x17
        else none

/-- vldp.dec (R320); of a bank whose mode is changing it gets undefined lanes (R91). -/
def vldpDecOp (o : VM) : M Unit := do
  let g ← readGuard o.v o.m
  let a ← readV o.v o.a
  if g.some_ 64 then do
    checkBase a
    awaitFence
    let s ← get
    let va := vmAddr a o
    let p := va.toNat
    let b := p / Config.bankBytes
    let fmt := s.fmtAt s.core.id b
    match s.decodeCode s.core.id p g.reach with
    | some code =>
      throw (.fault { s.pantryFault (s.core.faultOf code) code s.core.id p (8 * fmtBits fmt) with addr := va, taint := a.taint, dm := a.dm })
    | none =>
      if s.core.carving p then writeLanes o.v o.d g 32 (lanesOf 32 64 (← freeVal 2048).toNat) [a] 8
      else
        let r := s.readElems none s.core.id b fmt (p % Config.bankBytes * 8 / fmtBits fmt) 64
        set r.2
        writeLanes o.v o.d g 32 (r.1.map (fun x => decodedLane fmt x.1 x.2)) [a] 8
  else writeLanes o.v o.d g 32 (List.replicate 64 0) [a] 8

/-- vstp (R319): the bytes of the active lanes. -/
def vstpOp (o : VM) : M Unit := do
  let g ← readGuard o.v o.m
  let a ← readV o.v o.a
  let d ← readV o.v o.d
  if g.some_ 64 then do
    checkBase a
    let p ← pantryAddr (vmAddr a o) 256 a
    ((List.range 64).filter g.active).forM (fun j => writeOwn (p + 4 * j) (toBytes 4 (nth 0 (d.lanes 32) j)))

/-- vld: one access of 256 bytes; the store buffer may supply it (R173, R179, R321). Its old destination does not bar the L1 (R170). -/
def vldOp (o : VM) : M Unit := do
  let g ← readGuard o.v o.m
  let a ← readV o.v o.a
  let old ← (match g with | none => pure RegCell.zero | some _ => readV o.v o.d)
  let cells := [a] ++ (match g with | none => [] | some m => [m, old])
  if g.some_ 64 then do
    let va := vmAddr a o
    let pa ← globalAddr va 256 .read a
    let key ← target (vFile o.v) o.d.toNat
    let c ← core
    match c.served (vmCls o) cells va.toNat pa 256 g.bytes with
    | some (bs, older) =>
      later (.landed key { val := BitVec.ofNat 2048 (ofBytes (blend g.bytes (toBytes 256 old.val.toNat) bs)),
                           taint := older.foldl (fun t x => t ||| x.taint) (taintOf cells),
                           dm := dmOf cells || older.any (fun x => x.dm) })
    | none =>
      issue { Access.blank with kind := .vload, va := va, pa := pa, len := 256, enable := g.bytes, old := old.val, cls := vmCls o,
                                dsts := [key], l1 := l1Allowed c (vmCls o) ([a] ++ g.cells) pa 256 g.bytes } cells 0 0
  else later (.landed (← target (vFile o.v) o.d.toNat) { val := old.val, taint := taintOf cells, dm := dmOf cells })

/-- vst: a store of the active lanes (R176, R321). -/
def vstOp (o : VM) : M Unit := do
  let g ← readGuard o.v o.m
  let a ← readV o.v o.a
  let d ← readV o.v o.d
  if g.some_ 64 then do
    let va := vmAddr a o
    let pa ← globalAddr va 256 .write a
    issue { Access.blank with kind := .store, va := va, pa := pa, len := 256, data := toBytes 256 d.val.toNat, enable := g.bytes,
                              cls := vmCls o, taint := d.taint, dm := d.dm } ([d, a] ++ g.cells) 0 0

/-- The pantry addresses of the active lanes, all checked; the lowest failing lane faults (R322). -/
def laneAddrs (o : VM) (g : Guard) (a b : RegCell) : M (List (Nat × Nat)) := do
  if g.some_ 64 then checkBase a
  ((List.range 64).filter g.active).mapM (fun j => do
    let p ← pantryAddr (vmLaneAddr a b o j) 4 { a with taint := a.taint ||| b.taint, dm := a.dm || b.dm }
    return (j, p))

/-- vgath (R322). -/
def vgathOp (o : VM) : M Unit := do
  let g ← readGuard o.v o.m
  let a ← readV o.v o.a
  let b ← readV o.v o.b
  let ps ← laneAddrs o g a b
  let vs ← ps.mapM (fun p => do return (p.1, ofBytes (← readOwn p.2 4)))
  writeLanes o.v o.d g 32 ((List.range 64).map (fun j => match vs.find? (fun p => p.1 == j) with | some p => p.2 | none => 0)) [a, b] 12

/-- vscat: the active lanes in ascending order (R322). -/
def vscatOp (o : VM) : M Unit := do
  let g ← readGuard o.v o.m
  let a ← readV o.v o.a
  let b ← readV o.v o.b
  let d ← readV o.v o.d
  let ps ← laneAddrs o g a b
  ps.forM (fun p => writeOwn p.2 (toBytes 4 (nth 0 (d.lanes 32) p.1)))

/-- Vldp (R319). -/
def execVldp (o : VM) (s : State) : Host.Outcome State Fault Refusal := finish (vldpOp o) s

/-- VldpDec (R320). -/
def execVldpDec (o : VM) (s : State) : Host.Outcome State Fault Refusal := finish (vldpDecOp o) s

/-- Vstp (R319). -/
def execVstp (o : VM) (s : State) : Host.Outcome State Fault Refusal := finish (vstpOp o) s

/-- Vld (R321). -/
def execVld (o : VM) (s : State) : Host.Outcome State Fault Refusal := finish (vldOp o) s

/-- Vst (R321). -/
def execVst (o : VM) (s : State) : Host.Outcome State Fault Refusal := finish (vstOp o) s

/-- Vgath (R322). -/
def execVgath (o : VM) (s : State) : Host.Outcome State Fault Refusal := finish (vgathOp o) s

/-- Vscat (R322). -/
def execVscat (o : VM) (s : State) : Host.Outcome State Fault Refusal := finish (vscatOp o) s

end Sys2Proof.Machine
end

