-- ==== Sys2Proof/Machine/Dispatch.lean ====
section
/-!
DEFINITION. The one dispatcher: an arm for every row of spec/opcode_table.json.
-/
namespace Sys2Proof.Machine

/-- The meaning of an instruction. -/
def exec (i : Instr) (s : State) : Host.Outcome State Fault Refusal :=
  match i with
  | .deviceReset => Sys2Proof.Machine.execDeviceReset s
  | .functionLevelReset fn => Sys2Proof.Machine.execFunctionLevelReset fn s
  | .jobgoStart fn token => Sys2Proof.Machine.execJobgoStart fn token s
  | .jobgoCancel fn => Sys2Proof.Machine.execJobgoCancel fn s
  | .jobgoSuspend fn => Sys2Proof.Machine.execJobgoSuspend fn s
  | .jobgoResume fn => Sys2Proof.Machine.execJobgoResume fn s
  | .jobgoRefused fn => Sys2Proof.Machine.execJobgoRefused fn s
  | .registerWrite fn off size val => Sys2Proof.Machine.execRegisterWrite fn off size val s
  | .msixUnmask fn vec => Sys2Proof.Machine.execMsixUnmask fn vec s
  | .bar2Write fn off data => Sys2Proof.Machine.execBar2Write fn off data s
  | .bar2Read fn off n => Sys2Proof.Machine.execBar2Read fn off n s
  | .quote fn inlen => Sys2Proof.Machine.execQuote fn inlen s
  | .assign fn inlen => Sys2Proof.Machine.execAssign fn inlen s
  | .ckptauth fn inlen => Sys2Proof.Machine.execCkptauth fn inlen s
  | .devnum fn inlen => Sys2Proof.Machine.execDevnum fn inlen s
  | .gform fn inlen => Sys2Proof.Machine.execGform fn inlen s
  | .gdissolve fn inlen => Sys2Proof.Machine.execGdissolve fn inlen s
  | .ckptsend fn inlen => Sys2Proof.Machine.execCkptsend fn inlen s
  | .tune inlen => Sys2Proof.Machine.execTune inlen s
  | .clkcap inlen => Sys2Proof.Machine.execClkcap inlen s
  | .log inlen => Sys2Proof.Machine.execLog inlen s
  | .unknownCommand fn service cmd => Sys2Proof.Machine.execUnknownCommand fn service cmd s
  | .mailboxComplete fn service => Sys2Proof.Machine.execMailboxComplete fn service s
  | .jobValidation fn => Sys2Proof.Machine.execJobValidation fn s
  | .thermalStep die milliDeg => Sys2Proof.Machine.execThermalStep die milliDeg s
  | .thermalTrip die => Sys2Proof.Machine.execThermalTrip die s
  | .machineCheck fn => Sys2Proof.Machine.execMachineCheck fn s
  | .tuningPassComplete res rung => Sys2Proof.Machine.execTuningPassComplete res rung s
  | .gangHold launch gang pos => Sys2Proof.Machine.execGangHold launch gang pos s
  | .commit launch gang => Sys2Proof.Machine.execCommit launch gang s
  | .holdRefused launch gang => Sys2Proof.Machine.execHoldRefused launch gang s
  | .backoffElapsed launch gang => Sys2Proof.Machine.execBackoffElapsed launch gang s
  | .freeCoreReport die => Sys2Proof.Machine.execFreeCoreReport die s
  | .divert => Sys2Proof.Machine.execDivert s
  | .fullSave => Sys2Proof.Machine.execFullSave s
  | .pbudgetExpiry => Sys2Proof.Machine.execPbudgetExpiry s
  | .taskResume task core => Sys2Proof.Machine.execTaskResume task core s
  | .eventHandlerEntry => Sys2Proof.Machine.execEventHandlerEntry s
  | .deferredPreciseFault => Sys2Proof.Machine.execDeferredPreciseFault s
  | .emulationTrap => Sys2Proof.Machine.execEmulationTrap s
  | .steeredComplete id => Sys2Proof.Machine.execSteeredComplete id s
  | .loadReturn id => Sys2Proof.Machine.execLoadReturn id s
  | .specialFunctionResult id => Sys2Proof.Machine.execSpecialFunctionResult id s
  | .storePerformed id => Sys2Proof.Machine.execStorePerformed id s
  | .pcarveDrainEnd => Sys2Proof.Machine.execPcarveDrainEnd s
  | .queueEntryStart q => Sys2Proof.Machine.execQueueEntryStart q s
  | .queueEntryComplete q num => Sys2Proof.Machine.execQueueEntryComplete q num s
  | .decompBlock => Sys2Proof.Machine.execDecompBlock s
  | .put p => Sys2Proof.Machine.execPut p s
  | .putsig p => Sys2Proof.Machine.execPutsig p s
  | .get p => Sys2Proof.Machine.execGet p s
  | .getresp p => Sys2Proof.Machine.execGetresp p s
  | .putmc p => Sys2Proof.Machine.execPutmc p s
  | .ack p => Sys2Proof.Machine.execAck p s
  | .nack p => Sys2Proof.Machine.execNack p s
  | .red p => Sys2Proof.Machine.execRed p s
  | .fetchAndOp p => Sys2Proof.Machine.execFetchAndOp p s
  | .compareAndSwap p => Sys2Proof.Machine.execCompareAndSwap p s
  | .listEnqueue p => Sys2Proof.Machine.execListEnqueue p s
  | .listDequeue p => Sys2Proof.Machine.execListDequeue p s
  | .pointerChase p => Sys2Proof.Machine.execPointerChase p s
  | .exactReduce p => Sys2Proof.Machine.execExactReduce p s
  | .signalAdd p => Sys2Proof.Machine.execSignalAdd p s
  | .boundedCopy p => Sys2Proof.Machine.execBoundedCopy p s
  | .celresp p => Sys2Proof.Machine.execCelresp p s
  | .ckpt p => Sys2Proof.Machine.execCkpt p s
  | .e2eTimeout conn seq => Sys2Proof.Machine.execE2eTimeout conn seq s
  | .responseTimeout conn seq => Sys2Proof.Machine.execResponseTimeout conn seq s
  | .linkCrcError port failed retrained => Sys2Proof.Machine.execLinkCrcError port failed retrained s
  | .reductionTimeout idx => Sys2Proof.Machine.execReductionTimeout idx s
  | .gwaveStart session => Sys2Proof.Machine.execGwaveStart session s
  | .gxfer p => Sys2Proof.Machine.execGxfer p s
  | .gbreq p => Sys2Proof.Machine.execGbreq p s
  | .gwave p => Sys2Proof.Machine.execGwave p s
  | .gwrep p => Sys2Proof.Machine.execGwrep p s
  | .gterm p => Sys2Proof.Machine.execGterm p s
  | .gcancel p => Sys2Proof.Machine.execGcancel p s
  | .granaryRefill session => Sys2Proof.Machine.execGranaryRefill session s
  | .nop => Sys2Proof.Machine.execNop s
  | .add o => Sys2Proof.Machine.execAdd o s
  | .sub o => Sys2Proof.Machine.execSub o s
  | .mul o => Sys2Proof.Machine.execMul o s
  | .mulh o => Sys2Proof.Machine.execMulh o s
  | .mulhu o => Sys2Proof.Machine.execMulhu o s
  | .div o => Sys2Proof.Machine.execDiv o s
  | .divu o => Sys2Proof.Machine.execDivu o s
  | .rem o => Sys2Proof.Machine.execRem o s
  | .remu o => Sys2Proof.Machine.execRemu o s
  | .and o => Sys2Proof.Machine.execAnd o s
  | .or o => Sys2Proof.Machine.execOr o s
  | .xor o => Sys2Proof.Machine.execXor o s
  | .andn o => Sys2Proof.Machine.execAndn o s
  | .shl o => Sys2Proof.Machine.execShl o s
  | .shr o => Sys2Proof.Machine.execShr o s
  | .sra o => Sys2Proof.Machine.execSra o s
  | .rotl o => Sys2Proof.Machine.execRotl o s
  | .min o => Sys2Proof.Machine.execMin o s
  | .max o => Sys2Proof.Machine.execMax o s
  | .minu o => Sys2Proof.Machine.execMinu o s
  | .maxu o => Sys2Proof.Machine.execMaxu o s
  | .clz o => Sys2Proof.Machine.execClz o s
  | .ctz o => Sys2Proof.Machine.execCtz o s
  | .popc o => Sys2Proof.Machine.execPopc o s
  | .sext o => Sys2Proof.Machine.execSext o s
  | .zext o => Sys2Proof.Machine.execZext o s
  | .lea o => Sys2Proof.Machine.execLea o s
  | .sel o => Sys2Proof.Machine.execSel o s
  | .bfx o => Sys2Proof.Machine.execBfx o s
  | .bfi o => Sys2Proof.Machine.execBfi o s
  | .addi o => Sys2Proof.Machine.execAddi o s
  | .andi o => Sys2Proof.Machine.execAndi o s
  | .ori o => Sys2Proof.Machine.execOri o s
  | .xori o => Sys2Proof.Machine.execXori o s
  | .shli o => Sys2Proof.Machine.execShli o s
  | .shri o => Sys2Proof.Machine.execShri o s
  | .srai o => Sys2Proof.Machine.execSrai o s
  | .movi o => Sys2Proof.Machine.execMovi o s
  | .cmpEq o => Sys2Proof.Machine.execCmpEq o s
  | .cmpNe o => Sys2Proof.Machine.execCmpNe o s
  | .cmpLt o => Sys2Proof.Machine.execCmpLt o s
  | .cmpLtu o => Sys2Proof.Machine.execCmpLtu o s
  | .cmpGe o => Sys2Proof.Machine.execCmpGe o s
  | .cmpGeu o => Sys2Proof.Machine.execCmpGeu o s
  | .cmpiEq o => Sys2Proof.Machine.execCmpiEq o s
  | .cmpiNe o => Sys2Proof.Machine.execCmpiNe o s
  | .cmpiLt o => Sys2Proof.Machine.execCmpiLt o s
  | .cmpiLtu o => Sys2Proof.Machine.execCmpiLtu o s
  | .cmpiGe o => Sys2Proof.Machine.execCmpiGe o s
  | .cmpiGeu o => Sys2Proof.Machine.execCmpiGeu o s
  | .pand o => Sys2Proof.Machine.execPand o s
  | .por o => Sys2Proof.Machine.execPor o s
  | .pxor o => Sys2Proof.Machine.execPxor o s
  | .pnot o => Sys2Proof.Machine.execPnot o s
  | .br o => Sys2Proof.Machine.execBr o s
  | .brk o => Sys2Proof.Machine.execBrk o s
  | .jmp o => Sys2Proof.Machine.execJmp o s
  | .call o => Sys2Proof.Machine.execCall o s
  | .callr o => Sys2Proof.Machine.execCallr o s
  | .ret => Sys2Proof.Machine.execRet s
  | .lnest o => Sys2Proof.Machine.execLnest o s
  | .lexit => Sys2Proof.Machine.execLexit s
  | .acq o => Sys2Proof.Machine.execAcq o s
  | .acqF o => Sys2Proof.Machine.execAcqF o s
  | .rel => Sys2Proof.Machine.execRel s
  | .ldB o => Sys2Proof.Machine.execLdB o s
  | .ldBU o => Sys2Proof.Machine.execLdBU o s
  | .ldH o => Sys2Proof.Machine.execLdH o s
  | .ldHU o => Sys2Proof.Machine.execLdHU o s
  | .ldW o => Sys2Proof.Machine.execLdW o s
  | .ldWU o => Sys2Proof.Machine.execLdWU o s
  | .ldD o => Sys2Proof.Machine.execLdD o s
  | .stB o => Sys2Proof.Machine.execStB o s
  | .stH o => Sys2Proof.Machine.execStH o s
  | .stW o => Sys2Proof.Machine.execStW o s
  | .stD o => Sys2Proof.Machine.execStD o s
  | .ldaW o => Sys2Proof.Machine.execLdaW o s
  | .ldaD o => Sys2Proof.Machine.execLdaD o s
  | .stlW o => Sys2Proof.Machine.execStlW o s
  | .stlD o => Sys2Proof.Machine.execStlD o s
  | .ldpB o => Sys2Proof.Machine.execLdpB o s
  | .ldpBU o => Sys2Proof.Machine.execLdpBU o s
  | .ldpH o => Sys2Proof.Machine.execLdpH o s
  | .ldpHU o => Sys2Proof.Machine.execLdpHU o s
  | .ldpW o => Sys2Proof.Machine.execLdpW o s
  | .ldpWU o => Sys2Proof.Machine.execLdpWU o s
  | .ldpD o => Sys2Proof.Machine.execLdpD o s
  | .stpB o => Sys2Proof.Machine.execStpB o s
  | .stpH o => Sys2Proof.Machine.execStpH o s
  | .stpW o => Sys2Proof.Machine.execStpW o s
  | .stpD o => Sys2Proof.Machine.execStpD o s
  | .amoAdd o => Sys2Proof.Machine.execAmoAdd o s
  | .amoAnd o => Sys2Proof.Machine.execAmoAnd o s
  | .amoOr o => Sys2Proof.Machine.execAmoOr o s
  | .amoXor o => Sys2Proof.Machine.execAmoXor o s
  | .amoMin o => Sys2Proof.Machine.execAmoMin o s
  | .amoMax o => Sys2Proof.Machine.execAmoMax o s
  | .amoMinu o => Sys2Proof.Machine.execAmoMinu o s
  | .amoMaxu o => Sys2Proof.Machine.execAmoMaxu o s
  | .amoSwap o => Sys2Proof.Machine.execAmoSwap o s
  | .cas o => Sys2Proof.Machine.execCas o s
  | .cas2 o => Sys2Proof.Machine.execCas2 o s
  | .redx o => Sys2Proof.Machine.execRedx o s
  | .uadd o => Sys2Proof.Machine.execUadd o s
  | .umin o => Sys2Proof.Machine.execUmin o s
  | .umax o => Sys2Proof.Machine.execUmax o s
  | .uand o => Sys2Proof.Machine.execUand o s
  | .uor o => Sys2Proof.Machine.execUor o s
  | .uxor o => Sys2Proof.Machine.execUxor o s
  | .uminF o => Sys2Proof.Machine.execUminF o s
  | .umaxF o => Sys2Proof.Machine.execUmaxF o s
  | .fence o => Sys2Proof.Machine.execFence o s
  | .tclr o => Sys2Proof.Machine.execTclr o s
  | .tsync o => Sys2Proof.Machine.execTsync o s
  | .tquery o => Sys2Proof.Machine.execTquery o s
  | .wfe => Sys2Proof.Machine.execWfe s
  | .sev o => Sys2Proof.Machine.execSev o s
  | .watch o => Sys2Proof.Machine.execWatch o s
  | .trap o => Sys2Proof.Machine.execTrap o s
  | .retu => Sys2Proof.Machine.execRetu s
  | .cread o => Sys2Proof.Machine.execCread o s
  | .cwrite o => Sys2Proof.Machine.execCwrite o s
  | .mapreq o => Sys2Proof.Machine.execMapreq o s
  | .pgrant o => Sys2Proof.Machine.execPgrant o s
  | .watchRegister o => Sys2Proof.Machine.execWatchRegister o s
  | .evlatchWrite o => Sys2Proof.Machine.execEvlatchWrite o s
  | .trapbaseWrite o => Sys2Proof.Machine.execTrapbaseWrite o s
  | .lnctlWrite o => Sys2Proof.Machine.execLnctlWrite o s
  | .capr o => Sys2Proof.Machine.execCapr o s
  | .wpush o => Sys2Proof.Machine.execWpush o s
  | .wpushF o => Sys2Proof.Machine.execWpushF o s
  | .wpop o => Sys2Proof.Machine.execWpop o s
  | .wpopW o => Sys2Proof.Machine.execWpopW o s
  | .wdone => Sys2Proof.Machine.execWdone s
  | .wdoneY o => Sys2Proof.Machine.execWdoneY o s
  | .whold o => Sys2Proof.Machine.execWhold o s
  | .wfloor o => Sys2Proof.Machine.execWfloor o s
  | .wjoin o => Sys2Proof.Machine.execWjoin o s
  | .wleave => Sys2Proof.Machine.execWleave s
  | .launch o => Sys2Proof.Machine.execLaunch o s
  | .phase o => Sys2Proof.Machine.execPhase o s
  | .cancelL o => Sys2Proof.Machine.execCancelL o s
  | .cancelG o => Sys2Proof.Machine.execCancelG o s
  | .cancelP o => Sys2Proof.Machine.execCancelP o s
  | .cancelJ o => Sys2Proof.Machine.execCancelJ o s
  | .cwait o => Sys2Proof.Machine.execCwait o s
  | .gbar => Sys2Proof.Machine.execGbar s
  | .tend => Sys2Proof.Machine.execTend s
  | .pdone => Sys2Proof.Machine.execPdone s
  | .ldisc o => Sys2Proof.Machine.execLdisc o s
  | .tlbinv o => Sys2Proof.Machine.execTlbinv o s
  | .vadd o => Sys2Proof.Machine.execVadd o s
  | .vsub o => Sys2Proof.Machine.execVsub o s
  | .vmul o => Sys2Proof.Machine.execVmul o s
  | .vmulh o => Sys2Proof.Machine.execVmulh o s
  | .vmad o => Sys2Proof.Machine.execVmad o s
  | .vmin o => Sys2Proof.Machine.execVmin o s
  | .vmax o => Sys2Proof.Machine.execVmax o s
  | .vabs o => Sys2Proof.Machine.execVabs o s
  | .vneg o => Sys2Proof.Machine.execVneg o s
  | .vand o => Sys2Proof.Machine.execVand o s
  | .vor o => Sys2Proof.Machine.execVor o s
  | .vxor o => Sys2Proof.Machine.execVxor o s
  | .vshl o => Sys2Proof.Machine.execVshl o s
  | .vshr o => Sys2Proof.Machine.execVshr o s
  | .vsra o => Sys2Proof.Machine.execVsra o s
  | .vadds o => Sys2Proof.Machine.execVadds o s
  | .vsubs o => Sys2Proof.Machine.execVsubs o s
  | .vqshr o => Sys2Proof.Machine.execVqshr o s
  | .vdot2 o => Sys2Proof.Machine.execVdot2 o s
  | .vpack o => Sys2Proof.Machine.execVpack o s
  | .vunpk o => Sys2Proof.Machine.execVunpk o s
  | .vsel o => Sys2Proof.Machine.execVsel o s
  | .vcmpEq o => Sys2Proof.Machine.execVcmpEq o s
  | .vcmpNe o => Sys2Proof.Machine.execVcmpNe o s
  | .vcmpLt o => Sys2Proof.Machine.execVcmpLt o s
  | .vcmpLtu o => Sys2Proof.Machine.execVcmpLtu o s
  | .vcmpGe o => Sys2Proof.Machine.execVcmpGe o s
  | .vcmpGeu o => Sys2Proof.Machine.execVcmpGeu o s
  | .vredAdd o => Sys2Proof.Machine.execVredAdd o s
  | .vredMin o => Sys2Proof.Machine.execVredMin o s
  | .vredMax o => Sys2Proof.Machine.execVredMax o s
  | .vnop o => Sys2Proof.Machine.execVnop o s
  | .fadd o => Sys2Proof.Machine.execFadd o s
  | .fsub o => Sys2Proof.Machine.execFsub o s
  | .fmul o => Sys2Proof.Machine.execFmul o s
  | .ffma o => Sys2Proof.Machine.execFfma o s
  | .fmin o => Sys2Proof.Machine.execFmin o s
  | .fmax o => Sys2Proof.Machine.execFmax o s
  | .fabs o => Sys2Proof.Machine.execFabs o s
  | .fneg o => Sys2Proof.Machine.execFneg o s
  | .fcmpEq o => Sys2Proof.Machine.execFcmpEq o s
  | .fcmpNe o => Sys2Proof.Machine.execFcmpNe o s
  | .fcmpLt o => Sys2Proof.Machine.execFcmpLt o s
  | .fcmpLe o => Sys2Proof.Machine.execFcmpLe o s
  | .fcmpUn o => Sys2Proof.Machine.execFcmpUn o s
  | .fcvt o => Sys2Proof.Machine.execFcvt o s
  | .fdiv o => Sys2Proof.Machine.execFdiv o s
  | .fred o => Sys2Proof.Machine.execFred o s
  | .fexp o => Sys2Proof.Machine.execFexp o s
  | .fexp2 o => Sys2Proof.Machine.execFexp2 o s
  | .flog o => Sys2Proof.Machine.execFlog o s
  | .flog2 o => Sys2Proof.Machine.execFlog2 o s
  | .fsin o => Sys2Proof.Machine.execFsin o s
  | .fcos o => Sys2Proof.Machine.execFcos o s
  | .ftanh o => Sys2Proof.Machine.execFtanh o s
  | .fsigm o => Sys2Proof.Machine.execFsigm o s
  | .ferf o => Sys2Proof.Machine.execFerf o s
  | .frcp o => Sys2Proof.Machine.execFrcp o s
  | .frsq o => Sys2Proof.Machine.execFrsq o s
  | .fsqrt o => Sys2Proof.Machine.execFsqrt o s
  | .xsadd o => Sys2Proof.Machine.execXsadd o s
  | .xsfold o => Sys2Proof.Machine.execXsfold o s
  | .xsround o => Sys2Proof.Machine.execXsround o s
  | .xpmul o => Sys2Proof.Machine.execXpmul o s
  | .xpadd o => Sys2Proof.Machine.execXpadd o s
  | .xpround o => Sys2Proof.Machine.execXpround o s
  | .vmxq o => Sys2Proof.Machine.execVmxq o s
  | .vmxd o => Sys2Proof.Machine.execVmxd o s
  | .vshuf o => Sys2Proof.Machine.execVshuf o s
  | .vpld o => Sys2Proof.Machine.execVpld o s
  | .vpsw o => Sys2Proof.Machine.execVpsw o s
  | .vbcst o => Sys2Proof.Machine.execVbcst o s
  | .mand o => Sys2Proof.Machine.execMand o s
  | .mor o => Sys2Proof.Machine.execMor o s
  | .mnot o => Sys2Proof.Machine.execMnot o s
  | .mpop o => Sys2Proof.Machine.execMpop o s
  | .vldp o => Sys2Proof.Machine.execVldp o s
  | .vldpDec o => Sys2Proof.Machine.execVldpDec o s
  | .vstp o => Sys2Proof.Machine.execVstp o s
  | .vld o => Sys2Proof.Machine.execVld o s
  | .vst o => Sys2Proof.Machine.execVst o s
  | .vgath o => Sys2Proof.Machine.execVgath o s
  | .vscat o => Sys2Proof.Machine.execVscat o s
  | .mmaBf16 o => Sys2Proof.Machine.execMmaBf16 o s
  | .mmaF8 o => Sys2Proof.Machine.execMmaF8 o s
  | .mmaE2m1 o => Sys2Proof.Machine.execMmaE2m1 o s
  | .mmaI8 o => Sys2Proof.Machine.execMmaI8 o s
  | .mmaI6 o => Sys2Proof.Machine.execMmaI6 o s
  | .mmaI4 o => Sys2Proof.Machine.execMmaI4 o s
  | .mmasBf16 o => Sys2Proof.Machine.execMmasBf16 o s
  | .mmasF8 o => Sys2Proof.Machine.execMmasF8 o s
  | .mmasE2m1 o => Sys2Proof.Machine.execMmasE2m1 o s
  | .mmasI8 o => Sys2Proof.Machine.execMmasI8 o s
  | .mmasI4 o => Sys2Proof.Machine.execMmasI4 o s
  | .mzero o => Sys2Proof.Machine.execMzero o s
  | .mload o => Sys2Proof.Machine.execMload o s
  | .madd o => Sys2Proof.Machine.execMadd o s
  | .mcopy o => Sys2Proof.Machine.execMcopy o s
  | .mtrn o => Sys2Proof.Machine.execMtrn o s
  | .mrot o => Sys2Proof.Machine.execMrot o s
  | .mdrain o => Sys2Proof.Machine.execMdrain o s
  | .mdrainx o => Sys2Proof.Machine.execMdrainx o s
  | .gset o => Sys2Proof.Machine.execGset o s
  | .gget o => Sys2Proof.Machine.execGget o s
  | .mcap o => Sys2Proof.Machine.execMcap o s
  | .mwait => Sys2Proof.Machine.execMwait s
  | .xmovSv o => Sys2Proof.Machine.execXmovSv o s
  | .xmovVs o => Sys2Proof.Machine.execXmovVs o s
  | .xmovVw o => Sys2Proof.Machine.execXmovVw o s
  | .xmovWv o => Sys2Proof.Machine.execXmovWv o s
  | .xmovSc o => Sys2Proof.Machine.execXmovSc o s
  | .xmovCs o => Sys2Proof.Machine.execXmovCs o s
  | .xmovSd o => Sys2Proof.Machine.execXmovSd o s
  | .xmovDs o => Sys2Proof.Machine.execXmovDs o s
  | .xmovZv o => Sys2Proof.Machine.execXmovZv o s
  | .xmovVz o => Sys2Proof.Machine.execXmovVz o s
  | .xmovKv o => Sys2Proof.Machine.execXmovKv o s
  | .cadd o => Sys2Proof.Machine.execCadd o s
  | .cmovi o => Sys2Proof.Machine.execCmovi o s
  | .clea o => Sys2Proof.Machine.execClea o s
  | .tlook o => Sys2Proof.Machine.execTlook o s
  | .tins o => Sys2Proof.Machine.execTins o s
  | .tdel o => Sys2Proof.Machine.execTdel o s
  | .tscan o => Sys2Proof.Machine.execTscan o s
  | .bfmtRead o => Sys2Proof.Machine.execBfmtRead o s
  | .bfmtWrite o => Sys2Proof.Machine.execBfmtWrite o s
  | .pcarve o => Sys2Proof.Machine.execPcarve o s
  | .cnop o => Sys2Proof.Machine.execCnop o s
  | .qcopy o => Sys2Proof.Machine.execQcopy o s
  | .qgath o => Sys2Proof.Machine.execQgath o s
  | .qscat o => Sys2Proof.Machine.execQscat o s
  | .qdec o => Sys2Proof.Machine.execQdec o s
  | .qack o => Sys2Proof.Machine.execQack o s
  | .qcollContribute o => Sys2Proof.Machine.execQcollContribute o s
  | .qcollDestination o => Sys2Proof.Machine.execQcollDestination o s
  | .qput o => Sys2Proof.Machine.execQput o s
  | .qputs o => Sys2Proof.Machine.execQputs o s
  | .qputm o => Sys2Proof.Machine.execQputm o s
  | .qget o => Sys2Proof.Machine.execQget o s
  | .qcel o => Sys2Proof.Machine.execQcel o s
  | .qfence o => Sys2Proof.Machine.execQfence o s
  | .qwait o => Sys2Proof.Machine.execQwait o s
  | .qstat o => Sys2Proof.Machine.execQstat o s
  | .qirqRestart o => Sys2Proof.Machine.execQirqRestart o s
  | .qirqDiscard o => Sys2Proof.Machine.execQirqDiscard o s
  | .qirqMark o => Sys2Proof.Machine.execQirqMark o s
  | .btree t => Sys2Proof.Machine.execBtree t s
  | .unassignedOpcode w => Sys2Proof.Machine.execUnassignedOpcode w s
  | .bar2Resize fn log => Sys2Proof.Machine.execBar2Resize fn log s
  | .boundedResultWrite => Sys2Proof.Machine.execBoundedResultWrite s

end Sys2Proof.Machine
end

