-- ==== Sys2Proof/Machine/Issue.lean ====
section
/-!
DEFINITION. A bundle: its fetch, its composition, the faults of its decoding, the run of its ops in slot order, its commit and the loop nest
(R119, R123 to R125, R228, R239 to R250, R260); and a core's turn at a bundle boundary.
-/
namespace Sys2Proof.Machine

/-! Composition (R239 to R241) -/

/-- An op of a bundle with its extension. -/
structure BundleOp where
  pos : SlotPos
  syl : Syllable
  ext : Option Syllable
  deriving DecidableEq, Repr

/-- A bundle's parts; `bad` is the first syllable that breaks R240, with its rank among decode faults (R228). -/
structure Bundle where
  hdr : Option Syllable
  ops : List BundleOp
  tree : Option Syllable
  leaves : List Syllable
  bad : Option (Nat × Syllable)
  len : Nat
  deriving DecidableEq, Repr

/-- A bundle of no syllable. -/
def Bundle.empty : Bundle := { hdr := none, ops := [], tree := none, leaves := [], bad := none, len := 0 }

/-- The kind of a syllable (R239). -/
def kindOf (w : Syllable) : Nat := (field w 28 3).toNat
/-- The stop bit of a syllable (R239). -/
def isStop (w : Syllable) : Bool := w.getLsbD 31
/-- A header with L = 1 (R243). -/
def isLanding (w : Syllable) : Bool := kindOf w == 4 && w.getLsbD 27

/-- SLOT of a position (R225). -/
def slotNum (p : SlotPos) : Nat := match p with | .s => 0 | .v0 => 1 | .v1 => 2 | .m => 3 | .c0 => 4 | .c1 => 5
/-- The rank of an op's decode faults: after the header's 0 and the tree's 1 (R228). -/
def slotRank (p : SlotPos) : Nat := slotNum p + 2

/-- The rank of a bundle's last op so far; 1 before any. -/
def Bundle.last (b : Bundle) : Nat := match b.ops.getLast? with | some o => (slotRank o.pos) | none => 1

/-- The position of the next op of kind `k`, when R240 allows one. -/
def Bundle.place (b : Bundle) (k : Nat) : Option SlotPos :=
  if b.tree.isSome then none
  else match k with
    | 0 => if b.last < 2 then some .s else none
    | 1 => if b.last < 3 then some .v0 else if b.last = 3 then some .v1 else none
    | 2 => if b.last < 5 then some .m else none
    | _ => if b.last < 6 then some .c0 else if b.last = 6 then some .c1 else none

/-- The last position of a kind, where an op too many ranks. -/
def kindRank (k : Nat) : Nat := match k with | 0 => 2 | 1 => 4 | 2 => 5 | _ => 7

/-- The leaves of a tree syllable besides leaf 0: its tests (R246, R247). -/
def treeTests (w : Syllable) : Nat := (field w 24 2).toNat + 1

/-- Where a syllable that belongs to no part ranks. -/
def Bundle.here (b : Bundle) : Nat := if b.tree.isSome then 1 else max 2 b.last

/-- One syllable joins a bundle, or breaks it (R240, R241). -/
def Bundle.push (b : Bundle) (w : Syllable) : Bundle :=
  let b1 : Bundle := { b with len := b.len + 1 }
  match kindOf w with
  | 4 => if b.len = 0 then { b1 with hdr := some w } else { b1 with bad := some (0, w) }
  | 5 =>
    match b.tree with
    | some t => if b.leaves.length < treeTests t then { b1 with leaves := b.leaves ++ [w] } else { b1 with bad := some (1, w) }
    | none =>
      match b.ops.getLast? with
      | some o => if o.ext.isNone then { b1 with ops := b.ops.dropLast ++ [{ o with ext := some w }] } else { b1 with bad := some (b.here, w) }
      | none => { b1 with bad := some (b.here, w) }
  | 6 => if b.tree.isNone then { b1 with tree := some w } else { b1 with bad := some (1, w) }
  | 7 => { b1 with bad := some (b.here, w) }
  | k =>
    match b.place k with
    | some p => { b1 with ops := b.ops ++ [{ pos := p, syl := w, ext := none }] }
    | none => { b1 with bad := some (kindRank k, w) }

/-- A tree has all its leaves, or there is no tree. -/
def Bundle.whole (b : Bundle) : Bool := match b.tree with | none => true | some t => b.leaves.length == treeTests t

/-- Reads the syllables of a bundle up to its stop bit or its first offending one (R240, R241). -/
def Bundle.read (b : Bundle) : List Syllable → Bundle
  | [] => b
  | w :: r =>
    let c := b.push w
    if c.bad.isSome then c
    else if isStop w then (if c.whole then c else { c with bad := some (1, w) })
    else match r with
      | [] => { c with bad := some (c.here, w) }
      | _ => Bundle.read c r

/-! Fetch (R240, R242, R248) -/

/-- Fetches syllables from `va` on up to a stop bit, at most `n`; or the base of the page that fails (R240, R242). -/
def State.fetchFrom (s : State) (va : Nat) : Nat → Except Nat (List Syllable × State)
  | 0 => .ok ([], s)
  | n + 1 =>
    match s.fetchWord va with
    | .error a => .error a
    | .ok (w, s) =>
      if isStop w then .ok ([w], s)
      else match s.fetchFrom (va + 4) n with
        | .error a => .error a
        | .ok (ws, s) => .ok (w :: ws, s)

/-- Fetches the bundle at the pc: its syllables, or the fetch fault, FETCH_XLATE before BAD_TARGET (R228, R242, R248). -/
def State.fetchBundle (s : State) : Except FaultInfo (List Syllable × State) :=
  let c := s.core
  let badTarget (x : Transfer) : FaultInfo := { c.faultOf 0x03 with slot := 6, addr := x.source }
  let noPage (a : Nat) : FaultInfo := { c.faultOf 0x10 with slot := 6, addr := BitVec.ofNat 64 a }
  if c.pc.toNat % 4 ≠ 0 then
    match s.xlate c.id c.task.fn c.pc.toNat .fetch with
    | .error _ => .error (noPage (s.pageBase c.id c.task.fn c.pc.toNat))
    | .ok _ => .error (badTarget (c.xfer.getD { source := 0, indirect := false, checked := true }))
  else match s.fetchFrom c.pc.toNat 16 with
    | .error a => .error (noPage a)
    | .ok (ws, s) =>
      match c.xfer with
      | none => .ok (ws, s)
      | some x =>
        let first := ws.headD 0
        if !x.checked || (if x.indirect then isLanding first else kindOf first == 4) then .ok (ws, s) else .error (badTarget x)

/-! Header fields (R243 to R245) -/

/-- W of a bundle's header. -/
def Bundle.waits (b : Bundle) : Nat := match b.hdr with | some h => (field h 24 3).toNat | none => 0
/-- FL of a bundle's header. -/
def Bundle.first (b : Bundle) : Nat := match b.hdr with | some h => (field h 22 2).toNat | none => 0
/-- LVL of a bundle's header. -/
def Bundle.level (b : Bundle) : Nat := match b.hdr with | some h => (field h 19 3).toNat | none => 0
/-- The path tag of a slot. -/
def Bundle.tag (b : Bundle) (p : SlotPos) : Nat := match b.hdr with | some h => (field h (16 - 3 * (slotNum p)) 3).toNat | none => 0

/-- The six positions. -/
def allSlots : List SlotPos := [.s, .v0, .v1, .m, .c0, .c1]

/-- A path tag that R245 allows in a well-composed bundle. -/
def Bundle.tagOk (b : Bundle) (p : SlotPos) : Bool :=
  let t := b.tag p
  t == 0 || (b.ops.any (fun o => o.pos == p) && (match b.tree with | some w => decide (t - 1 ≤ treeTests w) | none => false))

/-- The header is legal here (R243 to R245). -/
def State.headerOk (s : State) (b : Bundle) : Bool :=
  match b.hdr with
  | none => true
  | some h =>
    !h.getLsbD 0 && b.first != 3 && allSlots.all (fun p => decide (b.tag p ≤ 5)) &&
    (if b.first = 0 then b.level == 0 else s.inNest && decide (b.level < s.core.nestLevels) && decide (b.level ≤ 5)) &&
    (b.bad.isSome || allSlots.all b.tagOk)

/-! Decode (R228, R247, R249, R250, R260) -/

/-- Extension bits of an extension syllable (R239). -/
def extBits (w : Syllable) : BitVec 28 := field w 0 28

/-- A decode fault with its rank and its order within that rank (R228). -/
structure Ranked where
  key : Nat
  info : FaultInfo
  deriving DecidableEq, Repr

/-- A decode fault of a syllable, with the encoding version that the task's kernel declares (R225, R228): `sub` is 0 ENCVER, 1 ILLEGAL_INSTR, 2 ILLEGAL_OPERAND, 3 PRIV. -/
def Core.decodeFault (c : Core) (ver rank sub slot : Nat) (w : Syllable) (e : Option Syllable) : Ranked :=
  { key := 4 * rank + sub,
    info := { c.faultOf (match sub with | 0 => 5 | 1 => 1 | 2 => 2 | _ => 4) with
      slot := slot, d0 := w.zeroExtend 64, d1 := (e.getD 0).zeroExtend 64, d2 := BitVec.ofNat 64 ver } }

/-- The version in force at the pc (R260). -/
def Core.encver (c : Core) : Nat :=
  if c.kern.addr ≤ c.pc.toNat ∧ c.pc.toNat < c.kern.addr + c.kern.len then c.kern.encver else 3

/-- The syllable of a br, brk, jmp, call, callr or ret, whatever its operands: a tree excludes it (R247). -/
def branchSyl (p : SlotPos) (w : Syllable) : Bool := p == .s && decide (0x40 ≤ (field w 20 8).toNat) && decide ((field w 20 8).toNat ≤ 0x45)

/-- Ops that need S level whatever their operands hold (R221, R229, R234). -/
def privOp (i : Instr) : Bool :=
  match i with
  | .phase _ | .cancelP _ | .cancelJ _ | .tlbinv _ | .mapreq _ | .pgrant _ => true
  | .cread o | .cwrite o => decide (0x100 ≤ o.n.toNat)
  | _ => false

/-- Registers `n` to `n + k - 1` of a file, as destinations. -/
def destRun (f : File) (n k : Nat) : List (Nat × Nat) := (List.range k).map (fun i => (f.num, n + i))

/-- The destinations of a vector register form (R114, R306, R308, R312, R313, R317). -/
def vrDests (i : Instr) (o : VR) : List (Nat × Nat) :=
  match i with
  | .vcmpEq _ | .vcmpNe _ | .vcmpLt _ | .vcmpLtu _ | .vcmpGe _ | .vcmpGeu _ | .fcmpEq _ | .fcmpNe _ | .fcmpLt _ | .fcmpLe _ | .fcmpUn _
  | .mand _ | .mor _ | .mnot _ => destRun (vMasks o.v) o.d.toNat 1
  | .xsadd _ | .xsfold _ => destRun (vFile o.v) o.d.toNat 2
  | .xpmul _ | .xpadd _ => destRun (vFile o.v) o.d.toNat 4
  | .vpld _ => []
  | _ => destRun (vFile o.v) o.d.toNat 1

/-- Tiles `z` to `z + k - 1`, as destinations (R114, R345). -/
def tileRun (z k : Nat) : List (Nat × Nat) := (List.range k).map (fun i => (14, z + i))

/-- The registers and tiles an op names as destinations (R114); 13 stands for the carve state, which one pcarve of a bundle may set (R375). -/
def destsOf (i : Instr) : List (Nat × Nat) :=
  match i.vr? with
  | some (o, _) => vrDests i o
  | none =>
    match i with
    | .add o | .sub o | .mul o | .mulh o | .mulhu o | .div o | .divu o | .rem o | .remu o | .and o | .or o | .xor o | .andn o | .shl o | .shr o
    | .sra o | .rotl o | .min o | .max o | .minu o | .maxu o => destRun .s o.d.toNat 1
    | .clz o | .ctz o | .popc o => destRun .s o.d.toNat 1
    | .sext o | .zext o => destRun .s o.d.toNat 1
    | .lea o => destRun .s o.d.toNat 1
    | .sel o => destRun .s o.d.toNat 1
    | .bfx o | .bfi o => destRun .s o.d.toNat 1
    | .addi o | .andi o | .ori o | .xori o | .shli o | .shri o | .srai o => destRun .s o.d.toNat 1
    | .movi o => destRun .s o.d.toNat 1
    | .cmpEq o | .cmpNe o | .cmpLt o | .cmpLtu o | .cmpGe o | .cmpGeu o => destRun .k o.k.toNat 1
    | .cmpiEq o | .cmpiNe o | .cmpiLt o | .cmpiLtu o | .cmpiGe o | .cmpiGeu o => destRun .k o.k.toNat 1
    | .pand o | .por o | .pxor o => destRun .k o.k.toNat 1
    | .pnot o => destRun .k o.k.toNat 1
    | .acqF o => destRun .k o.kp.toNat 1
    | .ldB o | .ldBU o | .ldH o | .ldHU o | .ldW o | .ldWU o | .ldD o => destRun .s o.r.toNat 1
    | .ldaW o | .ldaD o => destRun .s o.r.toNat 1
    | .ldpB o | .ldpBU o | .ldpH o | .ldpHU o | .ldpW o | .ldpWU o | .ldpD o => destRun .s o.r.toNat 1
    | .amoAdd o | .amoAnd o | .amoOr o | .amoXor o | .amoMin o | .amoMax o | .amoMinu o | .amoMaxu o | .amoSwap o | .cas o =>
      destRun .s o.d.toNat 1
    | .cas2 o => destRun .s o.d.toNat 2
    | .tquery o => destRun .s o.r.toNat 1
    | .cread o => destRun .s o.r.toNat 1
    | .capr o => destRun .s o.r.toNat 1
    | .wpush o | .wpushF o => destRun .s o.a.toNat 1
    | .wfloor o => destRun .s o.r.toNat 1
    | .wpop o | .wpopW o => destRun .s o.r.toNat 4 ++ destRun .s o.a.toNat 1 ++ destRun .k o.k.toNat 2
    | .vldp o | .vldpDec o | .vld o | .vgath o => destRun (vFile o.v) o.d.toNat 1
    | .mmaBf16 o | .mmaF8 o | .mmaE2m1 o | .mmaI8 o | .mmaI6 o | .mmaI4 o => tileRun o.z.toNat 1
    | .mmasBf16 o | .mmasF8 o | .mmasE2m1 o | .mmasI8 o | .mmasI4 o => tileRun o.z.toNat 1
    | .mzero o => tileRun o.z.toNat 1
    | .mload o => tileRun o.z.toNat 1
    | .madd o | .mcopy o | .mtrn o => tileRun o.z.toNat 1
    | .mrot o => tileRun o.z.toNat (rotTiles o.p)
    | .xmovVz o => tileRun o.z.toNat 1
    | .gset o => destRun .g o.g.toNat 1
    | .gget o => destRun (MD.file o) o.c.toNat 2
    | .mcap o => destRun .k o.k.toNat 6
    | .xmovSv o => destRun .v o.d.toNat 1
    | .xmovVs o => destRun .s o.d.toNat 1
    | .xmovVw o => destRun .w o.d.toNat 1
    | .xmovWv o => destRun .v o.d.toNat 1
    | .xmovSc o => destRun .c o.d.toNat 1
    | .xmovSd o => destRun .d o.d.toNat 1
    | .xmovCs o | .xmovDs o => destRun .s o.d.toNat 1
    | .xmovZv o => destRun .v o.r.toNat 1
    | .xmovKv o => destRun .v o.d.toNat 1
    | .cadd o => destRun (cFile o.v) o.d.toNat 1
    | .cmovi o => destRun (cFile o.v) o.d.toNat 1
    | .clea o => destRun (cFile o.v) o.d.toNat 1
    | .tlook o | .tscan o => destRun (cFile o.v) o.r.toNat 1
    | .bfmtRead o => destRun (cFile o.v) o.r.toNat 1
    | .qwait o | .qstat o => destRun (cFile o.v) o.r.toNat 1
    | .pcarve _ => [(13, 0)]
    | _ => []

/-- The destinations of an op in a state: a returning qcel names its first register (R114, R364). -/
def Core.destsAt (c : Core) (i : Instr) : List (Nat × Nat) :=
  match i with
  | .qcel o =>
    if celReturns (0x10 + bits (c.cell (c.phys (cFile o.v) (o.r.toNat + 1))).word.toNat 36 3) then destRun (cFile o.v) o.r.toNat 1 else []
  | i => destsOf i

/-- The ops of a bundle, decoded. -/
noncomputable def Bundle.decoded (b : Bundle) : List (BundleOp × Except DecodeFault Instr) :=
  b.ops.map (fun o => (o, decodeOp o.pos o.syl (o.ext.map extBits)))

/-- The ops that decode, in slot order. -/
noncomputable def Bundle.legal (b : Bundle) : List (BundleOp × Instr) :=
  b.decoded.filterMap (fun p => match p.2 with | .ok i => some (p.1, i) | .error _ => none)

/-- Ops that name a destination of an earlier op of the bundle (R114). -/
def clashes (c : Core) (seen : List (Nat × Nat)) : List (BundleOp × Instr) → List BundleOp
  | [] => []
  | p :: r => (if (c.destsAt p.2).any (fun d => seen.contains d) then [p.1] else []) ++ clashes c (seen ++ c.destsAt p.2) r

/-- The tree of a bundle, decoded. -/
noncomputable def Bundle.treeOp (b : Bundle) : Option (Except DecodeFault Instr) :=
  b.tree.map (fun t => decodeTree t (b.leaves.map extBits))

/-- The syllables that break the limits of an encoding version, in bundle order, with rank and slot (R260). -/
def Bundle.versionBreaks (b : Bundle) (ver : Nat) : List (Nat × Nat × Syllable × Option Syllable) :=
  (match b.hdr with
    | some h => if (b.waits ≠ 0 ∧ ver ≤ 2) ∨ (ver = 1 ∧ allSlots.any (fun p => b.tag p != 0)) then [(0, 0, h, none)] else []
    | none => []) ++
  (match b.ops.find? (fun o => o.pos == .c0), b.ops.find? (fun o => o.pos == .c1) with
    | some x, some y => if ver = 1 ∧ field x.syl 20 8 ≠ 0x1F then [(7, 5, y.syl, y.ext)] else []
    | _, _ => []) ++
  (match b.tree with
    | some t => if ver = 1 ∨ (ver = 2 ∧ 2 < treeTests t) then [(1, 0, t, b.leaves.head?)] else []
    | none => [])

/-- The leaf that the tree of a bundle takes (R247); none without a tree, and while one waits for a predicate. -/
noncomputable def State.leafTaken (s : State) (b : Bundle) : Option Nat :=
  match b.tree, b.treeOp with
  | some t, some (.ok i) =>
    (match exec i { s with core := { s.core with taken := none, defer := [], leaf := 0, cur := { slot := 0, syl := t, ext := 0 } } } with
      | .next u => if u.core.mark = .done then some u.core.leaf else none
      | _ => none)
  | _, _ => none

/-- An op whose path tag names a leaf that is not taken (R245). -/
noncomputable def State.annuls (s : State) (b : Bundle) (o : BundleOp) : Bool :=
  b.tag o.pos != 0 && s.leafTaken b != some (b.tag o.pos - 1)

/-- The decode faults of a bundle (R228, R241, R245 to R250, R260); an annulled op has none of its own (R245, log 31). -/
noncomputable def State.decodeFaults (s : State) (b : Bundle) : List Ranked :=
  let c := s.core
  let ver := c.encver
  let f := c.decodeFault c.kern.encver
  let structural := match b.bad with | some (r, w) => [f r 1 (r - 2) w none] | none => []
  let header := match b.hdr with | some h => if s.headerOk b then [] else [f 0 1 0 h none] | none => []
  let tree := match b.tree, b.treeOp with
    | some t, some (.error _) =>
      if !b.whole then []
      else (match b.leaves.find? (fun e => !zeroAt (extBits e) 24 4), decodeTree t (b.leaves.map (fun e => extBits e &&& 0xFFFFFF)) with
        | some e, .ok _ => [f 1 1 0 e none]
        | _, _ => [f 1 1 0 t b.leaves.head?])
    | _, _ => []
  let ops := (b.decoded.filter (fun p => !s.annuls b p.1)).flatMap (fun p => match p.2 with
    | .error .illegalInstr => [f (slotRank p.1.pos) 1 (slotNum p.1.pos) p.1.syl p.1.ext]
    | .error .illegalOperand => [f (slotRank p.1.pos) 2 (slotNum p.1.pos) p.1.syl p.1.ext]
    | .ok i =>
      if c.level = .u && privOp i then [f (slotRank p.1.pos) 3 (slotNum p.1.pos) p.1.syl p.1.ext] else [])
  let branches := if b.tree.isSome then (b.ops.filter (fun o => branchSyl o.pos o.syl)).map (fun o => f (slotRank o.pos) 1 (slotNum o.pos) o.syl o.ext)
    else []
  let twice := (clashes c [] b.legal).map (fun o => f (slotRank o.pos) 2 (slotNum o.pos) o.syl o.ext)
  let illegal := header ++ tree ++ ops ++ branches ++ twice ++ structural
  let breaks := (b.versionBreaks ver).filter (fun v => !(illegal.any (fun x => x.key == 4 * v.1 + 1 || x.key == 4 * v.1 + 2)))
  let versions := match breaks with
    | [] => []
    | v :: _ => [{ f (breaks.foldl (fun m x => min m x.1) v.1) 0 v.2.1 v.2.2.1 v.2.2.2 with
        key := 4 * breaks.foldl (fun m x => min m x.1) v.1 }]
  illegal ++ versions

/-- The decode fault that is delivered (R228). -/
def firstRanked (fs : List Ranked) : Option FaultInfo :=
  (fs.foldl (fun m f => match m with | none => some f | some g => if f.key < g.key then some f else some g) none).map (fun r => r.info)

/-! Rows that share a word (R366, R372; log 7) -/

/-- The operation that a shared word performs, by the register it names. -/
noncomputable def State.resolveOp (s : State) (i : Instr) : Instr :=
  let peek (f : File) (n : Nat) : Word := match (readReg f n).run s with | .ok (r, _) => r.word | .error _ => 0
  match i with
  | .qirqRestart o =>
    match (peek (cFile o.v) o.r.toNat).toNat with
    | 1 => .qirqDiscard o
    | 2 => .qirqMark o
    | _ => .qirqRestart o
  | .qcollContribute o => if (peek (cFile o.v) (o.r.toNat + 2)).getLsbD 34 then .qcollDestination o else .qcollContribute o
  | i => i

/-! The loop nest (R123, R124) -/

/-- A bundle with FL is executed now (R124). -/
def Core.flTaken (c : Core) (fl lvl : Nat) : Bool :=
  match fl with
  | 0 => true
  | 1 => (List.range (lvl + 1)).all (fun m => c.ctl (0x48 + m) == 0)
  | _ => (List.range (lvl + 1)).all (fun m => c.ctl (0x48 + m) == c.ctl (0x40 + m) - 1)

/-- One increment of a c-register at the end of a run: of its value, of each value that is on its way to it before a bound, or later when it is
pending (R120, R121, R123, R347). -/
def State.incrementC (s : State) (j : Nat) (inc : Word) : State :=
  if inc = 0 then s
  else
    let c := s.core
    let key := c.phys .c j
    if c.pending key then { s with core := { c with owed := c.owed ++ [(key, inc)] } }
    else if c.inFlight key then
      { s with core := { c with flights := c.flights.map (fun x =>
          if x.key = key then { x with cell := { x.cell with val := (x.cell.word + inc).zeroExtend 2048 } } else x) } }
    else
      let r := c.cell key
      { s with core := c.setCell key { r with val := (r.word + inc).zeroExtend 2048 } }

/-- The increments of pending registers that have returned. -/
def State.settleOwed (s : State) : State :=
  let c := s.core
  let due := c.owed.filter (fun p => !c.pending p.1)
  if due.isEmpty then s
  else
    { s with core := due.foldl (fun (c : Core) p =>
        let r := c.cell p.1
        c.setCell p.1 { r with val := (r.word + p.2).zeroExtend 2048 }) { c with owed := c.owed.filter (fun p => c.pending p.1) } }

/-- The end of a run over the levels that remain: the increments and the next indices; whether another run follows (R123). -/
def nestAdvance : List Nat → State → State × Bool
  | [], s => ({ s with core := s.core.endNest }, false)
  | l :: ls, s =>
    let s := (List.range 8).foldl (fun (s : State) j => s.incrementC j (s.core.ctl (0x80 + 8 * l + j))) s
    let i := s.core.ctl (0x48 + l)
    if i.ult (s.core.ctl (0x40 + l) - 1) then ({ s with core := s.core.setCtl (0x48 + l) (i + 1) }, true)
    else nestAdvance ls { s with core := s.core.setCtl (0x48 + l) 0 }

/-- What the nest does after a bundle of its body: a transfer out of the body ends it, and the end of the body ends the run (R123, R125). -/
def State.afterBody (s : State) (body : Nat × Nat) : State :=
  let c := s.core
  if !c.nestAct then s
  else if c.taken.isSome then
    (if body.1 ≤ c.npc.toNat ∧ c.npc.toNat < body.2 then s else { s with core := c.endNest })
  else if c.npc.toNat = body.2 then
    let r := nestAdvance (List.range c.nestLevels) s
    if r.2 then { r.1 with core := { r.1.core with npc := BitVec.ofNat 64 body.1 } } else r.1
  else s

/-! The run of a bundle (R119, R222) -/

/-- How far a bundle's ops have come. -/
structure Progress where
  st : State
  faults : List FaultInfo
  held : Option State
  deriving DecidableEq, Repr

/-- Runs one op on a bundle in progress; the state that a fault or a held op left is dropped. -/
noncomputable def runOp (p : Progress) (slot : Nat) (w : Syllable) (e : Option Syllable) (i : Instr) :
    Host.Outcome Progress Fault Refusal :=
  let s := p.st
  match exec i { s with core := { s.core with cur := { slot := slot, syl := w, ext := e.getD 0 } } } with
  | .fault f => .fault f
  | .refused r => .refused r
  | .next t =>
    match t.core.mark with
    | .done => .next { p with st := t }
    | .trapped f => .next { p with faults := p.faults ++ [f] }
    | .stalled => .next { p with held := some (p.held.getD t) }

/-- Runs ops in slot order, all but the annulled (R245). -/
noncomputable def runOps (leaf : Nat) (b : Bundle) : List (BundleOp × Instr) → Progress → Host.Outcome Progress Fault Refusal
  | [], p => .next p
  | (o, i) :: r, p =>
    if b.tag o.pos ≠ 0 ∧ b.tag o.pos ≠ leaf + 1 then runOps leaf b r p
    else match runOp p (slotNum o.pos) o.syl o.ext (p.st.resolveOp i) with
      | .next q => runOps leaf b r q
      | .fault f => .fault f
      | .refused x => .refused x

/-- The whole bundle is held for a cycle (R119). A gbar of it that has arrived does not arrive again, be it the op that waits or not (R293). -/
def State.hold (s : State) (t : State) : State :=
  let c := s.core
  ({ s with core := { c with asleep := t.core.asleep, firm := t.core.firm, arrivals := t.core.arrivals, gbars := t.core.gbars, mark := .stalled } } : State).tick 1

/-- The fault of a bundle's ops that is delivered: ATTIC_FAULT, then by slot (R228). -/
def firstFault (fs : List FaultInfo) : Option FaultInfo :=
  match fs.find? (fun f => f.code == 0x14) with | some f => some f | none => fs.head?

/-- The commit of a bundle: its effects, its cycle, the nest, the next pc, its W cycles and the cost of a transfer (R119, R123). Its context has gone on,
and holds no increment of an abandoned gbar any more (R293). -/
def State.commitBundle (s : State) (body : Option (Nat × Nat)) (waits : Nat) : State :=
  let here := s.core.context
  let s := s.applyEffects.tick 1
  let s : State := { s with core := { s.core with gbars := s.core.gbars.filter (fun g => g.1 != here) } }
  let s := match body with | some b => s.afterBody b | none => s
  let c := s.core
  let more := waits + (if c.taken.isSome then 2 else 0)
  ({ s with core := { c with pc := c.npc, xfer := c.taken, taken := none, mark := .done, asleep := false, firm := false } } : State).tick more

/-- Raises a fault of the bundle in issue and marks it. -/
def State.trapBundle (s : State) (f : FaultInfo) : State :=
  let t := s.raise f
  { t with core := { t.core with mark := .trapped f } }

/-- The body of the active nest when the core is in it. -/
def State.body? (s : State) : Option (Nat × Nat) := if s.inNest then some s.nestBody else none

/-- Ends the bundle in issue: held, faulted or committed. -/
def State.closeBundle (s : State) (p : Progress) (b : Bundle) (leafTo : Option (Word × Transfer)) : State :=
  match p.held, firstFault p.faults with
  | some t, _ => s.hold t
  | none, some f => s.trapBundle f
  | none, none =>
    let t := p.st
    let t := match leafTo with | some (a, x) => { t with core := { t.core with npc := a, taken := some x } } | none => t
    t.commitBundle s.body? b.waits

/-- Runs the tree, then the ops of a decoded bundle (R247). -/
noncomputable def State.runBundle (s : State) (b : Bundle) : Host.Outcome State Fault Refusal :=
  let next : Word := s.core.pc + BitVec.ofNat 64 (4 * b.len)
  let s1 : State := { s with core := { s.core with npc := next, taken := none, defer := [], leaf := 0 } }
  let start : Progress := { st := s1, faults := [], held := none }
  let tree : Host.Outcome Progress Fault Refusal :=
    match b.tree, b.treeOp with
    | some t, some (.ok i) => runOp start 0 t none i
    | _, _ => .next start
  match tree with
  | .fault f => .fault f
  | .refused r => .refused r
  | .next p =>
    let c := p.st.core
    let leafTo := c.taken.map (fun x => (c.npc, x))
    let p : Progress := { p with st := { p.st with core := { c with npc := next, taken := none } } }
    match runOps c.leaf b b.legal p with
    | .fault f => .fault f
    | .refused r => .refused r
    | .next q => .next (s.closeBundle q b leafTo)

/-- An annulled bundle: an empty cycle (R124, R244). -/
def State.skipBundle (s : State) (b : Bundle) : State :=
  let body := s.body?
  let s1 : State := { s with core := { s.core with npc := s.core.pc + BitVec.ofNat 64 (4 * b.len), taken := none, defer := [] } }
  s1.commitBundle body 0

/-- Issues the bundle at the pc: fetch, decode, then its run (R119, R222, R228). A bundle that FL annuls still takes the decode faults of its ops: R124 gives
it no effect, and R250 has these faults at decode, with no word on their order (DESIGN CHOICE, log 124). -/
noncomputable def State.issueBundle (s : State) : Host.Outcome State Fault Refusal :=
  match s.fetchBundle with
  | .error f => .next (s.trapBundle f)
  | .ok (ws, s) =>
    let b := Bundle.empty.read ws
    match firstRanked (s.decodeFaults b) with
    | some f => .next (s.trapBundle f)
    | none => if s.core.flTaken b.first b.level then s.runBundle b else .next (s.skipBundle b)

/-! A core's turn (R119, R132, R136, R228) -/

/-- A drain of pcarve is over (R91). -/
def Core.carveOver (c : Core) : Bool := match c.carve with | some d => decide (d.until_ ≤ c.cycle) | none => false

/-- Nothing keeps a full save waiting (R138). -/
def Core.saveReady (c : Core) : Bool :=
  c.order.acc.isEmpty && c.specials.isEmpty && c.steered.isEmpty && c.flights.isEmpty && c.tflights.isEmpty && c.pflights.isEmpty &&
  c.drains.isEmpty && decide (c.mFree ≤ c.cycle) &&
  c.queues.all (fun q => q.entries.isEmpty || q.stop.isSome)

/-- A request diverts fetch now (R136), in a restore routine as anywhere else outside a handler and a stub (log 116); a launch that waits for the
Distributor keeps it waiting (R297). -/
def Core.divertDue (c : Core) : Bool := c.preempt != 0 && !c.inHandler && !c.inStub && !c.savePend && !c.forced && !c.firm

/-- An event is entered before a sleeping wfe only where no latch lets that wfe complete first (R132, R134). -/
def Core.eventFirst (c : Core) : Bool := c.eventDue && !(c.asleep && c.ctl 0x26 == 1)

/-- A task that waits in a tend or pdone runs on for what is due at that boundary, and waits again afterwards (R222, R228). -/
def State.awaken (s : State) : State :=
  match s.core.run with
  | .ending | .leaving => { s with core := { s.core with run := .running, waitRun := some s.core.run } }
  | _ => s

/-- One turn of the running core in focus: results whose bounds have passed land, those included whose bounds passed while the core entered a handler
(R120); then what is due at the boundary, in the order of R228, otherwise the next bundle. -/
noncomputable def State.turn (s : State) : Host.Outcome State Fault Refusal :=
  let s := s.land.settleOwed.awaken
  let c := s.core
  if c.dueFault.isSome then exec .deferredPreciseFault s
  else if c.trapDue then exec .emulationTrap s
  else if c.divertDue then exec .divert s
  else if (c.savePend && !c.inHandler) || c.forced then (if c.saveReady then exec .fullSave s else .next (s.tick 1))
  else if c.eventFirst then exec .eventHandlerEntry s
  else if c.carveOver then exec .pcarveDrainEnd s
  else if c.inLibrary then .next s.runLibrary
  else match c.waitRun with
    | some r =>
      if c.inHandler then s.issueBundle
      else match c.stopped with
        | some (q, k) => .next (s.breakWait q k)
        | none => .next { s with core := { c with run := r, waitRun := none } }
    | none => s.issueBundle

end Sys2Proof.Machine
end

