-- ==== Sys2Proof/Machine/Schedule.lean ====
section
/-!
DEFINITION. What may happen next on the device: outside actions first, then one enabled action that a free schedule chooses (R82, R119, R165,
R171; log 1).
-/
namespace Sys2Proof.Machine

/-- An action that may happen next. -/
inductive Act where
  /-- A row's step, with a core in focus. -/
  | run (core : Nat) (i : Instr)
  /-- The turn of a running core. -/
  | turn (core : Nat)
  /-- A task whose tend is done, and whose accesses are performed, ends (R294). -/
  | taskEnd (core : Nat)
  /-- A drain stub whose pdone is done ends (R137). -/
  | stubEnd (core : Nat)
  /-- Waiting packets are performed (R30, R86). -/
  | deliver
  /-- A Larder line is written back (R157). -/
  | writeBack (line : Nat)
  /-- An L1 line is replaced (R154). -/
  | dropLine (core line : Nat)
  /-- An update-only line is merged by replacement (R156). -/
  | mergeLine (core line : Nat)
  /-- A component is loaded after reset, and measured (R66). -/
  | measure (k : Nat)
  /-- The Monitor takes an errata bundle (R65). -/
  | errata
  /-- A tuning pass starts on a core of a granted cluster (R234). -/
  | passStart (core : Nat)
  deriving DecidableEq, Repr

/-- The queue entries of a core that may start, go on or complete. -/
def State.queueActs (s : State) (c : Core) : List Act :=
  let f := s.focusOn c.id
  (List.finRange 4).flatMap (fun q =>
    (match c.startable q.val with
      | e :: _ =>
        if (q.val = 3 ∧ e.started ∧ 4096 ≤ f.inWindow (f.elemConn e e.elem)) ∨ f.mayStart q.val e = false then [] else [.run c.id (.queueEntryStart q)]
      | [] => []) ++
    ((c.queue q.val).entries.filter (fun e => f.completable q.val e)).map (fun e => .run c.id (.queueEntryComplete q e.num))) ++
  (match c.decoding with | some _ => [.run c.id .decompBlock] | none => [])

/-- A request to leave the core is outstanding and its budget may expire (R85): one not yet taken, or one whose stub or full save is under way; a
resumed stub answers none (R139). -/
def Core.budgeted (c : Core) : Bool := !c.forced && (c.preempt != 0 || c.savePend || (c.inStub && !c.resumedStub))

/-- What may happen next on a core. A drain of pcarve ends there without a turn where the core has none, at a task's end or between tasks (R91, log
121). A pdone that still waits has not reported, so an expired budget saves its task too (R85, R137, R138). -/
def State.coreActs (s : State) (c : Core) : List Act :=
  (if c.carve.isSome && c.run != .running then [.run c.id .pcarveDrainEnd] else []) ++
  if c.run = .idle then []
  else
    c.performable.map (fun a => if a.kind.returns then .run c.id (.loadReturn a.id) else .run c.id (.storePerformed a.id)) ++
    c.specials.map (fun x => .run c.id (.specialFunctionResult x.id)) ++
    c.steered.map (fun x => .run c.id (.steeredComplete x.id)) ++
    s.queueActs c ++
    c.l1.map (fun l => .dropLine c.id l.line) ++ c.upd.map (fun u => .mergeLine c.id u.line) ++
    (if c.budgeted then [.run c.id .pbudgetExpiry] else []) ++
    (match c.run with
      | .idle => []
      | .running => [.turn c.id]
      | .ending => if c.dueFault.isSome || c.trapDue then [.turn c.id] else if c.drained then [.taskEnd c.id] else []
      | .leaving => if c.dueFault.isSome || c.trapDue || c.forced then [.turn c.id] else if c.drained then [.stubEnd c.id] else [])

/-- The class mask and full banks that a suspended task's core must have (R139). -/
def State.resumeNeeds (s : State) (x : Suspended) : Nat × Nat :=
  match s.dist.launches.find? (fun l => l.id == x.core.task.launch) with
  | some l => (l.caps, l.pbanks)
  | none =>
    match readVirtual s x.core.id x.core.task.fn x.core.kern.addr 128 with
    | .ok (bs, _) => (match parseKernel bs with | some k => (k.caps, 0) | none => (0, 0))
    | .error _ => (0, 0)

/-- What the Distributor may do (R81, R82, R86, R139). A gang whose holds are all granted when its job is suspended stays in HOLD, and its cores stay held,
until the job runs again and its tasks have resumed: R86 names the gangs in WAIT and BACKOFF alone (DESIGN CHOICE, log 124). -/
def State.distActs (s : State) : List Act :=
  let n := s.core.id
  s.dist.suspended.flatMap (fun x =>
    let f := x.core.task.fn
    if (s.fnAt f).st = 2 then
      let need := s.resumeNeeds x
      ((List.range 256).filter (fun c => s.eligible f need.1 need.2 c && s.isFree c && s.mayResume x.core.task c)).map (fun c => .run n (.taskResume x.core.task.num c))
    else []) ++
  s.dist.gangs.flatMap (fun g =>
    match s.dist.launches.find? (fun l => l.id == g.launch) with
    | none => []
    | some l =>
      match g.st with
      | .wait =>
        if l.deps = [] ∧ s.admits l.fn = true ∧ s.gangTurn g = true then
          (positions (2 ^ l.ganglog) (fun c => s.eligible l.fn l.caps l.pbanks c && !s.granted l.fn c)).map (fun p =>
            .run n (.gangHold g.launch g.num p))
        else []
      | .hold _ =>
        if s.allHeld l g.num then (if s.admits l.fn then [.run n (.commit g.launch g.num)] else []) else [.run n (.holdRefused g.launch g.num)]
      | .backoff => if s.suspending l.fn then [] else [.run n (.backoffElapsed g.launch g.num)]
      | .run => [])

/-- The free-core mask of a die, as it would be reported (R81). -/
def State.freeMask (s : State) (die : Nat) : Nat :=
  ((List.range 64).filter (fun i => s.isFree (64 * die + i))).foldl (fun a i => a + 2 ^ i) 0

/-- A packet that waits may be performed, or a session has messages to take. -/
def State.mayDeliver (s : State) : Bool :=
  s.fabric.inbound.any (fun b => b.waiting.any (fun w => s.performable b w)) || s.sessions.any s.hasLate

/-- A slice of a session has spilled records to bring back, and room for them (R104, R105). -/
def State.mayRefill (s : State) (x : Session) : Bool :=
  (List.range 4).any (fun i => (x.dueBin i).isSome && (decide (s.onChip i < Config.sliceRecords) || (s.makeRoom x.uid i).isSome))

/-- What the Monitor and service firmware may do: load components, take errata, start passes on granted clusters (R65, R66, R234). -/
def State.firmwareActs (s : State) : List Act :=
  ((List.range 3).filter (fun k => !s.ladders.loaded.contains k)).map .measure ++
  (if s.ladders.bundles.isEmpty then [] else [.errata]) ++
  ((List.range 256).filter s.passWindow).map .passStart

/-- The lines that may be written back: those of the Larder that are not in REDUCE. -/
def State.writableLines (s : State) : List Nat :=
  (s.larder.map (fun p => p.1 / 128)).eraseDups.filter (fun l => !s.reduce.any (fun r => r.line == l))

/-- A slice that holds more lines than its 16 MiB: it must write some back before anything else happens (R10). A clean copy that a slice also holds
equals memory, and no access can tell it from memory (log 10). -/
def State.fullSlice (s : State) : Option Nat :=
  if s.larder.length ≤ Config.sliceLines then none
  else
    let homes := ((s.larder.map (fun p => p.1 / 128)).eraseDups).map (fun l => sliceOf (128 * l))
    (List.range 256).find? (fun i => decide (Config.sliceLines < homes.countP (fun h => h == i)))

/-- What may happen next beside the cores: validation, mailboxes, the Granary, the fabric's timers and packets, the Larder. -/
def State.deviceActs (s : State) : List Act :=
  let n := s.core.id
  (List.finRange 9).flatMap (fun f =>
    let x := s.fnAt f.val
    (if x.st = 1 then [.run n (.jobValidation f)] else []) ++
    (if x.monitor.busy && !(f == 0 && s.fabric.mover.isSome) then [.run n (.mailboxComplete f false)] else []) ++
    (if x.service.busy then [.run n (.mailboxComplete f true)] else [])) ++
  s.firmwareActs ++ s.distActs ++
  (List.finRange 4).flatMap (fun d =>
    if s.dist.reported.find? (fun p => p.1 == d.val) = some (d.val, s.freeMask d.val) then [] else [.run n (.freeCoreReport d)]) ++
  s.sessions.flatMap (fun x =>
    (if s.mayRefill x then [.run n (.granaryRefill x.uid)] else []) ++ (if s.mayWave x then [.run n (.gwaveStart x.uid)] else [])) ++
  (if s.mayDeliver then [.deliver] else []) ++
  s.fabric.unacked.map (fun u => .run n (.e2eTimeout u.conn u.pkt.seq)) ++
  s.fabric.kept.map (fun k => .run n (.responseTimeout { mcast := false, peer := k.src, lane := k.lane } (BitVec.ofNat 16 k.seq))) ++
  s.fabric.reds.zipIdx.map (fun p => .run n (.reductionTimeout p.2)) ++
  s.writableLines.map (fun l => .writeBack l)

/-- Everything that may happen next. -/
def State.acts (s : State) : List Act :=
  match s.fullSlice with
  | some i => (s.writableLines.filter (fun l => sliceOf (128 * l) == i)).map (fun l => .writeBack l)
  | none => s.deviceActs ++ s.cores.flatMap s.coreActs

/-- A task whose tend is done ends. -/
def State.finishTask (s : State) : State := s.endTask s.core.id

/-- Performs an action. -/
noncomputable def State.act (s : State) (a : Act) : Host.Outcome State Fault Refusal :=
  match a with
  | .run n i => exec i (s.focusOn n)
  | .turn n => (s.focusOn n).turn
  | .taskEnd n => .next (s.focusOn n).finishTask
  | .stubEnd n => .next (s.focusOn n).stubDone
  | .deliver => .next (State.drainInbound s.waitingCount s.takeLate)
  | .writeBack l => .next (s.writeBack l)
  | .dropLine n l => .next (s.modCore n (fun c => c.l1Drop l))
  | .mergeLine n l => .next (s.mergeOf n l)
  | .measure k => .next (s.measure k)
  | .errata => .next s.takeErrata
  | .passStart c => .next (s.grantedPass c)

/-- The action taken: the only one there is, otherwise a free choice (log 1). -/
def State.pick (s : State) : Option Act × State :=
  match s.acts with
  | [] => (none, s)
  | [a] => (some a, s)
  | a :: l => (some (nth a (a :: l) (Config.choice s.fresh % (l.length + 1))), { s with fresh := s.fresh + 1 })

/-- The actions that come from outside the device: the host, firmware's sensors and tests, and packets (R23, R55, R62, R63). -/
def fromOutside (i : Instr) : Bool :=
  match i with
  | .deviceReset | .functionLevelReset _ | .jobgoStart _ _ | .jobgoCancel _ | .jobgoSuspend _ | .jobgoResume _ | .jobgoRefused _
  | .registerWrite _ _ _ _ | .msixUnmask _ _ | .bar2Write _ _ _ | .bar2Read _ _ _ | .bar2Resize _ _ | .quote _ _ | .assign _ _
  | .ckptauth _ _ | .devnum _ _ | .gform _ _ | .gdissolve _ _ | .ckptsend _ _ | .tune _ | .clkcap _ | .log _ | .unknownCommand _ _ _
  | .thermalStep _ _ | .thermalTrip _ | .machineCheck _ | .tuningPassComplete _ _ | .put _ | .putsig _ | .get _ | .getresp _ | .putmc _
  | .ack _ | .nack _ | .red _ | .fetchAndOp _ | .compareAndSwap _ | .listEnqueue _ | .listDequeue _ | .pointerChase _ | .exactReduce _
  | .signalAdd _ | .boundedCopy _ | .celresp _ | .ckpt _ | .linkCrcError _ _ _ | .gxfer _ | .gbreq _ | .gwave _ | .gwrep _ | .gterm _
  | .gcancel _ => true
  | _ => false

/-- The device's next step: the oldest outside action, or an action of its own while it has power. -/
noncomputable def State.advance (s : State) : Host.Outcome State Fault Refusal :=
  match s.inputs with
  | i :: r => if fromOutside i then exec i { s with inputs := r } else .next { s with inputs := r }
  | [] =>
    if s.powered then
      match s.pick with
      | (none, s) => .next s
      | (some a, s) => s.act a
    else .next s

/-! One operation placed as the next to run (log 18) -/

/-- Where a placed operation stands: its virtual address, at physical address 0. -/
def placeVA : Nat := 0x100000

/-- The one mapping of a placed job. -/
def placeMap : Mapping := { va := placeVA, pa := 0, len := 2 ^ 16, page := 0, w := true, x := true, pin := false }

/-- A job that holds nothing but that mapping. -/
def placeJob : Job :=
  { imgva := placeVA, stat := 0x8000, inbox := 0x9000, token := 0, maps := [placeMap], phases := [{ attic := 0, carve := [] }], phase := 0, spill := 0,
    pbudget := 0, svec := 0, srec := 0, pgrant := 0, lctr := [], gctr := [], gphase := [], pctr := [], jctr := 1, lmarks := [], gmarks := [],
    rootTask := 1, cancelled := false, shadow := none }

/-- The core with nothing under way, at the start of the placed bundle as the root task of function 0. -/
def Core.placed (c : Core) : Core :=
  let c := ((c.setCtl 0x23 0).setCtl 0x36 0).setCtl 0x38 0
  let pc := BitVec.ofNat 64 placeVA
  { c with
    run := .running, kern := { addr := placeVA, len := 64, encver := 3, det := false }, pc := pc, npc := pc,
    task := { num := 1, fn := 0, root := true, launch := 0, gang := 0, rank := 0, lctr := 0, phase := 0, atticSize := 0, args := [] },
    xfer := none, taken := none, level := .s, handler := .main, sup := false, defer := [], mark := .done, specials := [], steered := [],
    order := { c.order with acc := [], holds := [] }, queues := List.replicate 4 Queue.reset, l1 := [], upd := [], tlb := [], carve := none,
    deferred := [], emul := none, serving := none, preempt := 0, savePend := false, forced := false, owed := [], asleep := false, waitRun := none,
    firm := false }

/-- The words of a bundle that holds one operation: a cnop first where it stands in C1, the stop bit on the last (R240, R255). -/
def placeBundle (w : Syllable) : List Syllable :=
  match defaultSlot w with
  | some .c1 => [opWord 3 0x1F 0, w ||| stopBit]
  | _ => [w ||| stopBit]

/-- Stores bytes behind the Larder. -/
def memPut (m : SMap Byte) (a : Nat) : List Byte → SMap Byte
  | [] => m
  | b :: r => memPut (SMap.set 0 m a b) (a + 1) r

/-- Places one operation where the only running core fetches next, with nothing else under way on the device. -/
def State.placeWord (s : State) (nbits w : Nat) : State :=
  let bytes := (placeBundle (BitVec.ofNat 32 (w % 2 ^ nbits))).flatMap (fun x => toBytes 4 x.toNat)
  let calm (f : Fn) : Fn :=
    { f with st := 0, job := none, monitor := { f.monitor with busy := false }, service := { f.service with busy := false } }
  let s : State := { s with
    core := s.core.placed, parked := [], mem := memPut s.mem 0 bytes, larder := [], reduce := [], sessions := [], l2 := [], inputs := [],
    powered := true, fns := s.fns.map calm,
    fabric := { s.fabric with groups := [], unacked := [], inbound := [], kept := [], reds := [], mover := none },
    dist := { s.dist with launches := [], gangs := [], busy := [s.core.id], held := [], suspended := [] },
    ladders := { s.ladders with chans := [], passes := [], bundles := [], loaded := [0, 1, 2] } }
  let s := s.modFn 0 (fun (f : Fn) => { f with st := 2, job := some placeJob })
  { s with dist := { s.dist with reported := (List.range 4).map (fun d => (d, s.freeMask d)) } }

end Sys2Proof.Machine
end

