-- ==== Sys2Proof/Machine/Step.lean ====
section
/-!
DEFINITION. The step of the device, and the placement of one operation as the next to run.
-/
namespace Sys2Proof.Machine

/-- One step of the device. -/
noncomputable def step (s : State) : Host.Outcome State Fault Refusal := s.advance

/-- The state with an operation of `nbits` bits stored as the next bundle that the only running core issues (log 18). -/
def State.withFetchWord (s : State) (nbits w : Nat) : State := s.placeWord nbits w

end Sys2Proof.Machine
end

