-- ==== Sys2Proof/Safety.lean ====
section
/-!
DEFINITION. What a safe run is, in the terms the statements use: the stores' canonical form, registers that can be read and written at once,
and what a completed operation leaves behind.
-/
namespace Sys2Proof.Machine

/-! Stores -/

/-- A memory in its canonical form: addresses strictly rising, no byte listed at the value an unlisted one reads as (log 2). -/
def Memory.wf (m : SMap Byte) : Bool := SMap.wf 0 m

/-- The sparse stores of the device that hold bytes are in canonical form. -/
def State.storesOk (s : State) : Prop := Memory.wf s.mem = true ∧ Memory.wf s.pantry = true ∧ SMap.wf none s.larder = true

/-- The step of a state ends in a next state: neither a fault nor a refusal. -/
def State.safe (s : State) : Prop := ∃ t, step s = .next t

/-! Registers -/

/-- A register by file and number. -/
abbrev Reg := File × Nat

/-- The register can be read at once: nothing is on its way to it (R120, R121). -/
def Core.ready (c : Core) (r : Reg) : Bool := !c.pending (c.phys r.1 r.2) && !c.inFlight (c.phys r.1 r.2)

/-- The register can be written at once: no interlocked result is on its way to it (R121). -/
def Core.free (c : Core) (r : Reg) : Bool := !c.pending (c.phys r.1 r.2)

/-- The register as it stands, in the mapping in force (R126). -/
def Core.reg (c : Core) (r : Reg) : RegCell := c.cell (c.phys r.1 r.2)

/-- The register's value, in the width of its file. -/
def Core.regVal (c : Core) (r : Reg) : Nat := (c.reg r).val.toNat % 2 ^ r.1.width

/-- A completed operation whose only effects are those the next bundle is the first to see (R119). -/
def State.leaves (s : State) (es : List Effect) : State :=
  { s with core := { s.core with mark := .done, defer := s.core.defer ++ es } }

/-- The effect that writes register `r` with a value derived from `srcs`, `lat` cycles on (R120, R174). -/
def Core.writes (c : Core) (r : Reg) (v : Nat) (srcs : List Reg) (lat : Nat) : Effect :=
  .reg (c.phys r.1 r.2) (result v (srcs.map c.reg)) lat

/-- The effect with which an interlocked result that is at hand lands in register `r` (R121, R174). -/
def Core.lands (c : Core) (r : Reg) (v : Nat) (srcs : List Reg) : Effect := .landed (c.phys r.1 r.2) (result v (srcs.map c.reg))

/-- An operation that reads registers and writes one: its sources, its destination, its latency and its value. -/
structure RegForm where
  srcs : List Reg
  dst : Reg
  lat : Nat
  val : List Nat → Nat

/-- The operands of a form can be read and its destination written at once. -/
def RegForm.ready (f : RegForm) (c : Core) : Bool := f.srcs.all c.ready && c.free f.dst

/-- The state after a form: its one result is on its way, and nothing else has changed. -/
def RegForm.leaves (f : RegForm) (s : State) : State :=
  s.leaves [s.core.writes f.dst (f.val (f.srcs.map s.core.regVal)) f.srcs f.lat]

/-! Scalar values (R271 to R273), over exact integers -/

/-- The signed value of a 64-bit number. -/
def signed (x : Nat) : Int := (BitVec.ofNat 64 x).toInt
/-- The 64-bit number of an integer, wrapped (R197). -/
def wrapped (x : Int) : Nat := (x % 2 ^ 64).toNat

/-- The three-register forms of R271. -/
def scalar3 (i : Instr) : Option (SR3 × Nat × (Nat → Nat → Nat)) :=
  match i with
  | .add o => some (o, 1, fun a b => (a + b) % 2 ^ 64)
  | .sub o => some (o, 1, fun a b => (a + (2 ^ 64 - b)) % 2 ^ 64)
  | .mul o => some (o, 3, fun a b => a * b % 2 ^ 64)
  | .mulh o => some (o, 3, fun a b => wrapped (signed a * signed b / 2 ^ 64))
  | .mulhu o => some (o, 3, fun a b => a * b / 2 ^ 64)
  | .div o => some (o, 18, fun a b => if b = 0 then 2 ^ 64 - 1 else wrapped ((signed a).tdiv (signed b)))
  | .divu o => some (o, 18, fun a b => if b = 0 then 2 ^ 64 - 1 else a / b)
  | .rem o => some (o, 18, fun a b => if b = 0 then a else wrapped ((signed a).tmod (signed b)))
  | .remu o => some (o, 18, fun a b => if b = 0 then a else a % b)
  | .and o => some (o, 1, fun a b => a &&& b)
  | .or o => some (o, 1, fun a b => a ||| b)
  | .xor o => some (o, 1, fun a b => a ^^^ b)
  | .andn o => some (o, 1, fun a b => a &&& (2 ^ 64 - 1 - b))
  | .shl o => some (o, 1, fun a b => a * 2 ^ (b % 64) % 2 ^ 64)
  | .shr o => some (o, 1, fun a b => a / 2 ^ (b % 64))
  | .sra o => some (o, 1, fun a b => wrapped (signed a / 2 ^ (b % 64)))
  | .rotl o => some (o, 1, fun a b => (a * 2 ^ (b % 64) + a / 2 ^ (64 - b % 64)) % 2 ^ 64)
  | .min o => some (o, 1, fun a b => wrapped (min (signed a) (signed b)))
  | .max o => some (o, 1, fun a b => wrapped (max (signed a) (signed b)))
  | .minu o => some (o, 1, fun a b => min a b)
  | .maxu o => some (o, 1, fun a b => max a b)
  | _ => none

/-- The immediate forms of R271. -/
def scalarI (i : Instr) : Option (SI × (Nat → Nat → Nat)) :=
  match i with
  | .addi o => some (o, fun a b => (a + b) % 2 ^ 64)
  | .andi o => some (o, fun a b => a &&& b)
  | .ori o => some (o, fun a b => a ||| b)
  | .xori o => some (o, fun a b => a ^^^ b)
  | .shli o => some (o, fun a b => a * 2 ^ b % 2 ^ 64)
  | .shri o => some (o, fun a b => a / 2 ^ b)
  | .srai o => some (o, fun a b => wrapped (signed a / 2 ^ b))
  | _ => none

/-- The value of an immediate joined to its extension, as a 64-bit number (R249). -/
def immVal {n : Nat} (x : BitVec n) (e : Option (BitVec 28)) : Nat :=
  match e with
  | none => wrapped x.toInt
  | some y => wrapped (y.toInt * 2 ^ n + x.toNat)

/-- The leading zeros of a 64-bit number: the places from the top that hold no 1. -/
def leadingZeros (a : Nat) : Nat := ((List.range 64).takeWhile (fun i => a < 2 ^ (63 - i))).length
/-- The trailing zeros of a 64-bit number. -/
def trailingZeros (a : Nat) : Nat := ((List.range 64).takeWhile (fun i => a % 2 ^ (i + 1) == 0)).length
/-- The ones of a 64-bit number. -/
def onesOf (a : Nat) : Nat := ((List.range 64).map (fun i => a / 2 ^ i % 2)).sum

/-- The forms of R271 that read registers and write one s-register. -/
def scalarForm (i : Instr) : Option RegForm :=
  match scalar3 i, scalarI i with
  | some (o, lat, f), _ =>
    some { srcs := [(.s, o.a.toNat), (.s, o.b.toNat)], dst := (.s, o.d.toNat), lat := lat, val := fun x => f (nth 0 x 0) (nth 0 x 1) }
  | none, some (o, f) =>
    some { srcs := [(.s, o.a.toNat)], dst := (.s, o.d.toNat), lat := 1, val := fun x => f (nth 0 x 0) (immVal o.i o.e) }
  | none, none =>
    match i with
    | .clz o => some { srcs := [(.s, o.a.toNat)], dst := (.s, o.d.toNat), lat := 1, val := fun x => leadingZeros (nth 0 x 0) }
    | .ctz o => some { srcs := [(.s, o.a.toNat)], dst := (.s, o.d.toNat), lat := 1, val := fun x => trailingZeros (nth 0 x 0) }
    | .popc o => some { srcs := [(.s, o.a.toNat)], dst := (.s, o.d.toNat), lat := 1, val := fun x => onesOf (nth 0 x 0) }
    | .sext o => some { srcs := [(.s, o.a.toNat)], dst := (.s, o.d.toNat), lat := 1,
                        val := fun x => wrapped (BitVec.ofNat (8 * 2 ^ o.x.toNat) (nth 0 x 0)).toInt }
    | .zext o => some { srcs := [(.s, o.a.toNat)], dst := (.s, o.d.toNat), lat := 1, val := fun x => nth 0 x 0 % 2 ^ (8 * 2 ^ o.x.toNat) }
    | .lea o =>
      some { srcs := [(.s, o.a.toNat), (.s, o.b.toNat)], dst := (.s, o.d.toNat), lat := 1,
             val := fun x => (nth 0 x 0 + nth 0 x 1 * 2 ^ o.x.toNat) % 2 ^ 64 }
    | .sel o =>
      some { srcs := [(.s, o.a.toNat), (.s, o.b.toNat), (.k, o.k.toNat)], dst := (.s, o.d.toNat), lat := 1,
             val := fun x => if nth 0 x 2 = 1 then nth 0 x 0 else nth 0 x 1 }
    | .bfx o => some { srcs := [(.s, o.a.toNat)], dst := (.s, o.d.toNat), lat := 1,
                       val := fun x => nth 0 x 0 / 2 ^ o.p.toNat % 2 ^ (o.w.toNat + 1) }
    | .bfi o =>
      some { srcs := [(.s, o.a.toNat), (.s, o.d.toNat)], dst := (.s, o.d.toNat), lat := 1,
             val := fun x =>
               nth 0 x 1 % 2 ^ o.p.toNat + nth 0 x 0 % 2 ^ (o.w.toNat + 1) * 2 ^ o.p.toNat +
               nth 0 x 1 / 2 ^ (o.p.toNat + o.w.toNat + 1) * 2 ^ (o.p.toNat + o.w.toNat + 1) }
    | .movi o => some { srcs := [], dst := (.s, o.d.toNat), lat := 1, val := fun _ => immVal o.i o.e }
    | _ => none

/-- The compares and predicate operations of R273: what each puts into its predicate. -/
def predicateForm (i : Instr) : Option RegForm :=
  let sk (o : SK) (f : Nat → Nat → Bool) : Option RegForm :=
    some { srcs := [(.s, o.a.toNat), (.s, o.b.toNat)], dst := (.k, o.k.toNat), lat := 1, val := fun x => (f (nth 0 x 0) (nth 0 x 1)).toNat }
  let sj (o : SJ) (f : Nat → Nat → Bool) : Option RegForm :=
    some { srcs := [(.s, o.a.toNat)], dst := (.k, o.k.toNat), lat := 1, val := fun x => (f (nth 0 x 0) (immVal o.i o.e)).toNat }
  let sp (o : SP) (f : Nat → Nat → Nat) : Option RegForm :=
    some { srcs := [(.k, o.ka.toNat), (.k, o.kb.toNat)], dst := (.k, o.k.toNat), lat := 1, val := fun x => f (nth 0 x 0) (nth 0 x 1) }
  match i with
  | .cmpEq o => sk o (fun a b => decide (a = b))
  | .cmpNe o => sk o (fun a b => decide (a ≠ b))
  | .cmpLt o => sk o (fun a b => decide (signed a < signed b))
  | .cmpLtu o => sk o (fun a b => decide (a < b))
  | .cmpGe o => sk o (fun a b => decide (signed b ≤ signed a))
  | .cmpGeu o => sk o (fun a b => decide (b ≤ a))
  | .cmpiEq o => sj o (fun a b => decide (a = b))
  | .cmpiNe o => sj o (fun a b => decide (a ≠ b))
  | .cmpiLt o => sj o (fun a b => decide (signed a < signed b))
  | .cmpiLtu o => sj o (fun a b => decide (a < b))
  | .cmpiGe o => sj o (fun a b => decide (signed b ≤ signed a))
  | .cmpiGeu o => sj o (fun a b => decide (b ≤ a))
  | .pand o => sp o (fun a b => a * b)
  | .por o => sp o (fun a b => a + b - a * b)
  | .pxor o => sp o (fun a b => (a + b) % 2)
  | .pnot o => some { srcs := [(.k, o.ka.toNat)], dst := (.k, o.k.toNat), lat := 1, val := fun x => 1 - nth 0 x 0 }
  | _ => none

/-! Vector forms (R299 to R317) -/

/-- The operands of a guarded per-lane form: its sources, then the guard and the old destination when it is guarded (R300). -/
def laneSrcs (o : VR) (srcs : List Reg) : List Reg :=
  srcs ++ (if o.m = 0 then [] else [(vMasks o.v, o.m.toNat), (vFile o.v, o.d.toNat)])

/-- A guarded per-lane form of `n` result lanes of `e` bits: an inactive lane keeps its old value (R300). -/
def laneForm (o : VR) (srcs : List Reg) (e n lat : Nat) (lane : List Nat → Nat → Nat) : RegForm :=
  { srcs := laneSrcs o srcs, dst := (vFile o.v, o.d.toNat), lat := lat,
    val := fun x => ofLanes e ((List.range n).map (fun j =>
      if o.m = 0 || (nth 0 x srcs.length).testBit j then lane x j else bits (nth 0 x (srcs.length + 1)) (e * j) e)) }

/-- A form that writes a mask of the lanes that meet a test; inactive lanes and those above the count give 0 (R300, R306, R308). -/
def maskForm (o : VR) (n : Nat) (test : List Nat → Nat → Bool) : RegForm :=
  { srcs := [(vFile o.v, o.a.toNat), (vFile o.v, o.b.toNat)] ++ (if o.m = 0 then [] else [(vMasks o.v, o.m.toNat)]),
    dst := (vMasks o.v, o.d.toNat), lat := 2,
    val := fun x => ofLanes 1 ((List.range n).map (fun j => if test x j && (o.m = 0 || (nth 0 x 2).testBit j) then 1 else 0)) }

/-- A form that reduces the active lanes of a into lane 0; every other lane is zero (R307, R311). -/
def foldForm (o : VR) (e lat : Nat) (f : List Nat → Nat) : RegForm :=
  { srcs := [(vFile o.v, o.a.toNat)] ++ (if o.m = 0 then [] else [(vMasks o.v, o.m.toNat)]),
    dst := (vFile o.v, o.d.toNat), lat := lat,
    val := fun x => f (((List.range (2048 / e)).filter (fun j => o.m = 0 || (nth 0 x 1).testBit j)).map (fun j => bits (nth 0 x 0) (e * j) e)) }

/-- Source registers a, b and C of a vector form. -/
def srcA (o : VR) : Reg := (vFile o.v, o.a.toNat)
/-- Source b. -/
def srcB (o : VR) : Reg := (vFile o.v, o.b.toNat)
/-- Source C. -/
def srcC (o : VR) : Reg := (vFile o.v, o.third.toNat)

/-- The integer lane forms of R303 to R305, R306 (vsel) and R307: lanes a, b and c of `e` bits. -/
def integerLanes (i : Instr) : Option RegForm :=
  let two (o : VR) (lat : Nat) (f : Nat → Nat → Nat → Nat) : Option RegForm :=
    let e := laneWidth o.t
    some (laneForm o [srcA o, srcB o] e (2048 / e) lat (fun x j => f e (bits (nth 0 x 0) (e * j) e) (bits (nth 0 x 1) (e * j) e)))
  let one (o : VR) (f : Nat → Nat → Nat) : Option RegForm :=
    let e := laneWidth o.t
    some (laneForm o [srcA o] e (2048 / e) 2 (fun x j => f e (bits (nth 0 x 0) (e * j) e)))
  let narrow (o : VR) (f : Nat → Nat → Nat) : Option RegForm :=
    let e := laneWidth o.t
    let n := 2048 / e
    some (laneForm o [srcA o, srcB o] (e / 2) (2 * n) 3 (fun x j =>
      if j < n then f e (bits (nth 0 x 0) (e * j) e) else f e (bits (nth 0 x 1) (e * (j - n)) e)))
  match i with
  | .vadd o => two o 2 (fun e a b => (a + b) % 2 ^ e)
  | .vsub o => two o 2 (fun e a b => (a + (2 ^ e - b)) % 2 ^ e)
  | .vmul o => two o 4 (fun e a b => a * b % 2 ^ e)
  | .vmulh o => two o 4 (fun e a b => int2lane e (laneVal o.unsig e a * laneVal o.unsig e b / 2 ^ e))
  | .vmad o =>
    let e := laneWidth o.t
    some (laneForm o [srcA o, srcB o, srcC o] e (2048 / e) 4 (fun x j =>
      (bits (nth 0 x 0) (e * j) e * bits (nth 0 x 1) (e * j) e + bits (nth 0 x 2) (e * j) e) % 2 ^ e))
  | .vmin o => two o 2 (fun e a b => int2lane e (min (laneVal o.unsig e a) (laneVal o.unsig e b)))
  | .vmax o => two o 2 (fun e a b => int2lane e (max (laneVal o.unsig e a) (laneVal o.unsig e b)))
  | .vabs o => one o (fun e a => if a < 2 ^ (e - 1) then a else 2 ^ e - a)
  | .vneg o => one o (fun e a => (2 ^ e - a) % 2 ^ e)
  | .vand o => two o 2 (fun _ a b => a &&& b)
  | .vor o => two o 2 (fun _ a b => a ||| b)
  | .vxor o => two o 2 (fun _ a b => a ^^^ b)
  | .vshl o => two o 2 (fun e a b => a * 2 ^ (b % e) % 2 ^ e)
  | .vshr o => two o 2 (fun e a b => a / 2 ^ (b % e))
  | .vsra o => two o 2 (fun e a b => int2lane e (lane2int e a / 2 ^ (b % e)))
  | .vadds o => two o 3 (fun e a b => int2lane e (saturate (!o.unsig) e (laneVal o.unsig e a + laneVal o.unsig e b)))
  | .vsubs o => two o 3 (fun e a b => int2lane e (saturate (!o.unsig) e (laneVal o.unsig e a - laneVal o.unsig e b)))
  | .vqshr o => narrow o (fun e a =>
      let sh := o.imm.toNat % 64
      int2lane (e / 2) (saturate (!o.unsig) (e / 2) (if sh = 0 then laneVal o.unsig e a else (laneVal o.unsig e a + 2 ^ (sh - 1)) / 2 ^ sh)))
  | .vpack o => narrow o (fun e a => a % 2 ^ (e / 2))
  | .vunpk o =>
    let e := laneWidth o.t
    some (laneForm o [srcA o] e (2048 / e) 3 (fun x j =>
      int2lane e (laneVal o.unsig (e / 2) (bits (nth 0 x 0) (e / 2 * (j + if o.imm.getLsbD 0 then 2048 / e else 0)) (e / 2)))))
  | .vdot2 o =>
    let dot (x : List Nat) (j : Nat) : Int :=
      lane2int 16 (bits (nth 0 x 0) (32 * j) 16) * lane2int 16 (bits (nth 0 x 1) (32 * j) 16) +
      lane2int 16 (bits (nth 0 x 0) (32 * j + 16) 16) * lane2int 16 (bits (nth 0 x 1) (32 * j + 16) 16)
    if o.imm.getLsbD 0 then
      some (laneForm o [srcA o, srcB o, srcC o] 32 64 4 (fun x j => int2lane 32 (dot x j + bits (nth 0 x 2) (32 * j) 32)))
    else some (laneForm o [srcA o, srcB o] 32 64 4 (fun x j => int2lane 32 (dot x j)))
  | .vsel o =>
    let e := laneWidth o.t
    some { srcs := [srcA o, srcB o, (vMasks o.v, o.m.toNat)], dst := (vFile o.v, o.d.toNat), lat := 2,
           val := fun x => ofLanes e ((List.range (2048 / e)).map (fun j =>
             bits (nth 0 x (if (nth 0 x 2).testBit j then 0 else 1)) (e * j) e)) }
  | .vredAdd o => some (foldForm o (laneWidth o.t) 6 (fun ls => ls.sum % 2 ^ laneWidth o.t))
  | .vredMin o =>
    let e := laneWidth o.t
    some (foldForm o e 6 (fun ls => int2lane e ((ls.map (laneVal o.unsig e)).foldl min (intMax (!o.unsig) e))))
  | .vredMax o =>
    let e := laneWidth o.t
    some (foldForm o e 6 (fun ls => int2lane e ((ls.map (laneVal o.unsig e)).foldl max (intMin (!o.unsig) e))))
  | .vbcst o =>
    let e := laneWidth o.t
    some (laneForm o [srcA o] e (2048 / e) 2 (fun x _ => bits (nth 0 x 0) (e * o.imm.toNat) e))
  | _ => none

/-- The floating-point lane forms of R308, R309, R311 and R314: FP32, or BF16 where T says so. -/
def floatLanes (i : Instr) : Option RegForm :=
  let fm (o : VR) : Fmt := if o.t = 0 then fp32 else bf16
  let at_ (x : List Nat) (w k j : Nat) : Nat := bits (nth 0 x k) (w * j) w
  let two (o : VR) (lat : Nat) (f : Fmt → Nat → Nat → Nat) : Option RegForm :=
    let k := fm o
    some (laneForm o [srcA o, srcB o] k.w (2048 / k.w) lat (fun x j => f k (at_ x k.w 0 j) (at_ x k.w 1 j)))
  let one (o : VR) (f : Fmt → Nat → Nat) : Option RegForm :=
    let k := fm o
    some (laneForm o [srcA o] k.w (2048 / k.w) 2 (fun x j => if fpDecode k (at_ x k.w 0 j) = .nan then k.nan else f k (at_ x k.w 0 j)))
  match i with
  | .fadd o => two o 4 (fun k a b => fpRound k o.rm.toNat (fpAdd o.rm.toNat (fpDecode k a) (fpDecode k b)))
  | .fsub o => two o 4 (fun k a b => fpRound k o.rm.toNat (fpAdd o.rm.toNat (fpDecode k a) (fpNeg (fpDecode k b))))
  | .fmul o => two o 4 (fun k a b => fpRound k o.rm.toNat (fpMul (fpDecode k a) (fpDecode k b)))
  | .ffma o =>
    let k := fm o
    some (laneForm o [srcA o, srcB o, srcC o] k.w (2048 / k.w) 4 (fun x j =>
      fpRound k o.rm.toNat (fpAdd o.rm.toNat (fpMul (fpDecode k (at_ x k.w 0 j)) (fpDecode k (at_ x k.w 1 j))) (fpDecode k (at_ x k.w 2 j)))))
  | .fmin o => two o 2 (fun k a b => fpMinMax k false a b)
  | .fmax o => two o 2 (fun k a b => fpMinMax k true a b)
  | .fabs o => one o (fun k a => a % 2 ^ (k.w - 1))
  | .fneg o => one o (fun k a => (a + 2 ^ (k.w - 1)) % 2 ^ k.w)
  | .fcvt o =>
    let wi := fmtBits o.fin.toNat
    let wo := fmtBits o.fout.toNat
    some (laneForm o [srcA o] wo (2048 / max wi wo) 4 (fun x j => cvtCode o.fout.toNat o.rm.toNat (cvtValue o.fin.toNat (at_ x wi 0 j))))
  | .fred o =>
    some (foldForm o 32 8 (fun ls => (Exact.ofList xsForm (ls.map (fpDecode fp32))).round xsForm (outFormat o.fout fp32) o.rm.toNat))
  | .vmxd o =>
    let w := fmtBits o.fin.toNat
    some (laneForm o [srcA o] 32 64 4 (fun x j =>
      fpRound fp32 o.rm.toNat (elemValue o.fin.toNat (at_ x w 0 j) (bits (nth 0 x 0) (8 * (248 + j / 32)) 8))))
  | .vmxq o =>
    let w := fmtBits o.fout.toNat
    let blk (x : List Nat) (h : Nat) : Nat × List Nat :=
      quantize o.fout.toNat ((List.range 32).map (fun j => fpDecode fp32 (at_ x 32 0 (32 * h + j))))
    some { srcs := [srcA o], dst := (vFile o.v, o.d.toNat), lat := 6,
           val := fun x => ofLanes w ((blk x 0).2 ++ (blk x 1).2) + (blk x 0).1 * 2 ^ 1984 + (blk x 1).1 * 2 ^ 1992 }
  | _ => none

/-- The compares of lanes (R306, R308) and the mask operations (R317). -/
def maskResults (i : Instr) : Option RegForm :=
  let int (o : VR) (c : IntCmp) : Option RegForm :=
    let e := laneWidth o.t
    some (maskForm o (2048 / e) (fun x j => c.holds e (bits (nth 0 x 0) (e * j) e) (bits (nth 0 x 1) (e * j) e)))
  let fp (o : VR) (c : FpCmp) : Option RegForm :=
    let k : Fmt := if o.t = 0 then fp32 else bf16
    some (maskForm o (2048 / k.w) (fun x j => c.holds k (bits (nth 0 x 0) (k.w * j) k.w) (bits (nth 0 x 1) (k.w * j) k.w)))
  match i with
  | .vcmpEq o => int o .eq
  | .vcmpNe o => int o .ne
  | .vcmpLt o => int o .lt
  | .vcmpLtu o => int o .ltu
  | .vcmpGe o => int o .ge
  | .vcmpGeu o => int o .geu
  | .fcmpEq o => fp o .eq
  | .fcmpNe o => fp o .ne
  | .fcmpLt o => fp o .lt
  | .fcmpLe o => fp o .le
  | .fcmpUn o => fp o .un
  | .mand o => some { srcs := [(vMasks o.v, o.a.toNat), (vMasks o.v, o.b.toNat)], dst := (vMasks o.v, o.d.toNat), lat := 2,
                      val := fun x => nth 0 x 0 &&& nth 0 x 1 }
  | .mor o => some { srcs := [(vMasks o.v, o.a.toNat), (vMasks o.v, o.b.toNat)], dst := (vMasks o.v, o.d.toNat), lat := 2,
                     val := fun x => nth 0 x 0 ||| nth 0 x 1 }
  | .mnot o => some { srcs := [(vMasks o.v, o.a.toNat)], dst := (vMasks o.v, o.d.toNat), lat := 2, val := fun x => 2 ^ 256 - 1 - nth 0 x 0 }
  | .mpop o => some { srcs := [(vMasks o.v, o.a.toNat)], dst := (vFile o.v, o.d.toNat), lat := 2,
                      val := fun x => ((List.range (2048 / laneWidth o.t)).map (fun j => nth 0 x 0 / 2 ^ j % 2)).sum }
  | _ => none

/-! Copy forms (R345, R347, R374) -/

/-- The cross-file moves and address forms of the copy slots. -/
def copyForm (i : Instr) : Option RegForm :=
  let mv (src dst : File) (lat : Nat) (o : CX0) : Option RegForm :=
    some { srcs := [(src, o.a.toNat)], dst := (dst, o.d.toNat), lat := lat, val := fun x => nth 0 x 0 }
  match i with
  | .xmovSv o => some { srcs := [(.s, o.a.toNat)], dst := (.v, o.d.toNat), lat := 3, val := fun x => nth 0 x 0 * 2 ^ (64 * o.l.toNat) }
  | .xmovVs o => some { srcs := [(.v, o.a.toNat)], dst := (.s, o.d.toNat), lat := 3, val := fun x => nth 0 x 0 / 2 ^ (64 * o.l.toNat) % 2 ^ 64 }
  | .xmovVw o => mv .v .w 2 o
  | .xmovWv o => mv .w .v 2 o
  | .xmovSc o => mv .s .c 1 o
  | .xmovCs o => mv .c .s 1 o
  | .xmovSd o => mv .s .d 1 o
  | .xmovDs o => mv .d .s 1 o
  | .xmovKv o =>
    some { srcs := (List.range 16).map (fun n => (File.k, n)), dst := (.v, o.d.toNat), lat := 2,
           val := fun x => ((List.range 16).map (fun n => nth 0 x n * 2 ^ n)).sum * 2 ^ (64 * o.l.toNat) }
  | .cadd o =>
    some { srcs := [(cFile o.v, o.a.toNat)], dst := (cFile o.v, o.d.toNat), lat := 1, val := fun x => (nth 0 x 0 + immVal o.i o.e) % 2 ^ 64 }
  | .cmovi o => some { srcs := [], dst := (cFile o.v, o.d.toNat), lat := 1, val := fun _ => immVal o.i o.e }
  | .clea o =>
    some { srcs := [(cFile o.v, o.a.toNat), (cFile o.v, o.b.toNat)], dst := (cFile o.v, o.d.toNat), lat := 1,
           val := fun x => (nth 0 x 0 + nth 0 x 1 * 2 ^ o.sh.toNat) % 2 ^ 64 }
  | _ => none

/-- Every form that reads registers and writes one, with a bound: scalar, predicate, lane, mask and copy forms. -/
def regForm (i : Instr) : Option RegForm :=
  (scalarForm i).or ((predicateForm i).or ((integerLanes i).or ((floatLanes i).or ((maskResults i).or (copyForm i)))))

/-- A register form holds its bundle: nothing is written, nothing is on its way from it (R121). -/
def State.holdsBundle (s : State) (i : Instr) : Prop :=
  ∃ t, exec i s = .next t ∧ t.core.mark = .stalled ∧ t.core.defer = s.core.defer ∧ t.core.regs = s.core.regs

/-! Control transfers and the path (R175, R248) -/

/-- The core is to go on at an address whose landing is still to be checked (R248). -/
def State.goes (s : State) (to_ : Word) (indirect : Bool) : State :=
  { s with core := { s.core with npc := to_, taken := some { source := s.core.pc, indirect := indirect, checked := true } } }

/-- The taints of registers join the path taint (R175). -/
def State.joins (s : State) (rs : List Reg) : State :=
  { s with core := { s.core with order := { s.core.order with
      ptaint := s.core.order.ptaint ||| taintOf (rs.map s.core.reg), pdm := s.core.order.pdm || dmOf (rs.map s.core.reg) } } }

/-- A register's value as a 64-bit word. -/
def Core.word (c : Core) (r : Reg) : Word := (c.reg r).word

/-- The fault of an operation for the value of a register it reads, with that register's taint (R225). -/
def Core.regFault (c : Core) (r : Reg) : FaultInfo := { c.syllableFault 0x02 with taint := (c.reg r).taint, dm := (c.reg r).dm }

/-- What a trapped operation leaves: the exception taken and its mark (R222). -/
def State.traps (s : State) (f : FaultInfo) : State := let t := s.raise f; { t with core := { t.core with mark := .trapped f } }

/-! Accesses to global memory (R169 to R184, R278 to R283) -/

/-- The physical address of an access that needs `ns` of its page, and the state with its translations filled in. -/
def State.translate (s : State) (va : Nat) : List Need → Except Nat (Nat × State)
  | [] => .ok (0, s)
  | n :: r =>
    match s.xlate s.core.id s.core.task.fn va n with
    | .error c => .error c
    | .ok (pa, t) => (match State.translate t va r with | .ok (pa', u) => .ok (max pa pa', u) | .error c => .error c)

/-- The physical addresses of several virtual ones, and the state with their translations filled in. -/
def State.translateAll (s : State) (n : Need) : List Nat → Except Nat (List Nat × State)
  | [] => .ok ([], s)
  | va :: r =>
    match s.xlate s.core.id s.core.task.fn va n with
    | .error c => .error c
    | .ok (pa, t) => (match State.translateAll t n r with | .ok (pas, u) => .ok (pa :: pas, u) | .error c => .error c)

/-- The state after an access is issued. -/
def State.issues (s : State) (a : Access) (cells : List RegCell) (release hold : BitVec 16) : State :=
  match issue a cells release hold s with | .ok (_, t) => t | .error _ => s

/-- A scalar access of global memory: its sources, the address register first, its offset, size and needs, its destinations, the class masks of its
release and acquire orders, and the access itself from the words of its sources and its physical address. -/
structure AccForm where
  srcs : List Reg
  off : Word
  size : Nat
  needs : List Need
  dsts : List Reg
  release : BitVec 16
  hold : BitVec 16
  acc : List Word → Access

/-- The virtual address of a scalar access. -/
def AccForm.va (f : AccForm) (c : Core) : Word := (f.srcs.head?.map c.word).getD 0 + f.off

/-- The scalar accesses of the sequencer (R278, R279, R281 to R283). -/
def accForm (i : Instr) : Option AccForm :=
  let sr (n : BitVec 6) : Reg := (.s, n.toNat)
  let ld (size : Nat) (sg : Bool) (o : SG) : Option AccForm :=
    some { srcs := [sr o.a], off := joinImm o.o o.e * BitVec.ofNat 64 size, size := size, needs := [.read], dsts := [sr o.r], release := 0,
           hold := 0, acc := fun _ => { Access.blank with kind := .load size sg, len := size, cls := o.cl.toNat } }
  let lda (size : Nat) (o : SO) : Option AccForm :=
    some { srcs := [sr o.a], off := 0, size := size, needs := [.read], dsts := [sr o.r], release := 0, hold := o.m,
           acc := fun _ => { Access.blank with kind := .load size true, len := size, cls := o.cl.toNat, acquire := true } }
  let st (size : Nat) (o : SG) : Option AccForm :=
    some { srcs := [sr o.a, sr o.r], off := joinImm o.o o.e * BitVec.ofNat 64 size, size := size, needs := [.write], dsts := [], release := 0,
           hold := 0, acc := fun ws => { Access.blank with kind := .store, len := size, cls := o.cl.toNat,
                                                           data := toBytes size (nth 0 ws 1).toNat } }
  let stl (size : Nat) (o : SO) : Option AccForm :=
    some { srcs := [sr o.a, sr o.r], off := 0, size := size, needs := [.write], dsts := [], release := o.m, hold := 0,
           acc := fun ws => { Access.blank with kind := .store, len := size, cls := o.cl.toNat, acquire := true,
                                                data := toBytes size (nth 0 ws 1).toNat } }
  let at_ (k : AccKind) (srcs : List Reg) (o : SA) : Option AccForm :=
    let g := o.g.getD { cl := 0, sco := 0, w := 0, fo := 0, m := 1 }
    let size := if g.w = 1 then 4 else 8
    some { srcs := srcs, off := 0, size := size, needs := [.read, .write], dsts := [sr o.d],
           release := if o.o.getLsbD 1 then g.m else 0, hold := if o.o.getLsbD 0 || g.fo == 1 then g.m else 0,
           acc := fun ws => { Access.blank with kind := k, len := size, cls := g.cl.toNat, operand := nth 0 ws 1, expect := nth 0 ws 2,
                                                acquire := o.o.getLsbD 0, failAcquire := g.fo == 1 } }
  let amo (n : Nat) (o : SA) : Option AccForm := at_ (.amo n) [sr o.a, sr o.b] o
  let up (n : Nat) (o : SU) : Option AccForm :=
    let size := if o.w = 1 then 8 else 4
    some { srcs := [sr o.a, sr o.b], off := 0, size := size, needs := [.read, .write], dsts := [], release := 0, hold := 0,
           acc := fun ws => { Access.blank with kind := .update n, len := size, cls := o.cl.toNat, operand := nth 0 ws 1 } }
  match i with
  | .ldB o => ld 1 true o
  | .ldBU o => ld 1 false o
  | .ldH o => ld 2 true o
  | .ldHU o => ld 2 false o
  | .ldW o => ld 4 true o
  | .ldWU o => ld 4 false o
  | .ldD o => ld 8 false o
  | .ldaW o => lda 4 o
  | .ldaD o => lda 8 o
  | .stB o => st 1 o
  | .stH o => st 2 o
  | .stW o => st 4 o
  | .stD o => st 8 o
  | .stlW o => stl 4 o
  | .stlD o => stl 8 o
  | .amoAdd o => amo 0 o
  | .amoAnd o => amo 1 o
  | .amoOr o => amo 2 o
  | .amoXor o => amo 3 o
  | .amoMin o => amo 4 o
  | .amoMax o => amo 5 o
  | .amoMinu o => amo 6 o
  | .amoMaxu o => amo 7 o
  | .amoSwap o => amo 8 o
  | .cas o => at_ .cas [sr o.a, sr o.b, sr o.d] o
  | .cas2 o =>
    let g := o.g.getD { cl := 0, sco := 0, w := 0, fo := 0, m := 1 }
    some { srcs := [sr o.a, sr o.b, (.s, (o.b + 1).toNat), sr o.d, (.s, (o.d + 1).toNat)], off := 0, size := 16, needs := [.read, .write],
           dsts := [sr o.d, (.s, o.d.toNat + 1)],
           release := if o.o.getLsbD 1 then g.m else 0, hold := if o.o.getLsbD 0 || g.fo == 1 then g.m else 0,
           acc := fun ws => { Access.blank with kind := .cas2, len := 16, cls := g.cl.toNat, operand := nth 0 ws 1, operandHi := nth 0 ws 2,
                                                expect := nth 0 ws 3, expectHi := nth 0 ws 4, acquire := o.o.getLsbD 0, failAcquire := g.fo == 1 } }
  | .redx o =>
    let g := o.g.getD { cl := 0, sco := 0, w := 0, fo := 0, m := 1 }
    some { srcs := [sr o.a, sr o.b], off := 0, size := 4, needs := [.read, .write], dsts := [], release := 0, hold := 0,
           acc := fun ws => { Access.blank with kind := .redx, len := 4, cls := g.cl.toNat, operand := nth 0 ws 1 } }
  | .uadd o => up 0 o
  | .umin o => up (if o.u = 1 then 6 else 4) o
  | .umax o => up (if o.u = 1 then 7 else 5) o
  | .uand o => up 1 o
  | .uor o => up 2 o
  | .uxor o => up 3 o
  | .uminF o => up 9 o
  | .umaxF o => up 10 o
  | _ => none

/-- The access of a form in a core, at its addresses. -/
def AccForm.access (f : AccForm) (c : Core) (pa : Nat) : Access :=
  let a := f.acc (f.srcs.map c.word)
  let data := c.reg (f.srcs.getLast?.getD (.s, 0))
  { a with va := f.va c, pa := pa, dsts := f.dsts.map (fun r => c.phys r.1 r.2),
           taint := if a.kind = .store then data.taint else 0, dm := if a.kind = .store then data.dm else false,
           l1 := (match a.kind with | .load _ _ => !a.acquire && l1Allowed c a.cls (f.srcs.map c.reg) pa f.size [] | _ => false) }

/-- Every register of a list is ready. -/
def Core.allReady (c : Core) (rs : List Reg) : Bool := rs.all c.ready

/-! The pantry (R144, R280) -/

/-- Pantry bytes of a core that a read finds defined (R91, R193). -/
def State.defined (s : State) (n a k : Nat) : Bool := (List.range k).all (fun i => !s.unsettled none n (a + i))

/-- The pantry loads of R280, by size and signedness. -/
def pantryLoad (i : Instr) : Option (SY × Nat × Bool) :=
  match i with
  | .ldpB o => some (o, 1, true)
  | .ldpBU o => some (o, 1, false)
  | .ldpH o => some (o, 2, true)
  | .ldpHU o => some (o, 2, false)
  | .ldpW o => some (o, 4, true)
  | .ldpWU o => some (o, 4, false)
  | .ldpD o => some (o, 8, false)
  | _ => none

/-- The pantry stores of R280, by size. -/
def pantryStore (i : Instr) : Option (SY × Nat) :=
  match i with
  | .stpB o => some (o, 1)
  | .stpH o => some (o, 2)
  | .stpW o => some (o, 4)
  | .stpD o => some (o, 8)
  | _ => none

/-- The bytes of a core's pantry in `lo` to `lo + n - 1` are those listed, and every other byte is as before. -/
def State.pantryOnly (s t : State) (core lo : Nat) (bs : List Byte) : Prop :=
  ∀ c a, a < 2 ^ 20 → t.pantryByte c a =
    if c = core ∧ lo ≤ a ∧ a < lo + bs.length ∧ (s.coreAt core).carving a = false then nth 0 bs (a - lo) else s.pantryByte c a

/-! Returns from handlers (R248, R285) -/

/-- The core is to go on at a saved address: an unchanged one keeps the check of the transfer that had led there, a changed one is an indirect
target (R248, R285). -/
def State.goesBack (s : State) (to_ kept : Word) (before : Option Transfer) : State :=
  { s with core := { s.core with npc := to_, taken := some (
      if to_ = kept then before.getD { source := s.core.pc, indirect := false, checked := false }
      else { source := s.core.pc, indirect := true, checked := true }) } }

/-- The maps of a core have a place for every block (R126). -/
def Maps.shaped (m : Maps) : Bool :=
  m.s.length == 8 && m.v.length == 4 && m.w.length == 4 && m.c.length == 2 && m.d.length == 2 && m.k.length == 2

/-- The frame that an acquire pushes: the named blocks with the physical blocks they had (R127). -/
def Maps.frameOf (m : Maps) (bs : List (File × Nat)) : List FrameBlock :=
  bs.map (fun b => { file := atticCode b.1, block := b.2, phys := nth 0 (m.of b.1) b.2 })

/-- The maps after a frame is given back (R127). -/
def Maps.giveBack (m : Maps) (fr : List FrameBlock) : Maps := fr.foldl (fun m b => m.put (atticFile b.file) b.block b.phys) m

/-- `m` is `c`'s maps with the blocks `bs` on physical blocks that were free, no two of a file on the same one (R127). -/
def Core.maysMap (c : Core) (bs : List (File × Nat)) (m : Maps) : Prop :=
  m.shaped = true ∧ (∀ f b, f ∈ renamed → (f, b) ∉ bs → nth 0 (m.of f) b = nth 0 (c.maps.of f) b) ∧
  (∀ f b, (f, b) ∈ bs → nth 0 (m.of f) b ∈ freeBlocks c.maps c.frames f) ∧
  (∀ f b b', (f, b) ∈ bs → (f, b') ∈ bs → nth 0 (m.of f) b = nth 0 (m.of f) b' → b = b') ∧
  m.giveBack (c.maps.frameOf bs) = c.maps

/-! Performance (R154 to R160, R165, R171) -/

/-- No holder keeps deltas of a line and the line is not in REDUCE (R155 to R157): an access to it is a plain one. -/
def State.plain (s : State) (line : Nat) : Prop := (∀ r ∈ s.reduce, r.line ≠ line) ∧ (∀ c ∈ s.cores, ∀ u ∈ c.upd, u.line ≠ line)

/-- Every line that `n` bytes from `pa` on touch is plain. -/
def State.plainRange (s : State) (pa n : Nat) : Prop := ∀ l ∈ linesOf pa n, s.plain l

/-- The access `id` of the core in focus may be performed and is `a`. -/
def State.mayPerform (s : State) (id : Nat) (a : Access) : Prop :=
  s.core.order.acc.find? (fun x => x.id == id) = some a ∧ a ∈ s.core.performable

/-- The accesses left after one is performed: none of them waits for it any more. -/
def Order.without (o : Order) (id : Nat) : List Access :=
  (o.acc.filter (fun x => x.id != id)).map (fun x => { x with after := x.after.filter (fun i => i != id) })

/-- The value an atomic of `w` bits leaves, over exact integers (R48, R155, R281). -/
def atomicValue (op w old b : Nat) : Nat :=
  let sg (x : Nat) : Int := if x < 2 ^ (w - 1) then x else (x : Int) - 2 ^ w
  match op with
  | 0 => (old + b) % 2 ^ w
  | 1 => old &&& b
  | 2 => old ||| b
  | 3 => old ^^^ b
  | 4 => if sg old < sg b then old else b
  | 5 => if sg old < sg b then b else old
  | 6 => if old < b then old else b
  | 7 => if old < b then b else old
  | _ => b

/-! Taking an exception (R222 to R230) -/

/-- A core whose bundle has faulted: its effects are dropped, the fault is counted, and deferred faults wait for the handler (R222, R225, R228). -/
def State.stopped (s : State) : State :=
  { s with core := { s.core with
    defer := [], faults := s.core.faults + 1, deferred := s.core.deferred.map (fun (g : FaultInfo) => { g with held := true }) } }

/-- Every register keeps its value, and the banks named lose their taints and marks. -/
def Core.sameValues (c d : Core) (banks : List Nat) : Prop :=
  ∀ k, (d.cell k).val = (c.cell k).val ∧
    (if k / 1024 ∈ banks then (d.cell k).taint = 0 ∧ (d.cell k).dm = false else d.cell k = c.cell k)

/-! The Granary (R92 to R105) -/

/-- The four registers of a record quad. -/
def quadRegs (r : BitVec 6) : List Reg := [(.s, r.toNat), (.s, (r + 1).toNat), (.s, (r + 2).toNat), (.s, (r + 3).toNat)]

/-- The session the core's task is attached to, while it is known. -/
def State.joined (s : State) : Option Session := match s.core.session with | none => none | some u => s.sessionAt u

/-- The effects with which a pop writes its code and its predicate pair (R99). -/
def Core.popWrites (c : Core) (o : S2) (code : Nat) : List Effect :=
  [c.lands (.s, o.a.toNat) code [], c.lands (.k, o.k.toNat) (if code = 0 then 1 else 0) [],
   c.lands (.k, (o.k + 1).toNat) (if code = 2 then 1 else 0) []]

/-- Every register that a pop writes can be written. -/
def Core.popFree (c : Core) (o : S2) : Bool :=
  (List.range 4).all (fun i => c.free (.s, o.r.toNat + i)) && c.free (.s, o.a.toNat) && c.free (.k, o.k.toNat) && c.free (.k, (o.k + 1).toNat)

/-- Nothing but one session changes among sessions. -/
def State.onlySession (s t : State) (uid : Nat) : Prop := ∀ u, u ≠ uid → t.sessionAt u = s.sessionAt u

/-- The floor after a change: the lowest bin among the records held and those popped and not done, and never below its last value; in a session of several
devices the waves set it (R97, R107). -/
def Session.floored (x : Session) : Session :=
  if x.group ≠ 0 then x
  else
    let f := match (x.recs.map (fun r => r.bin) ++ x.popped.map (fun p => p.rec_.bin)).min? with | some b => max x.floor b | none => x.floor
    { x with floor := f, fc := f, fu := f }

/-- Session `uid` is now `y`, and nothing else has changed but the core in focus. -/
def State.keepsButSession (s t : State) (uid : Nat) (y : Session) : Prop :=
  t.sessionAt uid = some y ∧ s.onlySession t uid ∧ ({ t with core := s.core, sessions := s.sessions } : State) = s

/-! Register groups of exact records (R205 to R208, R302, R312, R313) -/

/-- A form that writes `n` registers from `dst` on, from one number of 2,048 bits for each. -/
structure GroupForm where
  srcs : List Reg
  dst : Reg
  n : Nat
  lat : Nat
  val : List Nat → Nat

/-- The registers a group form writes. -/
def GroupForm.dsts (f : GroupForm) : List Reg := (List.range f.n).map (fun i => (f.dst.1, f.dst.2 + i))

/-- The operands of a group form can be read and its destinations written at once. -/
def GroupForm.ready (f : GroupForm) (c : Core) : Bool := f.srcs.all c.ready && f.dsts.all c.free

/-- The state after a group form: its registers' results are on their way, and nothing else has changed. -/
def GroupForm.leaves (f : GroupForm) (s : State) : State :=
  let v := f.val (f.srcs.map s.core.regVal)
  s.leaves ((List.range f.n).map (fun i => s.core.writes (f.dst.1, f.dst.2 + i) (bits v (2048 * i) 2048) f.srcs f.lat))

/-- The record forms of R312 and R313. -/
def recordForm (i : Instr) : Option GroupForm :=
  let regs (o : VR) (r : BitVec 5) (n : Nat) : List Reg := (List.range n).map (fun i => (vFile o.v, r.toNat + i))
  let mask (o : VR) : List Reg := if o.m = 0 then [] else [(vMasks o.v, o.m.toNat)]
  let group (x : List Nat) (from_ n : Nat) : Nat := ofLanes 2048 ((List.range n).map (fun i => nth 0 x (from_ + i)))
  let add (xs : Bool) (o : VR) : GroupForm :=
    let n := groupLen xs
    { srcs := regs o o.a n ++ [srcB o] ++ mask o, dst := (vFile o.v, o.d.toNat), n := n, lat := 6,
      val := fun x => slotsOf xs ((List.range 8).map (fun j =>
        ((List.range 8).filter (fun i => o.m = 0 || (nth 0 x (n + 1)).testBit (8 * j + i))).foldl
          (fun r i => r.add (formOf xs) (fpDecode fp32 (bits (nth 0 x n) (32 * (8 * j + i)) 32))) (slotAt xs (group x 0 n) j))) }
  let join (xs : Bool) (o : VR) : GroupForm :=
    let n := groupLen xs
    { srcs := regs o o.a n ++ regs o o.b n, dst := (vFile o.v, o.d.toNat), n := n, lat := 6,
      val := fun x => slotsOf xs ((List.range 8).map (fun j => Exact.join (formOf xs) (slotAt xs (group x 0 n) j) (slotAt xs (group x n n) j))) }
  let fold (xs : Bool) (o : VR) : GroupForm :=
    let n := groupLen xs
    { srcs := regs o o.a n, dst := (vFile o.v, o.d.toNat), n := n, lat := 6,
      val := fun x => slotsOf xs ((List.range 8).foldl (fun r j => Exact.join (formOf xs) r (slotAt xs (group x 0 n) j)) Exact.empty ::
        List.replicate 7 Exact.empty) }
  let round (xs : Bool) (o : VR) : GroupForm :=
    let n := groupLen xs
    let out := outFormat o.fout fp32
    { srcs := regs o o.a n, dst := (vFile o.v, o.d.toNat), n := 1, lat := 4,
      val := fun x => ofLanes out.w ((List.range 8).map (fun j => (slotAt xs (group x 0 n) j).round (formOf xs) out o.rm.toNat)) }
  match i with
  | .xsadd o => some (add true o)
  | .xsfold o => some (if o.imm = 0 then join true o else fold true o)
  | .xsround o => some (round true o)
  | .xpadd o => some (if o.imm = 0 then join false o else if o.imm = 1 then add false o else fold false o)
  | .xpround o => some (round false o)
  | .xpmul o =>
    some { srcs := regs o o.d 4 ++ [srcA o, srcB o] ++ mask o, dst := (vFile o.v, o.d.toNat), n := 4, lat := 8,
           val := fun x => slotsOf false ((List.range 8).map (fun j =>
             ((List.range 16).filter (fun i => o.m = 0 || (nth 0 x 6).testBit (16 * j + i))).foldl
               (fun r i => r.add xpForm (fpMul (fpDecode bf16 (bits (nth 0 x 4) (16 * (16 * j + i)) 16))
                 (fpDecode bf16 (bits (nth 0 x 5) (16 * (16 * j + i)) 16)))) (slotAt false (group x 0 4) j))) }
  | _ => none

/-! Interlocked functions (R220, R310) -/

/-- The functions of R310: operands, sources, and the value of a lane from its source lanes, where R220's enclosures decide it. -/
def specialForm (i : Instr) : Option (VR × List Reg × (Fmt → Nat → FpVal → FpVal → Option Nat)) :=
  let one (o : VR) (f : Fmt → Nat → FpVal → Option Nat) : Option (VR × List Reg × (Fmt → Nat → FpVal → FpVal → Option Nat)) :=
    some (o, [srcA o], fun k rm x _ => f k rm x)
  match i with
  | .fdiv o => some (o, [srcA o, srcB o], fun k rm x y => some (fpDiv k rm x y))
  | .fexp o => one o Func.exp.eval
  | .fexp2 o => one o Func.exp2.eval
  | .flog o => one o Func.log.eval
  | .flog2 o => one o Func.log2.eval
  | .fsin o => one o Func.sin.eval
  | .fcos o => one o Func.cos.eval
  | .ftanh o => one o Func.tanh.eval
  | .fsigm o => one o Func.sigm.eval
  | .ferf o => one o Func.erf.eval
  | .frcp o => one o (fun k rm x => some (fpRcp k rm x))
  | .frsq o => one o (fun k rm x => some (fpRsq k rm x))
  | .fsqrt o => one o (fun k rm x => some (fpSqrt k rm x))
  | _ => none

/-! Vector memory (R318 to R322) -/

/-- The guard of a vector memory form: lane `j` is active (R300). -/
def Core.lane (c : Core) (o : VM) (j : Nat) : Bool := o.m = 0 || (c.regVal (vMasks o.v, o.m.toNat)).testBit j

/-- The guard's register, when the form has one. -/
def guardRegs (o : VM) : List Reg := if o.m = 0 then [] else [(vMasks o.v, o.m.toNat)]

/-- A guarded form's old destination, which it reads too (R300). -/
def keptRegs (o : VM) : List Reg := if o.m = 0 then [] else [(vMasks o.v, o.m.toNat), (vFile o.v, o.d.toNat)]

/-- Lane 0 of the 64-bit view of a vector register (R318). -/
def Core.baseOf (c : Core) (o : VM) : Word := (c.reg (vFile o.v, o.a.toNat)).base

/-- The lanes of a guarded load: those active are new, the others keep the old destination's. -/
def Core.mergeLanes (c : Core) (o : VM) (new : Nat → Nat) : Nat :=
  ofLanes 32 ((List.range 64).map (fun j => if c.lane o j then new j else bits (c.regVal (vFile o.v, o.d.toNat)) (32 * j) 32))

/-! The matrix engine (R116, R117, R122, R325 to R340) -/

/-- A tile that an M-slot operation reads and writes at once: nothing steered, emulated or moved is on its way to it (R120, R325). -/
def Core.tileReady (c : Core) (z : Nat) : Bool := !c.tilePending z && !c.tflights.any (fun x => x.z == z && x.row.isSome)

/-- The engine is free (R122, R325). -/
def Core.engineFree (c : Core) : Bool := decide (c.mFree ≤ c.cycle)

/-- The descriptor in register `g` of a core. -/
def Core.desc (c : Core) (g : BitVec 4) : Desc := descOf c.cluster (c.regVal (.g, g.toNat))

/-- An operand stands at its owner with the form its use requires (R328). -/
def State.operandStands (s : State) (d : Desc) (fmts : List Nat) (rows cols : Nat) : Prop :=
  d.formOk = true ∧ d.fmt ∈ fmts ∧ d.rows = rows ∧ d.cols = cols ∧ s.descFault d = none

/-- An operand stands, is read for its core alone, and every byte of it is defined (R141, R193, R328). -/
def State.operandOk (s : State) (d : Desc) (fmts : List Nat) (rows cols : Nat) : Prop :=
  s.operandStands d fmts rows cols ∧ d.mc = none ∧ (s.readMatrix d).2 = s

/-- Element (r, c) of an operand with its scale byte. -/
def State.elem (s : State) (d : Desc) (r c : Nat) : Nat × Nat := elemAt (s.readMatrix d).1 r c

/-- The occupancy of an operation of `o` cycles that moves `bytes` over the cluster network (R122). -/
def occupancy (o bytes : Nat) : Nat := max o ((bytes + 511) / 512)
/-- What a remote operand adds to a latency (R122). -/
def farCycles (bytes : Nat) : Nat := if bytes = 0 then 0 else 16

/-- A core whose engine has taken an operation of `o` cycles (R122). -/
def State.occupied (s : State) (o : Nat) : State := { s with core := { s.core with mFree := s.core.cycle + o } }

/-- The dense products of R329 and R330. -/
def denseForm (i : Instr) : Option (MA × Product) :=
  match i with
  | .mmaBf16 o => some (o, prodBf16)
  | .mmaF8 o => some (o, prodF8 o.p)
  | .mmaE2m1 o => some (o, prodE2m1)
  | .mmaI8 o => some (o, prodI8)
  | .mmaI6 o => some (o, prodI6)
  | .mmaI4 o => some (o, prodI4 o.p)
  | _ => none

/-- The sparse products of R331 and R332. -/
def sparseForm (i : Instr) : Option (MAS × Product) :=
  match i with
  | .mmasBf16 o => some (o, prodBf16)
  | .mmasF8 o => some (o, prodF8 o.p)
  | .mmasE2m1 o => some (o, prodE2m1)
  | .mmasI8 o => some (o, prodI8)
  | .mmasI4 o => some (o, prodI4 o.p)
  | _ => none

/-- The pantry after pieces of bytes are written in turn. -/
def State.pantryAfter (s : State) (bs : List (Nat × Nat × List Byte)) : SMap Byte :=
  (bs.foldl (fun u b => u.pantryPut b.1 b.2.1 b.2.2) s).pantry

/-- The pieces of bytes by core, first address and end. -/
def rangesOf (bs : List (Nat × Nat × List Byte)) : List (Nat × Nat × Nat) := bs.map (fun b => (b.1, b.2.1, b.2.1 + b.2.2.length))

/-- No matrix operation may still be reading bytes of the ranges `ws` (core, first, end) when `self` writes them (R140, R193, R359, log 13). -/
def State.undisturbed (s : State) (self : Option Nat) (ws : List (Nat × Nat × Nat)) : Prop := s.spoiled self ws = []

/-- An operation has noted that it may read `spans`, and what the tiles of `source` were made of, until a cycle, for its results (R193, R325, log 13). -/
def State.reads (s : State) (spans : List (Nat × Nat × Nat)) (source : List Nat) (until_ : Option Nat) (targets : List ReadFor) : State :=
  { s with core := s.core.opens spans source until_ targets }

/-- The bounds under which the bytes written stay undefined for other readers (R193). -/
def drainRanges (bs : List (Nat × Nat × List Byte)) (ready : Nat) : List DrainRange :=
  bs.map (fun b => { owner := b.1, lo := b.2.1, hi := b.2.1 + b.2.2.length, ready := ready, fenced := false })

/-! Engine commands (R348 to R366) -/

/-- The engine commands: what they are, their operands and how many registers their group has (R349). -/
def commandForm (i : Instr) : Option (QOp × CQ × Nat) :=
  match i with
  | .qcopy o => some (.copy, o, 3)
  | .qgath o => some (.gath, o, 4)
  | .qscat o => some (.scat, o, 4)
  | .qdec o => some (.dec, o, 3)
  | .qcollContribute o => some (.collFrom, o, 5)
  | .qcollDestination o => some (.collTo, o, 5)
  | .qput o => some (.put, o, 4)
  | .qget o => some (.get, o, 4)
  | .qputs o => some (.puts, o, 5)
  | .qputm o => some (.putm, o, 6)
  | .qcel o => some (.cel, o, 4)
  | _ => none

/-- A pantry address of the cluster (R348). -/
def pantryAt (x : Nat) : Prop := 2 ^ 63 ≤ x ∧ x < 2 ^ 63 + 2 ^ 23
/-- An engine address: global memory, or a pantry of the cluster (R348). -/
def engineAt (x : Nat) : Prop := x < 2 ^ 56 ∨ pantryAt x

/-- A returning Cellarer operation by its number above 0x10 (R365). -/
def returning (n : Nat) : Bool := n == 0 || n == 1 || n == 3 || n == 4

/-- What a move's LOC, REM, CTL and LEN must be (R360, R361). -/
def moveRight (w : Nat → Nat) : Prop :=
  let size := 2 ^ bits (w 2) 34 2
  engineAt (w 0) ∧ w 1 < 2 ^ 56 ∧ w 1 % size = 0 ∧ bits (w 2) 36 28 = 0 ∧ bits (w 2) 12 16 ≠ 0 ∧ 1 ≤ w 3 ∧ w 3 ≤ 2 ^ 23 ∧ w 3 % size = 0

/-- What a qcoll's words must be (R366). -/
def State.collRight (s : State) (dest : Bool) (w : Nat → Nat) : Prop :=
  bit (w 2) 34 = dest ∧ engineAt (w 0) ∧ (if dest then engineAt (w 1) else w 1 < 2 ^ 56) ∧ bits (w 2) 28 4 ≤ 8 ∧ bits (w 2) 32 2 ≠ 3 ∧
  (bits (w 2) 28 4 = 0 ∨ bits (w 2) 32 2 = 0) ∧ bits (w 2) 35 1 = 0 ∧ bits (w 2) 53 11 = 0 ∧ bits (w 2) 12 16 ≠ 0 ∧ bits (w 4) 48 16 = 0 ∧
  1 ≤ bits (w 4) 0 32 ∧ bits (w 3) 0 32 ≤ bits (w 3) 32 32 ∧ bits (w 3) 32 32 ≤ bits (w 4) 0 32 ∧
  (dest = true → 1 ≤ bits (w 4) 32 16 ∧ ∀ n, s.fabric.devnum = some n → n = bits (w 2) 0 12)

/-- What the words of a command's group must be, beside a copy's descriptor (R352 to R366). -/
def State.commandRight (s : State) (op : QOp) (w : Nat → Nat) : Prop :=
  match op with
  | .copy => engineAt (w 0) ∧ engineAt (w 1)
  | .gath | .scat => engineAt (w 0) ∧ pantryAt (w 1) ∧ w 2 % 4 = 0 ∧ w 2 < 2 ^ 20 ∧ bits (w 3) 0 16 ≠ 0 ∧ bits (w 3) 16 16 ≠ 0
  | .dec =>
    let base := bits (w 1) 0 20
    let size := bits (w 1) 20 20
    w 0 < 2 ^ 56 ∧ w 0 % 32 = 0 ∧ w 1 < 2 ^ 41 ∧ 1 ≤ w 2 ∧ w 2 ≤ 65535 ∧
    (bit (w 1) 40 = true → size % 256 = 0 ∧ 256 ≤ size ∧ size ≤ 0xC000 ∧ base % 256 = 0 ∧ base % 0xC000 + size ≤ 0xC000 ∧ base < 0xC0000)
  | .collFrom => s.collRight false w
  | .collTo => s.collRight true w
  | .put | .get => moveRight w
  | .puts => moveRight w ∧ w 4 < 2 ^ 56 ∧ w 4 % 8 = 0
  | .putm => moveRight w ∧ w 4 < 2 ^ 56 ∧ w 4 % 8 = 0 ∧ w 5 < 2 ^ 56 ∧ w 5 % 8 = 0
  | .cel =>
    let n := bits (w 1) 36 3
    let aux := bits (w 1) 40 16
    w 0 < 2 ^ 56 ∧ bits (w 1) 56 8 = 0 ∧ bits (w 1) 39 1 = 0 ∧ bits (w 1) 12 16 ≠ 0 ∧ w 2 < 2 ^ 56 ∧ w 2 % 8 = 0 ∧ w 3 < 2 ^ 56 ∧
    (if n = 0 then aux % 16 ≤ 8 ∧ aux < 32 else if n = 1 then aux ≤ 2 else if n = 2 ∨ n = 3 then aux < 4096 else if n = 4 then aux < 256
      else if n = 5 then aux < 32 else aux = 0)
  | .fence | .marker => False

/-- A qcoll whose ARRIVAL order its kernel's determinism forbids (R366). -/
def Core.arrivalBarred (c : Core) (op : QOp) (w : Nat → Nat) : Prop :=
  (op = .collFrom ∨ op = .collTo) ∧ bits (w 2) 28 4 = 0 ∧ bits (w 2) 32 2 = 2 ∧ c.kern.det = true

/-- A queue with one entry more (R351). -/
def Queue.plus (q : Queue) (e : Entry) : Queue := { q with entries := q.entries ++ [e], iss := (q.iss + 1) % 2 ^ 32 }

/-- A queue's entry of a number is in it. -/
def Queue.holds (q : Queue) (n : Nat) : Prop := ∃ e ∈ q.entries, e.num = n

/-! Packets (R27 to R51) -/

/-- The sequenced requests and messages that other devices send: operation code and packet (R28). -/
def requestForm (i : Instr) : Option (Nat × Packet) :=
  match i with
  | .put p => some (0x01, p)
  | .putsig p => some (0x02, p)
  | .get p => some (0x03, p)
  | .putmc p => some (0x05, p)
  | .fetchAndOp p => some (0x10, p)
  | .compareAndSwap p => some (0x11, p)
  | .listEnqueue p => some (0x12, p)
  | .listDequeue p => some (0x13, p)
  | .pointerChase p => some (0x14, p)
  | .exactReduce p => some (0x15, p)
  | .signalAdd p => some (0x16, p)
  | .boundedCopy p => some (0x17, p)
  | .ckpt p => some (0x20, p)
  | .gxfer p => some (0x28, p)
  | .gbreq p => some (0x29, p)
  | .gwave p => some (0x2A, p)
  | .gwrep p => some (0x2B, p)
  | .gterm p => some (0x2C, p)
  | .gcancel p => some (0x2D, p)
  | _ => none

/-- A packet that reaches this device with a good header (R25, R27). -/
def State.reached (s : State) (op : Nat) (p : Packet) : Prop := p.op.toNat = op ∧ s.addressed p = true ∧ p.hchk = headerCheck p

/-- A packet that is taken: reached, well formed, and its payload good (R27, R28). -/
def State.takes (s : State) (op : Nat) (p : Packet) : Prop := s.reached op p ∧ packetOk p = true ∧ p.pchk = payloadCheck p.payload

/-- The state in which an attic record of a block has been read back into physical block `p`, and `top` bytes of frame records are left (R129, R180). -/
def State.refilled (s : State) (b : FrameBlock) (p top : Nat) (bs : List Byte) : State :=
  let f := atticFile b.file
  let w := f.width / 8
  let word (i : Nat) : Nat := match f with | .k => bits (nth 0 bs 16).toNat i 1 | _ => ofBytes ((bs.drop (16 + w * i)).take w)
  let at_ : Nat := match f with | .k => 32 | _ => 16 + 8 * w
  let taint (i : Nat) : BitVec 16 := BitVec.ofNat 16 (ofBytes ((bs.drop (at_ + 2 * i)).take 2)) &&& s.core.outstanding
  let cellOf (i : Nat) : RegCell := { val := BitVec.ofNat 2048 (word i), taint := taint i, dm := true }
  let c := (blockKeys f p).zipIdx.foldl (fun c k => c.setCell k.1 (cellOf k.2)) s.core
  { s with core := c.setCtl 0x31 (BitVec.ofNat 64 top) }

/-- The records of a spilled frame are read back one after the other, each from the attic's growing end, as far as all can be read (R129). -/
def State.refillAll (s : State) : List (FrameBlock × Nat) → Option State
  | [] => some s
  | (b, p) :: r =>
    let top := (s.core.ctl 0x31).toNat - recordLen b
    match readVirtual s s.core.id s.core.task.fn ((s.core.ctl 0x30).toNat + top) (recordLen b) with
    | .error _ => none
    | .ok (bs, u) => (u.refilled b p top bs).refillAll r

/-- The packet is the next one of the only connection that has a record, if any has, and nothing of it waits (R30, R35). -/
def State.nextOf (s : State) (p : Packet) : Prop :=
  let b := s.inboundOf p
  (s.fabric.inbound = [] ∨ s.fabric.inbound = [b]) ∧ b.seen = [] ∧ b.waiting = [] ∧ b.refused = [] ∧ p.seq.toNat = b.next % 2 ^ 16

/-- The connection's record once such a packet has arrived (R35). -/
def State.noted (s : State) (p : Packet) : State :=
  { s with fabric := { s.fabric with inbound := [{ s.inboundOf p with next := (s.inboundOf p).next + 1 }] } }

/-- A response is kept until it is acknowledged, and handed to the links (R36). -/
def State.responds (s : State) (p : Packet) (op : Nat) (bs : List Byte) : State :=
  let q := sealPacket (s.replyTo p op 0 bs)
  let k : Kept := { src := p.src.toNat, lane := p.lane.toNat, seq := p.seq.toNat, pkt := q, resends := 0 }
  ({ s with fabric := { s.fabric with kept := s.fabric.kept ++ [k] } } : State).emit q

/-- A spilled record that a refill brings on chip next: of the lowest bin of its slice within the window, or locked (R99, R105). -/
def Session.nextRefilled (x : Session) (r : Rec) : Bool :=
  let waits (q : Rec) : Bool := q.spilled && q.slice == r.slice && (q.lock || decide (q.bin ≤ x.fu + x.delta))
  decide (r.slice < 4) && waits r && x.recs.all (fun q => !waits q || decide (r.bin ≤ q.bin))

/-! Mailboxes (R63) -/

/-- A command in progress in a mailbox of function `f`, with its RESULT and output to come. -/
def State.working (s : State) (f : Nat) (service : Bool) (result : Nat) (out : List Byte) : State :=
  s.modBox f service (fun m => { m with busy := true, pendResult := result, pendOut := out })

/-- The commands that take an input: function, mailbox, INLEN given and INLEN needed (R63, log 16). -/
def mailForm (i : Instr) : Option (Nat × Bool × Nat × Nat) :=
  match i with
  | .quote f n => some (f.val, false, n, 64)
  | .assign f n => some (f.val, false, n, 40)
  | .ckptauth f n => some (f.val, false, n, 24)
  | .devnum f n => some (f.val, false, n, 2)
  | .gform f n => some (f.val, false, n, 16)
  | .gdissolve f n => some (f.val, false, n, 2)
  | .ckptsend f n => some (f.val, false, n, 16)
  | .tune n => some (0, true, n, 0)
  | .clkcap n => some (0, true, n, 4)
  | .log n => some (0, true, n, 0)
  | .unknownCommand f b _ => if b && f.val != 0 then none else some (f.val, b, 0, 0)
  | _ => none

end Sys2Proof.Machine
end

