-- ==== Sys2Proof/Certificates/Slice0/Obligations.lean ====
section
/-!
DEFINITION. The statements for the provers, one `def Obligations.<Name> : Prop` each.
-/
open Sys2Proof Sys2Proof.Machine

/-! Encoding, fetch and issue -/

/-- R239 to R259: decoding what the encoder writes for a well-formed operation gives it back, with or without the stop bit; rows that share one word
(qcoll by its ROLE, qirq by its action) come back as the first of them. The model's own readings here: log 7. -/
def Obligations.EncodeThenDecode : Prop :=
  ∀ i : Instr, i.wordless = false → i.wf = true → ∀ stop, decodeSyllables i.slotPos (encode i stop) = .ok i.canon

/-- R239, R250: no bit of a decoded operation is dropped. Syllables that decode, with the stop bit on none but the last, are those that the encoder writes
for what they decode to, and that operation is well formed. -/
def Obligations.DecodeThenEncode : Prop :=
  ∀ (p : SlotPos) (ws : List Syllable) (i : Instr), decodeSyllables p ws = .ok i → ws.dropLast.all (fun w => !w.getLsbD 31) = true →
    i.wf = true ∧ ((∀ t, i ≠ .btree t) → i.slotPos = p) ∧
    encode i ((ws.getLast?.getD 0).getLsbD 31) = ws

/-- The words that the spec's own examples assemble decode to what they stand for (R278, R304, R305, R309, R328, R330, R331, R338, R339 and the worked
encodings). -/
def Obligations.SpecWordsDecode : Prop :=
  decodeSyllables .s [0x05610100, 0xD0000020] = .ok (.ldD { r := 4, a := 1, cl := 0, o := 0, e := some 0x20 }) ∧
  decodeSyllables .s [0x8410FFFD] = .ok (.brk { n := 0, k := 1, o := 0x7FFD, e := none }) ∧
  decodeSyllables .s [0x02004101] = .ok (.addi { d := 1, a := 1, i := 1, e := none }) ∧
  decodeSyllables .s [0x0460C980, 0xD0000100] = .ok (.lnest { a := 3, n := 1, b := 12, p := some 0x100 }) ∧
  decodeSyllables .s [0x8B800000] = .ok .tend ∧
  decodeSyllables .s [0x61230020, 0x50000008, 0xD0FFFFEC] =
    .ok (.btree { shape := 0, nt := 1, p0 := 2, p1 := 3, p2 := 0, p3 := 0, pol := 2, offs := [8, 0xFFFFEC] }) ∧
  decodeSyllables .v0 [0x11220020, 0xD0010005] =
    .ok (.vdot2 { v := .v0, d := 4, a := 0, b := 1, m := 0, t := 0, g := some { c := 5, rm := 0, fi := 0, fo := 0, i := 1 } }) ∧
  decodeSyllables .v0 [0x11128C80, 0xD00F0000] =
    .ok (.vqshr { v := .v0, d := 5, a := 3, b := 4, m := 0, t := 0, g := some { c := 0, rm := 0, fi := 0, fo := 0, i := 15 } }) ∧
  decodeSyllables .v1 [0x12D30800, 0xD0003100] =
    .ok (.fcvt { v := .v1, d := 6, a := 2, b := 0, m := 0, t := 0, g := some { c := 0, rm := 0, fi := 1, fo := 3, i := 0 } }) ∧
  decodeSyllables .m [0xA000148C] = .ok (.mmaBf16 { z := 5, ga := 2, gb := 3, p := 0 }) ∧
  decodeSyllables .m [0x20901C04, 0xD0218000] = .ok (.mmasF8 { z := 7, ga := 0, gb := 1, p := 0, md := 0x18000, mc := 2 }) ∧
  decodeSyllables .m [0x21703100, 0xD0002C40] = .ok (.mdrainx { z := 12, g := 4, p := 0, pa := 0x2C40 }) ∧
  decodeSyllables .m [0xA1A40000] = .ok (.mcap { k := 4 }) ∧
  decodeSyllables .m [0xA1822000] = .ok (.gset { g := 2, f := 0, c := 4 }) ∧
  decodeSyllables .c0 [0xB1011040] = .ok (.cadd { v := .c0, d := 1, a := 1, i := 64, e := none }) ∧
  decodeSyllables .c0 [0xB2000000] = .ok (.qcopy { v := .c0, r := 0, nj := 0, ev := 0, m := none })

/-- R119, R240: a step runs the decoded operation. When nothing but the turn of the core in focus may happen and nothing is due at its boundary, and the
bundle at its pc is one operation without a header that decodes to `i` and breaks no rule of decoding, every result whose bound has passed lands
(R120) and the step runs `exec` of that operation (the row of a shared word by its register, R366 and R372) with the pc of the next bundle at hand: a
completed one is committed and takes its cycle, a faulted one leaves the state before the bundle but for the fault's delivery (R222), and a held one
leaves it a cycle later. The model's own readings here: log 6 and 7. -/
def Obligations.StepRunsDecodedOperation : Prop :=
  ∀ (s u t : State) (ws : List Syllable) (o : BundleOp) (i : Instr),
    s.inputs = [] → s.powered = true → s.acts = [.turn s.core.id] →
    let r := s.land
    r.core.owed = [] → r.core.run = .running → r.core.waitRun = none →
    r.core.dueFault = none → r.core.trapDue = false → r.core.divertDue = false → (r.core.savePend || r.core.forced) = false →
    r.core.eventFirst = false → r.core.carveOver = false → r.core.inLibrary = false →
    r.fetchBundle = .ok (ws, u) →
    Bundle.empty.read ws = { hdr := none, ops := [o], tree := none, leaves := [], bad := none, len := ws.length } →
    decodeOp o.pos o.syl (o.ext.map extBits) = .ok i → (u.core.level = .u → privOp i = false) →
    let v : State := { u with core := { u.core with
      npc := u.core.pc + BitVec.ofNat 64 (4 * ws.length), taken := none, defer := [], leaf := 0,
      cur := { slot := slotNum o.pos, syl := o.syl, ext := o.ext.getD 0 } } }
    exec (v.resolveOp i) v = .next t →
    step s = .next (match t.core.mark with
      | .done => t.commitBundle u.body? 0
      | .trapped f => u.trapBundle f
      | .stalled => u.hold t)

/-- R222, R228: a bundle that decodes with a fault has no effect but the delivery of that fault: the first in the order of R228. R240, R244: a bundle of a
legal header alone issues as one empty cycle followed by its W cycles; the pc goes to the next syllable and nothing else changes. The model's own
readings here: log 31, 32 and 33. -/
def Obligations.BundlesThatDoNothing : Prop :=
  (
  ∀ (s u : State) (ws : List Syllable) (f : FaultInfo), s.fetchBundle = .ok (ws, u) →
    firstRanked (u.decodeFaults (Bundle.empty.read ws)) = some f → s.issueBundle = .next (u.trapBundle f)) ∧ (
  ∀ (s u : State) (h : Syllable), s.fetchBundle = .ok ([h], u) → kindOf h = 4 → isStop h = true →
    firstRanked (u.decodeFaults (Bundle.empty.read [h])) = none → (field h 22 2).toNat = 0 → u.core.nestAct = false →
    u.core.flights = [] → u.core.tflights = [] → u.core.pflights = [] → u.core.drains = [] →
    ∃ t, s.issueBundle = .next t ∧ t.core.pc = u.core.pc + 4 ∧ t.core.cycle = u.core.cycle + 1 + (field h 24 3).toNat ∧ t.core.regs = u.core.regs ∧
      t.core.cr = u.core.cr ∧ t.core.order = u.core.order ∧ t.core.rets = u.core.rets ∧ t.core.tiles = u.core.tiles ∧ t.mem = u.mem ∧
      t.larder = u.larder ∧ t.pantry = u.pantry ∧ t.fns = u.fns)

/-- R120, R270: a bounded result enters its flight at the commit, due its latency after the issue, and from that cycle on the register holds it. R120:
when bounded results of one register are on their way together, one of the values written lands, when the last bound has passed (which one is free).
That State.core.regs keeps the register's old contents before the bound is the model's representation alone (log 4, log 11): R120 calls a value read
before the bound undefined, and a read finds a free value there (OperandsOnTheirWay). R119, R120, R121, R346, R316: what each effect of a bundle makes
of its core at the commit, one after the other, and nothing else: an interlocked result that is at hand, a control register, a tile and its bound, a
row pair and a pattern on their way, the banks of the pattern store, the return addresses, taints emptied, a handler left, a trap, an operation to
emulate, a bank's format, a carve element, the nest's end, a task's or a stub's end, and ring bytes given back; new maps drop what is on its way to
the blocks they free (R277). A row pair, a pattern and a tile's bound land as a register does. R119: the commit goes on at the next pc a cycle, and W
and a transfer's 2 cycles, later, and keeps what its effects left. The model's own readings here: log 1. -/
def Obligations.BoundedResultLands : Prop :=
  (∀ s : State,
    let c := s.core
    let one (e : Effect) (d : Core) : Prop := c.defer = [e] → s.applyEffects = { s with core := { d with defer := [] } }
    (∀ key cell lat, one (.reg key cell lat) { c with
      flights := c.flights.filter (fun x => x.key != key || decide (c.cycle < x.ready)) ++ [{ key := key, cell := cell, ready := c.cycle + lat }] }) ∧
    (∀ key cell, one (.landed key cell) { c with
      regs := SMap.set RegCell.zero c.regs key cell, flights := c.flights.filter (fun x => x.key != key) }) ∧
    (∀ n v, one (.cr n v) { c with cr := SMap.set 0 c.cr n v }) ∧
    (∀ z v lat, one (.tile z v lat) { c with
      tiles := SMap.put c.tiles z v, tflights := c.tflights ++ [{ z := z, row := none, v := 0, ready := c.cycle + lat }] }) ∧
    (∀ z h v lat, one (.tileRows z h v lat) { c with
      tflights := c.tflights.filter (fun x => x.z != z || x.row != some h || decide (c.cycle < x.ready)) ++
        [{ z := z, row := some h, v := v, ready := c.cycle + lat }] }) ∧
    (∀ slot entry v lat,
      let key := 128 * slot + 64 * (1 - nth 0 c.patBank slot) + entry
      one (.pattern slot entry v lat) { c with
        pflights := c.pflights.filter (fun x => x.key != key || decide (c.cycle < x.ready)) ++ [{ key := key, v := v, ready := c.cycle + lat }] }) ∧
    (∀ slot, one (.swapPatterns slot) { c with patBank := c.patBank.set slot (1 - nth 0 c.patBank slot) }) ∧
    (∀ r, one (.rets r) { c with rets := r }) ∧
    one .clearPath { c with order := { c.order with ptaint := 0, pdm := false } } ∧
    (∀ key, c.defer = [.clearTaint key] → let t := s.applyEffects
      t.core.cell key = { c.cell key with taint := 0, dm := false } ∧ (∀ k, k ≠ key → t.core.cell k = c.cell k) ∧
      t.core.flights = c.flights.map (fun x => if x.key = key then { x with cell := { x.cell with taint := 0, dm := false } } else x) ∧
      t.core.specials = c.specials.map (fun x => if x.key = key then { x with cell := { x.cell with taint := 0, dm := false } } else x) ∧
      t.core.order.acc = c.order.acc.map (fun a => if key ∈ a.dsts then { a with clean := key :: a.clean } else a) ∧
      t.core.order.ptaint = c.order.ptaint ∧ t.core.cr = c.cr ∧ t.core.tiles = c.tiles ∧ t.mem = s.mem ∧ t.larder = s.larder ∧ t.pantry = s.pantry) ∧
    (∀ l h sup, one (.leave l h sup) { c with level := l, handler := h, sup := sup, deferred :=
      if h = .main ∧ sup = false then c.deferred.map (fun (g : FaultInfo) => { g with held := false }) else c.deferred }) ∧
    one .leaveRestore { c with cr := SMap.set 0 c.cr 0x36 0 } ∧
    (∀ imm, one (.swtrap imm) { c with deferred := c.deferred ++ [{ c.faultOf 0x40 with slot := 0, kind := 1, d0 := BitVec.ofNat 64 imm }] }) ∧
    (∀ e, one (.emulate e) { c with emul := some e }) ∧
    (∀ b v, one (.fmt b v) { c with bfmt := SMap.set 0 c.bfmt b v }) ∧
    (∀ tagged fmts, c.defer = [.carve tagged fmts] →
      let t := s.applyEffects
      let hi := max tagged c.tagged
      let n := hi - min tagged c.tagged
      t.core.tagged = tagged ∧ (∀ b, SMap.get 0 t.core.bfmt b = if b < 16 then bits fmts (4 * b) 4 else SMap.get 0 c.bfmt b) ∧
      (n = 0 → t.core.tags = c.tags ∧ t.core.hand = c.hand ∧ t.core.carve = c.carve) ∧
      (n ≠ 0 → t.core.tags = [] ∧ t.core.hand = 0 ∧
        t.core.carve = some { banks := (List.range n).map (fun i => 16 - hi + i), until_ := c.cycle + 32 + 8 * n }) ∧
      t.core.regs = c.regs ∧ t.core.cr = c.cr ∧ t.core.tiles = c.tiles ∧ t.mem = s.mem ∧ t.pantry = s.pantry) ∧
    one .endNest { c with cr := SMap.set 0 c.cr 0x38 (c.ctl 0x38 &&& 0x7FFFFFFFFFFFFFFF) } ∧
    one .endTask { c with run := .ending, endPc := c.pc } ∧ one .leaveStub { c with run := .leaving, endPc := c.pc } ∧
    (∀ n, one (.give n) { c with ring := { c.ring with ci := c.ring.ci + n } }) ∧
    (∀ e es, c.defer = e :: es → (∀ m fr sp, Effect.maps m fr sp ∉ e :: es) →
      let u := ({ s with core := { c with defer := [e] } } : State).applyEffects
      s.applyEffects = ({ u with core := { u.core with defer := es } } : State).applyEffects) ∧
    (∀ m fr sp es, c.defer = .maps m fr sp :: es → (∀ m fr sp, Effect.maps m fr sp ∉ es) →
      let u := ({ s with core := { c with defer := es } } : State).applyEffects
      let t := s.applyEffects
      let gone (k : Nat) : Prop := ∃ f ∈ renamed, ∃ p ∈ c.maps.of f, p ∉ m.of f ∧ (∀ b ∈ fr.flatten, b.file = atticCode f → b.phys ≠ p) ∧ k ∈ blockKeys f p
      t.core.maps = m ∧ t.core.frames = fr ∧ t.core.spilled = sp ∧ t.core.regs = u.core.regs ∧ t.core.cr = u.core.cr ∧ t.core.tiles = u.core.tiles ∧
      (∀ x, x ∈ t.core.flights ↔ x ∈ u.core.flights ∧ ¬ gone x.key) ∧ (∀ x, x ∈ t.core.specials ↔ x ∈ u.core.specials ∧ ¬ gone x.key) ∧
      t.core.order.acc.length = u.core.order.acc.length ∧
      (∀ p ∈ u.core.order.acc.zip t.core.order.acc, p.2 = { p.1 with dsts := p.2.dsts } ∧ ∀ k, k ∈ p.2.dsts ↔ k ∈ p.1.dsts ∧ ¬ gone k) ∧
      t.mem = s.mem ∧ t.larder = s.larder ∧ t.pantry = s.pantry)) ∧ (
  (∀ (s : State) (n : Nat) (x : Flight), s.core.flights = [x] →
    (s.core.cycle + n < x.ready → (s.tick n).core.flights = [x] ∧ (s.tick n).core.regs = s.core.regs) ∧
    (x.ready ≤ s.core.cycle + n → (s.tick n).core.flights = [] ∧ (s.tick n).core.regs = SMap.set RegCell.zero s.core.regs x.key x.cell) ∧
    (s.tick n).core.cycle = s.core.cycle + n ∧ (s.tick n).mem = s.mem ∧ (s.tick n).core.cr = s.core.cr) ∧
  (∀ (s : State) (n : Nat) (x : TileFlight), s.core.tflights = [x] →
    (s.core.cycle + n < x.ready → (s.tick n).core.tflights = [x] ∧ (s.tick n).core.tiles = s.core.tiles) ∧
    (x.ready ≤ s.core.cycle + n → (s.tick n).core.tflights = [] ∧ (x.row = none → (s.tick n).core.tiles = s.core.tiles) ∧
      ∀ h, x.row = some h → h < 16 → (∀ i j, i < 32 → j < 32 → tileWord ((s.tick n).core.tileAt x.z) i j =
          if i / 2 = h then bits x.v.toNat (32 * (32 * (i % 2) + j)) 32 else tileWord (s.core.tileAt x.z) i j) ∧
        ∀ z, z ≠ x.z → (s.tick n).core.tileAt z = s.core.tileAt z)) ∧
  (∀ (s : State) (n : Nat) (x : PatFlight), s.core.pflights = [x] →
    (s.core.cycle + n < x.ready → (s.tick n).core.pflights = [x] ∧ (s.tick n).core.patterns = s.core.patterns) ∧
    (x.ready ≤ s.core.cycle + n → (s.tick n).core.pflights = [] ∧ (s.tick n).core.patterns = SMap.set 0 s.core.patterns x.key x.v)) ∧
  (∀ (s : State) (w : Nat),
    let u := s.applyEffects.core
    let t := s.commitBundle none w
    let d := t.core
    d.pc = s.core.npc ∧ d.xfer = s.core.taken ∧ d.taken = none ∧ d.mark = .done ∧
    d.cycle = s.core.cycle + 1 + w + (if s.core.taken.isSome then 2 else 0) ∧ d.cr = u.cr ∧ d.maps = u.maps ∧ d.frames = u.frames ∧ d.spilled = u.spilled ∧
    d.rets = u.rets ∧ d.level = u.level ∧ d.handler = u.handler ∧ d.sup = u.sup ∧ d.run = u.run ∧ d.endPc = u.endPc ∧ d.emul = u.emul ∧
    d.deferred = u.deferred ∧ d.bfmt = u.bfmt ∧ d.tagged = u.tagged ∧ d.tags = u.tags ∧ d.hand = u.hand ∧ d.carve = u.carve ∧ d.ring = u.ring ∧
    d.patBank = u.patBank ∧ d.order = u.order ∧ d.specials = u.specials ∧ d.queues = u.queues ∧ (u.flights = [] → d.regs = u.regs) ∧
    (u.tflights = [] → d.tiles = u.tiles) ∧ (u.pflights = [] → d.patterns = u.patterns) ∧ t.mem = s.mem ∧ t.larder = s.larder ∧ t.pantry = s.pantry)) ∧ (
  ∀ (s : State) (n : Nat) (x y : Flight), s.core.flights = [x, y] → x.key = y.key → x.ready ≤ s.core.cycle + n → y.ready ≤ s.core.cycle + n →
    (s.tick n).core.flights = [] ∧
    ((s.tick n).core.regs = SMap.set RegCell.zero s.core.regs x.key x.cell ∨ (s.tick n).core.regs = SMap.set RegCell.zero s.core.regs y.key y.cell)) ∧
  (∀ s : State, (∃ t, exec .boundedResultWrite s = .next t ∧ t.core.cycle = s.core.cycle ∧ t.mem = s.mem) ∧
    (∀ x, s.core.flights = [x] → x.ready ≤ s.core.cycle → ∃ t, exec .boundedResultWrite s = .next t ∧ t.core.flights = [] ∧
      t.core.regs = SMap.set RegCell.zero s.core.regs x.key x.cell))

/-- R124: FL = 01 lets a bundle run when every index up to its level is 0, FL = 10 when each is its count less one; otherwise the bundle is annulled: it
issues as one empty cycle. FL = 11, and FL ≠ 00 outside an active nest body, fault ILLEGAL_INSTR. -/
def Obligations.FirstAndLastBundles : Prop :=
  (∀ (c : Core) (l : Nat), (c.flTaken 1 l = true ↔ ∀ m, m ≤ l → c.ctl (0x48 + m) = 0) ∧
    (c.flTaken 2 l = true ↔ ∀ m, m ≤ l → c.ctl (0x48 + m) = c.ctl (0x40 + m) - 1)) ∧
  (∀ (s u : State) (ws : List Syllable), s.fetchBundle = .ok (ws, u) →
    firstRanked (u.decodeFaults (Bundle.empty.read ws)) = none →
    s.issueBundle = if u.core.flTaken (Bundle.empty.read ws).first (Bundle.empty.read ws).level then u.runBundle (Bundle.empty.read ws)
      else .next (u.skipBundle (Bundle.empty.read ws))) ∧
  (∀ (s : State) (b : Bundle), s.core.flights = [] → s.core.tflights = [] → s.core.pflights = [] → s.core.drains = [] →
    (s.core.pc + BitVec.ofNat 64 (4 * b.len)).toNat ≠ s.nestBody.2 →
    let t := s.skipBundle b
    t.core.pc = s.core.pc + BitVec.ofNat 64 (4 * b.len) ∧ t.core.cycle = s.core.cycle + 1 ∧ t.core.regs = s.core.regs ∧ t.core.cr = s.core.cr ∧
    t.core.order = s.core.order ∧ t.core.rets = s.core.rets ∧ t.core.tiles = s.core.tiles ∧ t.mem = s.mem ∧ t.larder = s.larder ∧ t.pantry = s.pantry ∧
    t.fns = s.fns) ∧
  (∀ (s u : State) (ws : List Syllable), s.fetchBundle = .ok (ws, u) → (Bundle.empty.read ws).hdr.isSome = true →
    ((Bundle.empty.read ws).first = 3 ∨ ((Bundle.empty.read ws).first ≠ 0 ∧ u.inNest = false)) →
    ∃ f, s.issueBundle = .next (u.trapBundle f) ∧ f.code = 0x01)


/-! Scalar arithmetic, compares and predicates -/

/-- R271: every integer, logic and field form completes and leaves exactly one result on its way: the value the rule gives, computed here over exact
integers, with the taints of its operands (R174), its latency, in the register that its destination names at issue (R270). No other register, control
register or byte of memory changes. R273: every compare and predicate operation completes and writes its one predicate, latency 1: a op b as signed
values, or as unsigned in the u forms, with the immediate sign-extended in both; nothing else changes. -/
def Obligations.ScalarFormsComplete : Prop :=
  (
  ∀ (i : Instr) (f : RegForm) (s : State), scalarForm i = some f → i.wf = true → s.powered = true → f.ready s.core = true →
    exec i s = .next (f.leaves s)) ∧ (
  ∀ (i : Instr) (f : RegForm) (s : State), predicateForm i = some f → s.powered = true → f.ready s.core = true →
    exec i s = .next (f.leaves s))

/-- R272: quotient and remainder of the signed and unsigned forms, and the corner values of their table; no division faults. -/
def Obligations.DivisionResults : Prop :=
  ∀ (o : SR3) (s : State), s.powered = true → s.core.ready (.s, o.a.toNat) = true → s.core.ready (.s, o.b.toNat) = true →
    s.core.free (.s, o.d.toNat) = true →
    let a := s.core.regVal (.s, o.a.toNat)
    let b := s.core.regVal (.s, o.b.toNat)
    let result (v : Nat) : State := s.leaves [s.core.writes (.s, o.d.toNat) v [(.s, o.a.toNat), (.s, o.b.toNat)] 18]
    (∃ q r : Nat, exec (.div o) s = .next (result q) ∧ exec (.rem o) s = .next (result r) ∧ q < 2 ^ 64 ∧ r < 2 ^ 64 ∧
      (b = 0 → q = 0xFFFFFFFFFFFFFFFF ∧ r = a) ∧
      (signed a = -2 ^ 63 ∧ signed b = -1 → signed q = -2 ^ 63 ∧ r = 0) ∧
      (b ≠ 0 ∧ ¬(signed a = -2 ^ 63 ∧ signed b = -1) → signed a = signed q * signed b + signed r ∧ (signed r).natAbs < (signed b).natAbs ∧
        (signed r = 0 ∨ (signed r < 0 ↔ signed a < 0)))) ∧
    (∃ q r : Nat, exec (.divu o) s = .next (result q) ∧ exec (.remu o) s = .next (result r) ∧
      (b = 0 → q = 0xFFFFFFFFFFFFFFFF ∧ r = a) ∧ (b ≠ 0 → a = q * b + r ∧ r < b))

/-- R120, R121: of every scalar, predicate, lane, mask and copy form that reads registers and writes one with a bound, any source that an interlocked
result is on its way to holds the bundle, and so does a pending destination; a source whose bound has not passed reads as a free value of its file's
width, and the form still completes, its result computed from that value. The model's own readings here: log 4. -/
def Obligations.OperandsOnTheirWay : Prop :=
  ∀ (i : Instr) (f : RegForm) (s : State), regForm i = some f → i.wf = true → s.powered = true →
    (∀ r ∈ f.srcs, s.core.pending (s.core.phys r.1 r.2) = true → s.holdsBundle i) ∧
    (f.srcs.all s.core.free = true → s.core.pending (s.core.phys f.dst.1 f.dst.2) = true → s.holdsBundle i) ∧
    (f.srcs.all s.core.free = true → s.core.free f.dst = true →
      ∃ (cells : List RegCell) (n : Nat), cells.length = f.srcs.length ∧
        (∀ p ∈ f.srcs.zip cells, if s.core.inFlight (s.core.phys p.1.1 p.1.2) = true then p.2.val.toNat < 2 ^ p.1.1.width
          else p.2 = s.core.reg p.1) ∧
        exec i s = .next { s.leaves [.reg (s.core.phys f.dst.1 f.dst.2)
          (result (f.val ((f.srcs.zip cells).map (fun p => p.2.val.toNat % 2 ^ p.1.1.width))) cells) f.lat] with fresh := s.fresh + n })


/-! Control transfers (R274, R247, R128) -/

/-- R274, R175, R248: br goes to its offset in syllables from the bundle; jmp to its register, an indirect target; brk when k XOR N is 1. The sources of
jmp and brk join the path taint whichever way they go. Nothing else changes. R246, R247, R175: a tree completes on every outcome of its tests: its
predicates join the path taint, its leaf is the first test that is true (leaf 0 when none is) or, in the split shape, the one that tests 0 and 1, or 2
and 3, choose; a leaf other than 0 goes to its offset. -/
def Obligations.BranchesAndTrees : Prop :=
  (
  ∀ s : State, s.powered = true →
    (∀ o : SB, exec (.br o) s = .next (s.begun.goes (s.core.pc + 4 * joinImm o.o o.e) false)) ∧
    (∀ o : S1, s.core.ready (.s, o.r.toNat) = true →
      exec (.jmp o) s = .next ((s.begun.joins [(.s, o.r.toNat)]).goes (s.core.word (.s, o.r.toNat)) true)) ∧
    (∀ o : SC, s.core.ready (.k, o.k.toNat) = true →
      exec (.brk o) s = .next (
        if ((s.core.reg (.k, o.k.toNat)).flag ^^ (o.n == 1)) = true then
          (s.begun.joins [(.k, o.k.toNat)]).goes (s.core.pc + 4 * joinImm o.o o.e) false
        else s.begun.joins [(.k, o.k.toNat)]))) ∧ (
  (∀ (t : Tree) (s : State), s.powered = true →
    let ks : List Reg := (List.range t.tests).map (fun i => (File.k, (testOf t i).1.toNat))
    let outcomes := (List.range t.tests).map (fun i => (s.core.reg (.k, (testOf t i).1.toNat)).flag ^^ (testOf t i).2)
    let leaf := treeLeaf (t.shape == 1) outcomes
    s.core.allReady ks = true →
    exec (.btree t) s = .next (
      let u : State := { (s.begun.joins ks) with core := { (s.begun.joins ks).core with leaf := leaf } }
      if leaf = 0 then u else u.goes (s.core.pc + 4 * (nth 0 t.offs (leaf - 1)).signExtend 64) false)) ∧
  (∀ (ts : List Bool) (n : Nat), treeLeaf false ts = n ↔
    (n = 0 ∧ ∀ b ∈ ts, b = false) ∨ (∃ i, n = i + 1 ∧ ts[i]? = some true ∧ ∀ j, j < i → ts[j]? = some false)) ∧
  (∀ a b c d : Bool, treeLeaf true [a, b, c, d] = if a then (if b then 1 else 2) else if c then 3 else if d then 4 else 0))

/-- R128, R125: a call with fewer than 16 return addresses on chip leaves the address of the next bundle on top of them, and a call out of a nest body
ends the nest; with 16, the oldest 8 go to the attic in one record of 80 bytes. ret takes the top one and goes there; with none on chip it reads the
newest record back, without the zeros that a full save filled it up with (R138). The model's own readings here: log 45. -/
def Obligations.CallsAndReturns : Prop :=
  ∀ s : State, s.powered = true →
    let ends : List Effect := if s.inNest then [.endNest] else []
    (s.core.rets.length < 16 →
      (∀ o : SB, exec (.call o) s = .next ((s.leaves (.rets (s.core.npc :: s.core.rets) :: ends)).goes (s.core.pc + 4 * joinImm o.o o.e) false)) ∧
      (∀ o : S1, s.core.ready (.s, o.r.toNat) = true → exec (.callr o) s =
        .next (((s.leaves (.rets (s.core.npc :: s.core.rets) :: ends)).joins [(.s, o.r.toNat)]).goes (s.core.word (.s, o.r.toNat)) true))) ∧
    (∀ (o : SB) (u : State), s.core.rets.length = 16 →
      let below := (s.core.ctl 0x32).toNat
      ¬ s.core.task.atticSize < (s.core.ctl 0x31).toNat + below + 80 →
      writeSelf s.begun s.core.id s.core.task.fn ((s.core.ctl 0x30).toNat + s.core.task.atticSize - below - 80)
        ([2, 0, 0, 0] ++ toBytes 4 80 ++ toBytes 8 0 ++ (s.core.rets.drop 8).reverse.flatMap (fun w => toBytes 8 w.toNat)) = .ok u →
      ∃ t, exec (.call o) s = .next t ∧ t.core.mark = .done ∧ t.core.ctl 0x32 = BitVec.ofNat 64 (below + 80) ∧
        t.core.npc = s.core.pc + 4 * joinImm o.o o.e ∧ .rets (s.core.npc :: s.core.rets.take 8) ∈ t.core.defer) ∧
    (∀ (o : SB), 16 ≤ s.core.rets.length → s.core.task.atticSize < (s.core.ctl 0x31).toNat + (s.core.ctl 0x32).toNat + 80 →
      exec (.call o) s = .next (s.traps (s.core.faultOf 0x14))) ∧
    (∀ (a : Word) (r : List Word), s.core.rets = a :: r → exec .ret s = .next ((s.leaves [.rets r]).goes a false)) ∧
    (s.core.rets = [] → s.core.ctl 0x32 = 0 → exec .ret s = .next (s.traps (s.core.syllableFault 0x02))) ∧
    (∀ (u : State) (bs : List Byte), s.core.rets = [] → s.core.ctl 0x32 ≠ 0 →
      readVirtual s.begun s.core.id s.core.task.fn ((s.core.ctl 0x30).toNat + s.core.task.atticSize - (s.core.ctl 0x32).toNat) 80 = .ok (bs, u) →
      let padding := match s.core.pads.find? (fun p => p.1 == (s.core.ctl 0x32).toNat) with | some p => p.2 | none => 0
      let es : List Word := (((List.range 8).map (fun i => BitVec.ofNat 64 (ofBytes ((bs.drop (16 + 8 * i)).take 8)))).reverse).drop padding
      ∃ t, exec .ret s = .next t ∧ t.core.mark = .done ∧ t.core.npc = es.headD 0 ∧
        t.core.ctl 0x32 = BitVec.ofNat 64 ((s.core.ctl 0x32).toNat - 80) ∧ .rets es.tail ∈ t.core.defer)


/-! The loop nest (R123, R125, R275, R276) -/

/-- R275, R118: lnest with its counts and its table at hand sets the whole nest: after its commit LNCTL holds length, levels and ACT, LNBODY the next
bundle's address, every level its count (1 above the levels), index 0 and its eight increments (0 without a table). The counts join the path taint.
With a count of 0 the body is skipped and the nest is left inactive. Memory, the pantry and the general registers stay. R276, R125: lexit in an active
body ends the nest and execution goes on after the body; anywhere else it is ILLEGAL_OPERAND, and so is lnest while a nest is active. R123: at the end
of a run the eight increments of the level that ends go to c0 to c7 and nowhere else. With runs left its index counts on; otherwise it starts again at
0 and the level above follows, and above the outermost level the nest ends. Here for registers that no result is on its way to. The model's own
readings here: log 27. -/
def Obligations.LoopNests : Prop :=
  (
  (
  ∀ (o : SL) (s : State), (Instr.lnest o).wf = true → s.powered = true → s.core.nestAct = false → s.core.defer = [] →
    let n := o.n.toNat
    let count (l : Nat) : Word := s.core.word (.s, o.a.toNat + l)
    (∀ l, l < n → s.core.ready (.s, o.a.toNat + l) = true ∧ (count l).toNat < 2 ^ 32) →
    (∀ p, o.p = some p → s.core.pantryOpen = true ∧ s.pantryCode s.core.id p.toNat 256 = none ∧ s.defined s.core.id p.toNat (32 * n) = true) →
    let inc (l j : Nat) : Word := match o.p with
      | some p => if l < n then (BitVec.ofNat 32 (ofBytes ((List.range 4).map (fun i =>
          s.pantryByte s.core.id (p.toNat + 32 * l + 4 * j + i))))).signExtend 64 else 0
      | none => 0
    let skips := (List.range n).any (fun l => count l == 0)
    ∃ t, exec (.lnest o) s = .next t ∧ t.core.mark = .done ∧
      t.core.order.ptaint = s.core.order.ptaint ||| taintOf ((List.range n).map (fun l => s.core.reg (.s, o.a.toNat + l))) ∧
      t.mem = s.mem ∧ t.pantry = s.pantry ∧ t.core.regs = s.core.regs ∧ t.core.flights = s.core.flights ∧
      (skips = false → t.core.npc = s.core.npc ∧ t.core.taken = s.core.taken) ∧
      (skips = true → t.core.npc = BitVec.ofNat 64 (t.afterBundles s.core.npc.toNat (o.b.toNat + 1)) ∧ t.core.taken.isSome = true) ∧
      let c := t.applyEffects.core
      c.ctl 0x38 = BitVec.ofNat 64 ((if skips then 0 else 2 ^ 63) + n * 256 + o.b.toNat) ∧ c.ctl 0x39 = s.core.npc ∧
      (∀ l, l < 6 → c.ctl (0x40 + l) = (if l < n then count l else 1) ∧ c.ctl (0x48 + l) = 0 ∧
        ∀ j, j < 8 → c.ctl (0x80 + 8 * l + j) = inc l j)) ∧ (
  ∀ s : State, s.powered = true →
    (s.inNest = true → exec .lexit s = .next ((s.leaves [.endNest]).goes (BitVec.ofNat 64 s.nestBody.2) false)) ∧
    (s.inNest = false → exec .lexit s = .next (s.traps (s.core.syllableFault 0x02))) ∧
    (∀ o : SL, s.core.nestAct = true → exec (.lnest o) s = .next (s.traps (s.core.syllableFault 0x02))))) ∧ (
  (∀ (s : State) (l : Nat) (ls : List Nat), s.core.flights = [] → (∀ k, s.core.pending k = false) → nth 0 s.core.maps.c 0 < 8 → l < 6 →
    ∃ u : State, (∀ j, j < 8 → u.core.word (.c, j) = s.core.word (.c, j) + s.core.ctl (0x80 + 8 * l + j)) ∧
      (∀ (f : File) (k : Nat), f ≠ .c → k < 1024 → u.core.cell (regKey f.num k) = s.core.cell (regKey f.num k)) ∧
      (∀ n, n ≠ 0x48 + l → u.core.ctl n = s.core.ctl n) ∧ u.mem = s.mem ∧ u.pantry = s.pantry ∧
      (if (s.core.ctl (0x48 + l)).toNat < (s.core.ctl (0x40 + l) - 1).toNat then
        u.core.ctl (0x48 + l) = s.core.ctl (0x48 + l) + 1 ∧ nestAdvance (l :: ls) s = (u, true)
      else u.core.ctl (0x48 + l) = 0 ∧ nestAdvance (l :: ls) s = nestAdvance ls u)) ∧
  (∀ s : State, (nestAdvance [] s).2 = false ∧ (nestAdvance [] s).1.core.nestAct = false ∧
    ∀ n, n ≠ 0x38 → (nestAdvance [] s).1.core.ctl n = s.core.ctl n))


/-! Register blocks (R126, R127, R277) -/

/-- R127, R277: acq with room for its frame pushes the old mappings and maps every named block to a free physical block whose contents are undefined (a
free value, log 4) without a taint; every other register keeps its contents, and giving the frame back restores the maps. acq.f with room does the
same and sets kp under the new maps; without room it clears kp and acquires nothing. No mask, or s block 7 or k block 1 in a handler, is
ILLEGAL_OPERAND. R127, R277, R130, R180: rel takes the newest frame off and restores its mappings from the next bundle on; with no frame on chip the
newest spilled one is read back from the attic, its last record first, where every record can be read, and ATTIC_FAULT is raised where one cannot;
with no frame at all it is ILLEGAL_OPERAND. The model's own readings here: log 38. -/
def Obligations.RegisterBlocks : Prop :=
  (
  ∀ (s : State) (bs : List (File × Nat)), s.powered = true → s.core.maps.shaped = true → (∀ k, s.core.pending k = false) →
    let legal := !bs.isEmpty && !(s.core.inHandler && (bs.contains (.s, 7) || bs.contains (.k, 1)))
    let takes (t : State) (m : Maps) (es : List Effect) : Prop := t.core.mark = .done ∧ s.core.maysMap bs m ∧
      t.core.defer = s.core.defer ++ .maps m (s.core.maps.frameOf bs :: s.core.frames) s.core.spilled :: es ∧
      (∀ f b, (f, b) ∈ bs → ∀ k ∈ blockKeys f (nth 0 (m.of f) b), (t.core.cell k).taint = 0 ∧ (t.core.cell k).dm = false) ∧
      (∀ k, (∀ f b, (f, b) ∈ bs → k ∉ blockKeys f (nth 0 (m.of f) b)) → t.core.cell k = s.core.cell k) ∧
      t.mem = s.mem ∧ t.pantry = s.pantry ∧ t.core.cr = s.core.cr ∧ t.core.npc = s.core.npc
    (∀ o : SQ, bs = maskBlocks o.s.toNat o.v.toNat o.w.toNat o.c.toNat o.d.toNat (o.k.getD 0).toNat →
      (legal = true → s.core.roomFor bs = true → ∃ t m, exec (.acq o) s = .next t ∧ takes t m []) ∧
      (legal = false → exec (.acq o) s = .next (s.traps (s.core.syllableFault 0x02)))) ∧
    (∀ o : SQF, bs = maskBlocks o.s.toNat o.v.toNat o.w.toNat o.c.toNat o.d.toNat o.k.toNat →
      (legal = true → s.core.roomFor bs = true → ∃ t m, exec (.acqF o) s = .next t ∧
        takes t m [.reg (Core.phys { s.core with maps := m } .k o.kp.toNat) (result 1 []) 1]) ∧
      (legal = true → s.core.roomFor bs = false →
        exec (.acqF o) s = .next (s.leaves [s.core.writes (.k, o.kp.toNat) 0 [] 1])) ∧
      (legal = false → exec (.acqF o) s = .next (s.traps (s.core.syllableFault 0x02))))) ∧ (
  ∀ s : State, s.powered = true →
    (∀ fr rest, s.core.frames = fr :: rest →
      exec .rel s = .next (s.leaves [.maps (s.core.maps.giveBack fr) rest s.core.spilled])) ∧
    (s.core.frames = [] → s.core.spilled = [] → exec .rel s = .next (s.traps (s.core.syllableFault 0x02))) ∧
    (∀ shape rest, s.core.frames = [] → s.core.spilled = shape :: rest →
      let names := shape.map (fun b => (atticFile b.file, b.block))
      let pairs := (shape.zip (takeBlocks [] s.core.maps names).2).map (fun p => (p.1, p.2.2))
      (∀ u, s.begun.refillAll pairs.reverse = some u → exec .rel s = .next { u with core := { u.core with
        defer := u.core.defer ++ [.maps (pairs.reverse.foldl (fun m p => m.put (atticFile p.1.file) p.1.block p.2) s.core.maps) [] rest] } }) ∧
      (s.begun.refillAll pairs.reverse = none → ∃ f, f.code = 0x14 ∧ exec .rel s = .next (s.traps f))))


/-! Events, traps and returns (R134, R135, R285, R133, R230) -/

/-- R134, R285, R132, R135: wfe clears a set EVLATCH and completes, and otherwise sleeps; sev with every earlier access performed posts event bit 3 to a
core that runs a task of the same job, waits while one is not, and takes no number above 255; watch and a write of WATCH with bit 0 arm the line of
their address, a write without it disarms. R285, R222, R250: trap ends its bundle normally and leaves a deferred-precise SWTRAP fault with its
immediate; an unassigned opcode faults ILLEGAL_INSTR with its syllable. -/
def Obligations.EventsAndTraps : Prop :=
  (
  ∀ s : State, s.powered = true →
    (s.core.ctl 0x26 ≠ 0 → exec .wfe s = .next (s.leaves [.cr 0x26 0])) ∧
    (s.core.ctl 0x26 = 0 → ∃ t, exec .wfe s = .next t ∧ t.core.mark = .stalled ∧ t.core.asleep = true ∧ t.core.defer = s.core.defer) ∧
    (∀ o : S1, s.core.ready (.s, o.r.toNat) = true →
      let a := s.core.word (.s, o.r.toNat)
      (a.toNat ≤ 255 → s.core.order.acc = [] → exec (.sev o) s = .next (
        if (s.begun.coreAt a.toNat).run ≠ .idle ∧ (s.begun.coreAt a.toNat).task.fn = s.core.task.fn then s.begun.post a.toNat 3 s.core.id
        else s.begun)) ∧
      (a.toNat ≤ 255 → s.core.order.acc ≠ [] → ∃ t, exec (.sev o) s = .next t ∧ t.core.mark = .stalled ∧ t.mem = s.mem) ∧
      (255 < a.toNat → exec (.sev o) s = .next (s.traps (s.core.regFault (.s, o.r.toNat)))) ∧
      (∀ pa u, s.begun.xlate s.core.id s.core.task.fn (a &&& ~~~ 127).toNat .read = .ok (pa, u) →
        exec (.watch o) s = .next { u with core := { u.core with watchPa := pa, defer := u.core.defer ++ [.cr 0x27 ((a &&& ~~~ 127) ||| 1)] } })) ∧
    (∀ o : SWF, s.core.ready (.s, o.r.toNat) = true →
      let a := s.core.word (.s, o.r.toNat)
      let line := a &&& 0x00FFFFFFFFFFFF80
      (a.getLsbD 0 = false → exec (.watchRegister o) s = .next (s.leaves [.cr 0x27 line])) ∧
      (∀ pa u, a.getLsbD 0 = true → s.begun.xlate s.core.id s.core.task.fn line.toNat .read = .ok (pa, u) →
        exec (.watchRegister o) s = .next { u with core := { u.core with watchPa := pa, defer := u.core.defer ++ [.cr 0x27 (line ||| 1)] } }))) ∧ (
  ∀ s : State, s.powered = true →
    (∀ o : SH, exec (.trap o) s = .next (s.leaves [.swtrap o.i.toNat]) ∧ (s.core.defer = [] →
      (s.leaves [.swtrap o.i.toNat]).applyEffects.core.deferred =
        s.core.deferred ++ [{ s.core.faultOf 0x40 with slot := 0, kind := 1, d0 := BitVec.ofNat 64 o.i.toNat }])) ∧
    (∀ w : Syllable, exec (.unassignedOpcode w) s =
      .next (s.traps (Core.syllableFault { s.core with cur := { s.core.cur with syl := w } } 0x01))))

/-- R230, R133, R237, R139, R285: retu goes back to the saved pc and leaves the innermost context: the supervisor handler to the level that SSTAT keeps, a
user handler to main code, an emulation trap to the level of its task (with a fault the library reports, and the path taint of its entry, R238), a
restore routine to the bundle that was diverted. With a frame more than at its entry, or in main code, it is ILLEGAL_OPERAND. The model's own readings
here: log 36. -/
def Obligations.ReturnsFromHandlers : Prop :=
  ∀ s : State, s.powered = true →
    let c := s.core
    let balanced := c.frames.length + c.spilled.length ≤ c.entryFrames
    (c.sup = true → exec .retu s = .next ((s.leaves [.leave (if (c.ctl 0x104).getLsbD 0 then .s else .u) c.handler false]).goesBack
      (c.ctl 0x102) c.sepc0 c.sxfer)) ∧
    (c.sup = false → c.handler = .user → balanced → exec .retu s =
      .next ((s.leaves [.leave c.level .main false]).goesBack (c.ctl 0x25) c.uepc0 c.uxfer)) ∧
    (c.sup = false → c.handler = .emul → balanced → ∃ t, exec .retu s = .next t ∧
      t.core.defer = c.defer ++ [.leave (if c.task.root then .s else .u) .main false] ∧ t.core.npc = c.ctl 0x25 ∧ t.core.serving = none ∧
      t.core.order = (match c.serving with | none => c.order | some e => c.pathBack e) ∧
      t.core.deferred = c.deferred ++ (match c.serving with | none => [] | some e => emulationFault c e)) ∧
    (c.sup = false → c.handler ≠ .main → ¬ balanced → exec .retu s = .next (s.traps (c.syllableFault 0x02))) ∧
    (c.sup = false → c.handler = .main → c.ctl 0x36 = 3 → exec .retu s = .next ((s.leaves [.leaveRestore]).goesBack c.rpc c.rpc c.rxfer)) ∧
    (c.sup = false → c.handler = .main → c.ctl 0x36 ≠ 3 → exec .retu s = .next (s.traps (c.syllableFault 0x02)))


/-! Control registers and mappings (R118, R286, R164, R234, R287, R296) -/

/-- R286, R118, R229, R234: a control register marked for the level reads and writes; CYCLE reads the core's cycle, SVEC, SREC and PGRANT read the job's,
MAPREQ reads 0, which is the model's choice. A write is seen from the next bundle on, in the bits the register keeps; SVEC, SREC and PGRANT belong to
the job. R221, R250: what a level may not do, and what no register is: a control register from 0x100 on, tlbinv, mapreq, pgrant and phase fault PRIV
at U level and change nothing else; a number that is no readable, or no writable, register is ILLEGAL_OPERAND. The model's own readings here: log 125
and 126. -/
def Obligations.ControlRegisters : Prop :=
  (
  ∀ s : State, s.powered = true →
    let job := s.jobAt s.core.task.fn
    (∀ o : SW, crReadable o.n.toNat = true → s.core.free (.s, o.r.toNat) = true → (0x100 ≤ o.n.toNat → s.core.level = .s) →
      ∃ v : Word, exec (.cread o) s = .next (s.leaves [s.core.writes (.s, o.r.toNat) v.toNat [] 1]) ∧
        (o.n.toNat = 0x003 → v = BitVec.ofNat 64 s.core.cycle) ∧ (∀ j, job = some j → o.n.toNat = 0x100 → v = j.svec) ∧
        (∀ j, job = some j → o.n.toNat = 0x101 → v = j.srec) ∧ (∀ j, job = some j → o.n.toNat = 0x105 → v = j.pgrant.zeroExtend 64) ∧
        (o.n.toNat = 0x106 → v = 0) ∧
        (o.n.toNat ≠ 0x003 ∧ o.n.toNat ≠ 0x100 ∧ o.n.toNat ≠ 0x101 ∧ o.n.toNat ≠ 0x105 ∧ o.n.toNat ≠ 0x106 → v = s.core.ctl o.n.toNat)) ∧
    (∀ o : SW, (Instr.cwrite o).wf = true → s.core.ready (.s, o.r.toNat) = true → crWritable o.n.toNat = true → (0x100 ≤ o.n.toNat → s.core.level = .s) →
      (isNestReg o.n.toNat = true → s.begun.inNest = false) →
      let v := s.core.word (.s, o.r.toNat)
      (o.n.toNat ≠ 0x100 → o.n.toNat ≠ 0x101 → exec (.cwrite o) s = .next (s.leaves [.cr o.n.toNat (ctlMask o.n.toNat v)])) ∧
      (o.n.toNat = 0x100 → exec (.cwrite o) s = .next (s.begun.modJob s.core.task.fn (fun j => { j with svec := v }))) ∧
      (o.n.toNat = 0x101 → exec (.cwrite o) s = .next (s.begun.modJob s.core.task.fn (fun j => { j with srec := v })))) ∧
    (∀ o : SWF, s.core.ready (.s, o.r.toNat) = true →
      let v := s.core.word (.s, o.r.toNat)
      exec (.evlatchWrite o) s = .next (s.leaves [.cr 0x26 (v &&& 1)]) ∧
      (v.toNat % 4096 = 0 → exec (.trapbaseWrite o) s = .next (s.leaves [.cr 0x20 v])) ∧
      (v.toNat % 4096 ≠ 0 → exec (.trapbaseWrite o) s = .next (s.traps (s.core.regFault (.s, o.r.toNat)))) ∧
      (s.begun.inNest = false → exec (.lnctlWrite o) s = .next (s.leaves [.cr 0x38 (v &&& 0x800000000000073F)])) ∧
      (s.begun.inNest = true → exec (.lnctlWrite o) s = .next (s.traps (s.core.syllableFault 0x02))) ∧
      (s.core.level = .s → exec (.pgrant o) s = .next (s.begun.modJob s.core.task.fn (fun j => { j with pgrant := v.truncate 32 }))))) ∧ (
  ∀ s : State, s.powered = true →
    (s.core.level = .u →
      (∀ o : SW, crReadable o.n.toNat = true → 0x100 ≤ o.n.toNat → exec (.cread o) s = .next (s.traps (s.core.syllableFault 0x04))) ∧
      (∀ o : SW, (Instr.cwrite o).wf = true → s.core.ready (.s, o.r.toNat) = true → crWritable o.n.toNat = true → 0x100 ≤ o.n.toNat →
        exec (.cwrite o) s = .next (s.traps (s.core.syllableFault 0x04))) ∧
      (∀ o : S1, exec (.tlbinv o) s = .next (s.traps (s.core.syllableFault 0x04))) ∧
      (∀ o : SWF, exec (.mapreq o) s = .next (s.traps (s.core.syllableFault 0x04)) ∧
        exec (.pgrant o) s = .next (s.traps (s.core.syllableFault 0x04))) ∧
      (∀ o : SH, exec (.phase o) s = .next (s.traps (s.core.syllableFault 0x04)))) ∧
    (∀ o : SW, crReadable o.n.toNat = false → exec (.cread o) s = .next (s.traps (s.core.syllableFault 0x02))) ∧
    (∀ o : SW, s.core.ready (.s, o.r.toNat) = true → crWritable o.n.toNat = false →
      exec (.cwrite o) s = .next (s.traps (s.core.syllableFault 0x02))))

/-- R164, R88, R12, R287, R296: a mapping request at S level, with its 32 bytes readable and every earlier access performed, changes the job's mappings or
is refused, and MAPSTAT says which: 1 for a rule that it breaks, 2 for memory that is not the function's and nothing else (log entry 61). A mapping
that is taken is in form, inside the function's memory share and in standing regions, and meets no other; a removal takes out every mapping that lies
wholly inside its range, and no other (log entry 20). capr gives the address of the record it asks for, latency 4 and no taint, or 0; the spec's
example is 0x368 into the page. tlbinv at S level takes the job's translations of the page, or all of them, out of every TLB and leaves all others.
The model's own readings here: log 20 and 61. -/
def Obligations.MappingRequests : Prop :=
  (∀ (o : SWF) (s u w : State) (pa : Nat) (bs : List Byte) (j : Job), s.powered = true → s.core.level = .s →
    s.core.ready (.s, o.r.toNat) = true →
    let va := (s.core.word (.s, o.r.toNat)).toNat
    let f := w.core.task.fn
    va < 2 ^ 56 → va % 32 = 0 → s.begun.translate va [.read] = .ok (pa, u) → u.core.order.acc = [] →
    readVirtual u u.core.id u.core.task.fn va 32 = .ok (bs, w) → w.jobAt f = some j →
    exec (.mapreq o) s = .next (match w.mapRequest f j bs with
      | .error why => { w with core := { w.core with defer := w.core.defer ++ [.cr 0x107 (BitVec.ofNat 64 why)] } }
      | .ok ms =>
        let x := w.modJob f (fun j => { j with maps := ms })
        { x with core := { x.core with defer := x.core.defer ++ [.cr 0x107 0] } })) ∧
  (∀ (s : State) (f : Nat) (j : Job) (bs : List Byte) (ms : List Mapping), s.mapRequest f j bs = .ok ms →
    let m := (mappingOf bs).1
    ((mappingOf bs).2.testBit 5 = false → m ∈ ms ∧ m.formOk = true ∧ s.rangeOk m.pa m.len = true ∧ (s.fnAt f).owns m.pa m.len = true ∧
      ∀ x ∈ ms, x = m ∨ (x ∈ j.maps ∧ overlaps x.va x.len m.va m.len = false)) ∧
    ((mappingOf bs).2.testBit 5 = true → ∀ x, x ∈ ms ↔ x ∈ j.maps ∧ ¬ (m.va ≤ x.va ∧ x.va + x.len ≤ m.va + m.len))) ∧
  (∀ (s : State) (f : Nat) (j : Job) (bs : List Byte) (why : Nat), s.mapRequest f j bs = .error why →
    let m := (mappingOf bs).1
    (why = 1 ∨ why = 2) ∧ (why = 2 → (mappingOf bs).2.testBit 5 = false ∧ m.formOk = true ∧ s.rangeOk m.pa m.len = true ∧
      (s.fnAt f).owns m.pa m.len = false)) ∧
  (∀ (o : SZ) (s : State), s.powered = true → s.core.ready (.s, o.a.toNat) = true → s.core.free (.s, o.r.toNat) = true →
    let f := s.core.task.fn
    exec (.capr o) s = .next (s.leaves [s.core.writes (.s, o.r.toNat)
      (match findRecord 8192 o.t.toNat (if o.t = 0 then 0 else (s.core.word (.s, o.a.toNat)).toNat) (capPage f (s.fnAt f).ext) 0 with
        | some off => (BitVec.ofNat 64 (Config.window + off)).toNat
        | none => 0) [] 4])) ∧
  (∀ (f : Nat) (x : Extension), findRecord 8192 0x21 0 (capPage f (some x)) 0 = some 0x368) ∧
  (∀ (o : S1) (s : State), s.powered = true → s.core.level = .s → s.core.ready (.s, o.r.toNat) = true →
    let a := s.core.word (.s, o.r.toNat)
    let gone (e : TlbEntry) : Bool := e.fn == s.core.task.fn && (a == BitVec.allOnes 64 || e.m.covers a.toNat)
    ∃ t, exec (.tlbinv o) s = .next t ∧ t.core.mark = .done ∧ t.core.tlb = s.core.tlb.filter (fun e => !gone e) ∧
      t.l2 = s.l2.filter (fun p => !gone p.2) ∧ t.mem = s.mem ∧ t.larder = s.larder ∧ t.core.regs = s.core.regs ∧ t.core.cr = s.core.cr ∧
      (∀ c ∈ s.parked, c.2.id = c.1 → c.1 ≠ s.core.id → ∀ e ∈ (t.coreAt c.1).tlb, gone e = false))


/-! Global memory (R142 to R184, R278 to R284) -/

/-- R278, R279, R281 to R283, R143, R163: every scalar load, store and atomic whose address is in range, aligned and translated is issued: its access
takes its place in the order with its operands, its destinations and its class, and the operation is complete. (A load that the store buffer serves:
see StoreBufferForwards.) -/
def Obligations.AccessesAreIssued : Prop :=
  ∀ (i : Instr) (f : AccForm) (s u : State) (pa : Nat), accForm i = some f → i.wf = true → s.powered = true → s.core.allReady f.srcs = true →
    f.dsts.all s.core.free = true → (f.va s.core).toNat < 2 ^ 56 → (f.va s.core).toNat % f.size = 0 →
    s.begun.translate (f.va s.core).toNat f.needs = .ok (pa, u) →
    ((f.acc []).kind.returns = true ∧ f.needs = [.read] ∧ (f.acc []).acquire = false →
      u.core.served (f.acc []).cls (f.srcs.map u.core.reg) (f.va s.core).toNat pa f.size [] = none) →
    exec i s = .next (u.issues (f.access u.core pa) (f.srcs.map u.core.reg) f.release f.hold)

/-- R171, R173, R176, R177, R182 to R184, R169, R300: an access that is issued is the youngest. It waits for the earlier accesses of its class (but class
0), those its taints or the path's name, returning qcels among them, those of its release mask, those a fence or an acquire holds its class back for,
and those to the same bytes (of bytes that both enable, so not for one that meets its inactive lanes alone), and for no others; a returning one takes
the lowest free tag of 0 to 14, or 15 when these are outstanding; later accesses of its hold mask wait for it, and the update-only lines of its
release mask are merged when it is performed (R156). The model's own readings here: log 42. -/
def Obligations.AccessesAreOrdered : Prop :=
  (∀ (x : Access) (pa len : Nat) (need : List Bool), 0 < len → 0 < x.len → (x.meets pa len need = true ↔
    ∃ i, i < len ∧ nth true need i = true ∧ x.pa ≤ pa + i ∧ pa + i < x.pa + x.len ∧ nth true x.enable (pa + i - x.pa) = true)) ∧
  (∀ (s : State) (a : Access) (cells : List RegCell) (hold release : BitVec 16),
    let o := s.core.order
    let t := s.issues a cells release hold
    let taint := taintOf cells ||| o.ptaint
    ∃ x : Access, t.core.order.acc = o.acc ++ [x] ∧ x.id = o.nextId ∧ x.kind = a.kind ∧ x.va = a.va ∧ x.pa = a.pa ∧ x.len = a.len ∧ x.data = a.data ∧
      x.operand = a.operand ∧ x.expect = a.expect ∧ x.cls = a.cls ∧ x.dsts = a.dsts ∧ x.acquire = a.acquire ∧ x.merge = release ∧ x.pc = s.core.pc ∧
      (∀ n, n ∈ x.after ↔
        (∃ y ∈ o.acc, y.id = n ∧ ((a.cls ≠ 0 ∧ y.cls = a.cls) ∨ (∃ k, y.tag = some k ∧ taint.getLsbD k = true) ∨
          (taint.getLsbD 15 = true ∧ y.kind.returns = true) ∨ release.getLsbD y.cls = true ∨ y.meets a.pa a.len a.enable = true)) ∨
        (∃ h ∈ o.holds, h.ma.getLsbD a.cls = true ∧ n ∈ h.ids) ∨
        (∃ q ∈ s.core.queues, ∃ e ∈ q.entries, e.id = n ∧ ∃ k, e.tag = some k ∧ (taint.getLsbD k = true ∨ taint.getLsbD 15 = true))) ∧
      (a.kind.returns = true → ∃ k, x.tag = some k ∧ k ≤ 15 ∧ (k < 15 → s.core.outstanding.getLsbD k = false) ∧
        ∀ j, j < k → s.core.outstanding.getLsbD j = true) ∧
      (a.kind.returns = false → x.tag = none) ∧
      t.core.order.holds = (if hold = 0 then o.holds else o.holds ++ [{ ids := [x.id], ma := hold, mb := 0, l1 := false }]) ∧
      t.core.regs = s.core.regs ∧ t.core.flights = s.core.flights ∧ t.core.defer = s.core.defer ∧ t.core.cr = s.core.cr ∧ t.mem = s.mem ∧
      t.larder = s.larder ∧ t.pantry = s.pantry)

/-- R179: a load whose every byte older stores of the own store buffer supply completes with those bytes at once, with the stores' taints and without a
tag: the youngest store of a byte gives it. That holds where no earlier access of its class (R171), no load that its taints name (R176) and no fence
or acquire before it (R182 to R184) keeps it waiting, nor a returning qcel that they name (R173), and outside the task's own attic (R129). The model's
own readings here: log 41. -/
def Obligations.StoreBufferForwards : Prop :=
  (∀ (i : Instr) (f : AccForm) (size : Nat) (sg : Bool) (o : SG) (s u : State) (pa : Nat) (bs : List Byte) (fwd : List Access),
    accForm i = some f → f.srcs = [(.s, o.a.toNat)] → f.dsts = [(.s, o.r.toNat)] → (f.acc []).kind = .load size sg → (f.acc []).acquire = false →
    s.powered = true → s.core.allReady f.srcs = true → f.dsts.all s.core.free = true →
    (f.va s.core).toNat < 2 ^ 56 → (f.va s.core).toNat % f.size = 0 → s.begun.translate (f.va s.core).toNat [.read] = .ok (pa, u) →
    u.core.served (f.acc []).cls [u.core.reg (.s, o.a.toNat)] (f.va s.core).toNat pa size [] = some (bs, fwd) →
    exec i s = .next { u with core := { u.core with defer := u.core.defer ++ [.landed (u.core.phys .s o.r.toNat)
      { val := BitVec.ofNat 2048 (loadValue size sg bs), taint := fwd.foldl (fun t x => t ||| x.taint) (u.core.reg (.s, o.a.toNat)).taint,
        dm := (u.core.reg (.s, o.a.toNat)).dm || fwd.any (fun x => x.dm) }] } }) ∧
  (∀ (c : Core) (cls va pa len : Nat) (cells : List RegCell) (need : List Bool) (bs : List Byte) (fwd : List Access),
    c.served cls cells va pa len need = some (bs, fwd) →
      let taint := taintOf cells ||| c.order.ptaint
      c.order.forward pa len need = some (bs, fwd) ∧ (∀ x ∈ c.order.acc, cls ≠ 0 → x.cls ≠ cls) ∧
      (∀ h ∈ c.order.holds, h.ma.getLsbD cls = true → h.ids = []) ∧
      (∀ x ∈ c.order.acc, ∀ k, x.tag = some k → taint.getLsbD k = false) ∧
      (∀ q ∈ c.queues, ∀ e ∈ q.entries, ∀ k, e.tag = some k → taint.getLsbD k = false ∧ taint.getLsbD 15 = false) ∧
      ∀ i, i < len → c.ownsAttic (va + i) = false) ∧
  (∀ (o : Order) (pa len : Nat) (need : List Bool) (bs : List Byte) (fwd : List Access), (o.acc.map (fun x => x.id)).Nodup →
    o.forward pa len need = some (bs, fwd) →
    bs.length = len ∧ (∀ x ∈ fwd, x ∈ o.acc ∧ x.kind = .store ∧ overlaps x.pa x.len pa len = true) ∧
    (∀ (older younger : List Access) (x : Access) (i : Nat), fwd = older ++ x :: younger → i < len → nth true need i = true →
      x.pa ≤ pa + i → pa + i < x.pa + x.len → nth true x.enable (pa + i - x.pa) = true →
      (∀ y ∈ younger, ¬ (y.pa ≤ pa + i ∧ pa + i < y.pa + y.len ∧ nth true y.enable (pa + i - y.pa) = true)) →
      nth 0 bs i = nth 0 x.data (pa + i - x.pa)))

/-- R162, R163, R12: with nothing held in a TLB an address translates as the job's mappings say, to the byte at its distance from the mapping's start,
when the page's region stands and its permission allows the access; where no mapping covers it, or it lies outside 56 bits, the code is DATA_XLATE,
and where the permission is missing DATA_PERM. Only TLBs change. R416, R143, R163: an access above the address space faults DATA_XLATE, then a
misaligned one ALIGN with its size, then one whose page does not translate or may not be used so DATA_XLATE or DATA_PERM, with the address and its
register's taint; the fault is precise, and nothing of the access is left. -/
def Obligations.TranslationAndFaults : Prop :=
  (
  ∀ (s : State) (f va : Nat) (n : Need) (j : Job), s.core.tlb = [] → s.l2 = [] → s.jobAt f = some j →
    (2 ^ 56 ≤ va → s.xlate s.core.id f va n = .error 0x11) ∧
    (va < 2 ^ 56 → ((j.maps ++ windowMaps f (s.libraryOf f)).all (fun m => !m.covers va)) = true → s.xlate s.core.id f va n = .error 0x11) ∧
    (∀ (m : Mapping), va < 2 ^ 56 → (j.maps ++ windowMaps f (s.libraryOf f)).find? (fun m => m.covers va) = some m → m.formOk = true → m ∈ j.maps →
      (s.regionOk (m.pageAt va).pa = true →
        ((n = .read ∨ (n = .write ∧ m.w = true) ∨ (n = .fetch ∧ m.x = true)) → (m.pageAt va).pa < 2 ^ 48 →
          ∃ t, s.xlate s.core.id f va n = .ok (m.pa + (va - m.va), t) ∧ t.mem = s.mem ∧ t.larder = s.larder ∧ t.pantry = s.pantry ∧ t.fns = s.fns ∧
            t.core.regs = s.core.regs ∧ t.core.cr = s.core.cr ∧ t.core.order = s.core.order ∧ t.core.defer = s.core.defer) ∧
        ((n = .write ∧ m.w = false) ∨ (n = .fetch ∧ m.x = false) → s.xlate s.core.id f va n = .error 0x12)) ∧
      ((m.pageAt va).pa < 2 ^ 48 → s.regionOk (m.pageAt va).pa = false → s.xlate s.core.id f va n = .error 0x11))) ∧ (
  ∀ (i : Instr) (f : AccForm) (s : State), accForm i = some f → i.wf = true → s.powered = true → s.core.allReady f.srcs = true →
    let va := f.va s.core
    let at_ (code : Nat) : FaultInfo := { s.core.faultOf code with
      addr := va, taint := (s.core.reg (f.srcs.headD (.s, 0))).taint, dm := (s.core.reg (f.srcs.headD (.s, 0))).dm }
    (2 ^ 56 ≤ va.toNat → exec i s = .next (s.traps (at_ 0x11))) ∧
    (va.toNat < 2 ^ 56 → va.toNat % f.size ≠ 0 → exec i s = .next (s.traps { at_ 0x13 with d0 := BitVec.ofNat 64 f.size })) ∧
    (∀ code, va.toNat < 2 ^ 56 → va.toNat % f.size = 0 → s.begun.translate va.toNat f.needs = .error code →
      exec i s = .next (s.traps (at_ code)) ∧ (code = 0x11 ∨ code = 0x12)))

/-- R171, R165, R154: a store of plain lines whose turn has come is performed: its enabled bytes stand in memory, every other byte is as before, it leaves
the order, and what waited for it no longer does. (R129: the bytes of the task's own attic that it meets are the exception: nothing is said of them,
nor of a load there.) No register and no pantry byte changes. R178, R165, R278, R170: a load of plain lines that the L1 may not serve returns: its
register holds the bytes at the Larder, extended as its form says, with the dependence mark; its tag is free, unless another load holds it (then it
stays in the register's taint, R177), and after a tclr it lands with none (R181); the access leaves the order. No byte of memory and no other
register's value changes. Here with no update-only line held, which a release or a fence would merge first (R156). The model's own readings here: log
10. -/
def Obligations.AccessesArePerformed : Prop :=
  (
  ∀ (s : State) (id : Nat) (a : Access), s.mayPerform id a → a.kind = .store → a.dsts = [] → a.tag = none → 0 < a.len → a.acquire = false →
    a.data.length = a.len → (a.enable = [] ∨ a.enable.length = a.len) → s.core.upd = [] → s.plainRange a.pa a.len →
    ∃ t, exec (.storePerformed id) s = .next t ∧
      (∀ p, (a.pa ≤ p ∧ p < a.pa + a.len → s.core.ownsAttic (a.va.toNat + (p - a.pa)) = false) →
        t.byteAt p = if a.pa ≤ p ∧ p < a.pa + a.len ∧ nth true a.enable (p - a.pa) = true then nth 0 a.data (p - a.pa) else s.byteAt p) ∧
      t.core.order.acc = s.core.order.without id ∧ t.core.regs = s.core.regs ∧ t.core.flights = s.core.flights ∧ t.pantry = s.pantry ∧
      t.fns = s.fns ∧ t.core.pc = s.core.pc ∧ t.core.defer = s.core.defer) ∧ (
  ∀ (s : State) (id : Nat) (a : Access) (size k tg : Nat) (sg : Bool), s.mayPerform id a → a.kind = .load size sg → a.dsts = [k] → a.tag = some tg →
    tg < 16 → a.len = size → 0 < size → a.l1 = false → a.acquire = false → s.core.upd = [] → s.plainRange a.pa size →
    ∃ t, exec (.loadReturn id) s = .next t ∧
      (s.core.meetsAttic a.va.toNat size = false → (t.core.cell k).val = BitVec.ofNat 2048 (loadValue size sg (s.bytesFrom a.pa size))) ∧
      t.core.inFlight k = false ∧
      (a.clean.contains k = true → (t.core.cell k).taint = 0 ∧ (t.core.cell k).dm = false) ∧
      (a.clean.contains k = false → (∃ x ∈ s.core.order.acc, x.id ≠ id ∧ x.tag = some tg) → (t.core.cell k).taint.getLsbD tg = true) ∧
      (∀ n, n ≠ k → (t.core.cell n).val = (s.core.cell n).val) ∧ (∀ p, t.byteAt p = s.byteAt p) ∧
      ((∀ x ∈ s.core.order.acc, x.id ≠ id → x.tag ≠ some tg) → (∀ q ∈ s.core.queues, ∀ e ∈ q.entries, e.tag ≠ some tg) →
        (a.clean.contains k = false → (t.core.cell k).dm = true) ∧ (∀ n, (t.core.cell n).taint.getLsbD tg = false) ∧ t.core.order.ptaint.getLsbD tg = false ∧
        (∀ n, n ≠ k → (s.core.cell n).taint.getLsbD tg = true → (t.core.cell n).dm = true)) ∧
      (t.core.order.acc.map (fun x => x.id)) = ((s.core.order.acc.filter (fun x => x.id != id)).map (fun x => x.id)) ∧
      t.pantry = s.pantry ∧ t.core.pc = s.core.pc)

/-- R281, R184, R48: a returning atomic of a plain line is one step: its register gets the old value and its bytes the new one, add modulo its width, the
bitwise forms, the smaller or larger in signed or unsigned order, or the operand; cas stores its operand only where the old value is the expected one.
(In the task's own attic nothing is said of its bytes and its value, R129.) R158: a word that exact additions have reached resolves to their exact sum
with the word, rounded once, and any other word to its own value; the spec's example, two additions of 2^-24 to 1.0, gives 0x3F800001; and an addition
changes no byte of memory before the line is resolved. The model's own readings here: log 44. -/
def Obligations.AtomicsArePerformed : Prop :=
  (
  (∀ (s : State) (id k tg : Nat) (a : Access), s.mayPerform id a → a.dsts = [k] → a.tag = some tg → tg < 16 → (a.len = 4 ∨ a.len = 8) →
    a.pa % a.len = 0 → a.acquire = false → a.failAcquire = false → s.core.upd = [] → s.plainRange a.pa a.len →
    let old := ofBytes (s.bytesFrom a.pa a.len)
    let leaves (t : State) (v : Nat) : Prop :=
      (s.core.meetsAttic a.va.toNat a.len = false → (t.core.cell k).val = BitVec.ofNat 2048 old ∧
        ∀ p, a.pa ≤ p → p < a.pa + a.len → t.byteAt p = BitVec.ofNat 8 (v / 2 ^ (8 * (p - a.pa)))) ∧
      (∀ p, ¬ (a.pa ≤ p ∧ p < a.pa + a.len) → t.byteAt p = s.byteAt p) ∧
      (∀ n, n ≠ k → (t.core.cell n).val = (s.core.cell n).val)
    (∀ op, a.kind = .amo op → op ≤ 8 →
      ∃ t, exec (.loadReturn id) s = .next t ∧ leaves t (atomicValue op (8 * a.len) old (a.operand.toNat % 2 ^ (8 * a.len)))) ∧
    (a.kind = .cas → ∃ t, exec (.loadReturn id) s = .next t ∧
      leaves t (if old = a.expect.toNat % 2 ^ (8 * a.len) then a.operand.toNat else old))) ∧
  (∀ op w old b : Nat, op ≤ 8 → 0 < w → old < 2 ^ w → b < 2 ^ w → atomicOp op w old b = atomicValue op w old b)) ∧ (
  (∀ (s t : State) (f pa x : Nat), pa % 4 = 0 → s.plain (pa / 128) → s.exactAdd f pa [x] = some t →
    (∀ p, t.byteAt p = s.byteAt p) ∧
    let w := (Exact.ofFp32 (ofBytes (s.bytesFrom pa 4))).add xsForm (fpDecode fp32 x)
    ofBytes ((t.resolve (pa / 128)).bytesFrom pa 4) = w.toFp32 % 2 ^ 32 ∧
    ∀ p, p / 4 ≠ pa / 4 → (t.resolve (pa / 128)).byteAt p = s.byteAt p) ∧
  (((Exact.ofFp32 0x3F800000).add xsForm (fpDecode fp32 0x33800000)).add xsForm (fpDecode fp32 0x33800000)).toFp32 = 0x3F800001)

/-- R182, R156, R181, R284, R295: a fence completes at once. With nothing before it, at any scope, no update-only line of a class of MB is left (R156).
Below device scope no later access waits for it. At device scope the earlier accesses of MB are held before later ones of MA and the L1 goes; with MA
or MB zero no later access waits. With both masks, at any scope, the pantry writes of the M slot that are on their way come before later pantry
accesses. tclr empties one taint from the next bundle on; tquery reads tags, mark and taint; tsync completes when none of the tags it names is
outstanding, with tag 15 named when no tag is, and otherwise holds its bundle. ldisc with its range in form and writable issues one discard for each
line. The model's own readings here: log 42. -/
def Obligations.OrderingOperations : Prop :=
  ∀ s : State, s.powered = true →
    (∀ o : SF,
      let moves (t : State) : Prop := if o.ma ≠ 0 ∧ o.mb ≠ 0 then
          t.core.drains = s.core.drains.map (fun d => { d with fenced := true }) ∧ (∀ x ∈ t.core.steered, x.bytes ≠ [] → x.fenced = true) ∧
          t.core.steered.map (fun x => x.id) = s.core.steered.map (fun x => x.id)
        else t.core.drains = s.core.drains ∧ t.core.steered = s.core.steered
      (o.sco.toNat < 2 → s.core.upd = [] → ∃ t, exec (.fence o) s = .next t ∧ t.core.mark = .done ∧ moves t ∧ t.core.l1 = s.core.l1 ∧
        t.core.order.acc = s.core.order.acc ∧ (∀ h ∈ s.core.order.holds, h ∈ t.core.order.holds) ∧
        (∀ h ∈ t.core.order.holds, h ∈ s.core.order.holds ∨ (h.ma = 0 ∧ h.mb = o.mb ∧ h.l1 = false)) ∧
        t.core.regs = s.core.regs ∧ t.core.defer = s.core.defer ∧ t.mem = s.mem ∧ t.larder = s.larder) ∧
      (s.core.order.acc = [] → s.core.order.holds = [] → ∃ t, exec (.fence o) s = .next t ∧ t.core.mark = .done ∧
        ∀ u ∈ t.core.upd, o.mb.getLsbD u.cls = false) ∧
      (2 ≤ o.sco.toNat → s.core.upd = [] → ∃ t, exec (.fence o) s = .next t ∧ t.core.mark = .done ∧ moves t ∧
        t.core.l1 = (if o.ma = 0 then s.core.l1 else []) ∧ t.core.regs = s.core.regs ∧
        t.core.order.acc = s.core.order.acc ∧ t.core.defer = s.core.defer ∧ t.mem = s.mem ∧ t.larder = s.larder ∧
        (∀ x ∈ s.core.order.acc, o.mb.getLsbD x.cls = true → ∃ h ∈ t.core.order.holds, h.ma = o.ma ∧ h.mb = o.mb ∧ x.id ∈ h.ids) ∧
        (∀ h ∈ s.core.order.holds, h ∈ t.core.order.holds) ∧ (∀ h ∈ t.core.order.holds, h ∈ s.core.order.holds ∨ h.ma = o.ma) ∧
        (o.mb = 0 → t.core.order.holds = s.core.order.holds))) ∧
    (∀ o : STC, exec (.tclr o) s = .next (s.leaves [if o.f = 6 then .clearPath else .clearTaint (s.core.phys (taintFile o.f) o.n.toNat)])) ∧
    (∀ o : ST, s.core.free (.s, o.r.toNat) = true →
      let q := if o.f = 6 then (s.core.order.ptaint, s.core.order.pdm) else s.core.taintAt (s.core.phys (taintFile o.f) o.n.toNat)
      exec (.tquery o) s = .next (s.leaves [s.core.writes (.s, o.r.toNat)
        (s.core.outstanding.toNat * 2 ^ 32 + q.2.toNat * 2 ^ 16 + q.1.toNat) [] 1])) ∧
    (∀ o : SH, (s.core.outstanding &&& o.i = 0 → o.i.getLsbD 15 = false ∨ s.core.outstanding = 0 → exec (.tsync o) s = .next s.begun) ∧
      (s.core.outstanding &&& o.i ≠ 0 ∨ (o.i.getLsbD 15 = true ∧ s.core.outstanding ≠ 0) →
        ∃ t, exec (.tsync o) s = .next t ∧ t.core.mark = .stalled ∧ t.core.regs = s.core.regs)) ∧
    (∀ o : SRD, s.core.ready (.s, o.a.toNat) = true → s.core.ready (.s, o.b.toNat) = true →
      let a := (s.core.word (.s, o.a.toNat)).toNat
      let n := (s.core.word (.s, o.b.toNat)).toNat
      (a % 128 = 0 ∧ n % 128 = 0 ∧ 128 ≤ n ∧ n ≤ 2 ^ 20 ∧ a + n ≤ 2 ^ 56 →
        ∀ pas u, s.begun.translateAll .write ((List.range (n / 128)).map (fun i => a + 128 * i)) = .ok (pas, u) →
        ∃ t, exec (.ldisc o) s = .next t ∧ t.core.mark = .done ∧ t.core.order.acc.take s.core.order.acc.length = s.core.order.acc ∧
          (t.core.order.acc.drop s.core.order.acc.length).map (fun x => x.pa) = pas ∧
          (∀ x ∈ t.core.order.acc.drop s.core.order.acc.length, x.kind = .discard ∧ x.cls = 0 ∧ x.len = 128 ∧ x.dsts = [] ∧ x.tag = none) ∧
          t.mem = s.mem ∧ t.larder = s.larder ∧ t.core.regs = s.core.regs) ∧
      (¬ (a % 128 = 0 ∧ n % 128 = 0 ∧ 128 ≤ n ∧ n ≤ 2 ^ 20) →
        exec (.ldisc o) s = .next (s.traps (s.core.regFault (.s, if a % 128 = 0 then o.b.toNat else o.a.toNat)))))


/-! The pantry (R144, R280) -/

/-- R280, R144, R193: a pantry load with its address in a standing half of a bank, aligned and defined, leaves its value with latency 4; a store writes
its bytes at once and no other byte of any pantry. A wrong address faults as R416 orders: PANTRY_RANGE past the end, ALIGN, BANK_RETIRED, PANTRY_RANGE
for a withheld offset. R182: behind a fence it waits until the matrix operations' writes before the fence have landed. R140, R193, R359: a write that
meets bytes which a matrix operation may still be reading leaves the tile it makes a free value; any other write changes the pantry alone. What meets
what is the model's own reading (log 13). -/
def Obligations.PantryAccesses : Prop :=
  (∀ (i : Instr) (o : SY) (size : Nat) (sg : Bool) (s : State), pantryLoad i = some (o, size, sg) → s.powered = true → s.core.pantryOpen = true →
    s.core.ready (.s, o.a.toNat) = true → s.core.free (.s, o.r.toNat) = true →
    let va := s.core.word (.s, o.a.toNat) + joinImm o.o o.e * BitVec.ofNat 64 size
    s.pantryCode s.core.id va.toNat size = none → s.defined s.core.id va.toNat size = true →
    exec i s = .next (s.leaves [s.core.writes (.s, o.r.toNat)
      (loadValue size sg ((List.range size).map (fun j => s.pantryByte s.core.id (va.toNat + j))) % 2 ^ 64) [(.s, o.a.toNat)] 4])) ∧
  (∀ (i : Instr) (o : SY) (size : Nat) (s : State), pantryStore i = some (o, size) → s.powered = true → s.core.pantryOpen = true →
    s.core.ready (.s, o.a.toNat) = true → s.core.ready (.s, o.r.toNat) = true →
    let va := s.core.word (.s, o.a.toNat) + joinImm o.o o.e * BitVec.ofNat 64 size
    s.pantryCode s.core.id va.toNat size = none → s.undisturbed (some s.core.id) [(s.core.id, va.toNat, va.toNat + size)] →
    ∃ t, exec i s = .next t ∧ t.core = s.begun.core ∧ t.mem = s.mem ∧ t.larder = s.larder ∧
      s.pantryOnly t s.core.id va.toNat (toBytes size (s.core.word (.s, o.r.toNat)).toNat)) ∧
  (∀ (i : Instr) (o : SY) (size code : Nat) (s : State), ((∃ sg, pantryLoad i = some (o, size, sg)) ∨ pantryStore i = some (o, size)) → s.powered = true →
    s.core.pantryOpen = true →
    s.core.ready (.s, o.a.toNat) = true → s.core.ready (.s, o.r.toNat) = true →
    let va := s.core.word (.s, o.a.toNat) + joinImm o.o o.e * BitVec.ofNat 64 size
    s.pantryCode s.core.id va.toNat size = some code →
    ∃ f, exec i s = .next (s.traps f) ∧ f.code = code ∧ f.addr = va ∧ f.taint = (s.core.reg (.s, o.a.toNat)).taint ∧ f.slot = s.core.cur.slot) ∧
  (∀ (i : Instr) (o : SY) (size : Nat) (s : State), ((∃ sg, pantryLoad i = some (o, size, sg)) ∨ pantryStore i = some (o, size)) → s.powered = true →
    s.core.ready (.s, o.a.toNat) = true → s.core.ready (.s, o.r.toNat) = true → s.core.pantryOpen = false →
    ∃ t, exec i s = .next t ∧ t.core.mark = .stalled ∧ t.core.regs = s.core.regs ∧ t.core.defer = s.core.defer ∧ t.pantry = s.pantry) ∧
  (∀ (s : State) (n a size : Nat), s.pantryCode n a size =
    if Config.pantryBytes ≤ a then some 0x15 else if a % size ≠ 0 then some 0x13
    else if s.rung n (a / Config.bankBytes) = 3 then some 0x16
    else if s.rung n (a / Config.bankBytes) = 2 ∧ 0x6000 ≤ a % Config.bankBytes then some 0x15 else none) ∧
  (∀ (s : State) (self : Option Nat) (n a : Nat) (bs : List Byte),
    (s.undisturbed self [(n, a, a + bs.length)] → s.pantryWriteFor self n a bs = s.pantryPut n a bs) ∧
    (∀ r z, s.core.reads = [r] → (∀ c ∈ s.parked, c.2.reads = []) → r.target = .tile z → r.meets s.core self (n, a, a + bs.length) = true →
      let t := s.pantryWriteFor self n a bs
      t.core.reads = [] ∧ t.core.tiles = SMap.put s.core.tiles z s.freeTileAt.1 ∧ t.pantry = (s.pantryPut n a bs).pantry ∧ t.core.regs = s.core.regs ∧
      t.core.defer = s.core.defer ∧ t.mem = s.mem)) ∧
  (∀ (r : OpenRead) (c : Core) (self : Option Nat) (n lo hi : Nat), r.meets c self (n, lo, hi) = true ↔
    (∀ k, r.until_ = some k → c.cycle < k) ∧ lo < hi ∧ ¬ (self = some c.id ∧ r.until_.isSome = true) ∧
    ∃ x ∈ r.spans, x.1 = n ∧ x.2.1 < hi ∧ lo < x.2.2)


/-! Taking an exception (R222 to R230) -/

/-- R225: a fault record is 64 bytes: CODE, SLOT, KIND, QUEUE, TAINT, FLAGS, the pc, the address, three detail words and the core's count of faults, each
little-endian at its offset. -/
def Obligations.FaultRecordLayout : Prop :=
  ∀ (f : FaultInfo) (handler : Bool) (count : Nat), f.code < 256 → f.slot < 256 → f.kind < 256 → f.queue < 256 → count < 2 ^ 64 →
    let r := recordBytes f handler count
    let at_ (o n : Nat) : Nat := ofBytes ((r.drop o).take n)
    r.length = 64 ∧ at_ 0 1 = f.code ∧ at_ 1 1 = f.slot ∧ at_ 2 1 = f.kind ∧ at_ 3 1 = f.queue ∧ at_ 4 2 = f.taint.toNat ∧
    at_ 6 2 = f.dm.toNat + 2 * handler.toNat + 4 * f.emulated.toNat + 8 * f.steered.toNat ∧ at_ 8 8 = f.pc.toNat ∧ at_ 16 8 = f.addr.toNat ∧
    at_ 24 8 = f.d0.toNat ∧ at_ 32 8 = f.d1.toNat ∧ at_ 40 8 = f.d2.toNat ∧ at_ 48 8 = count ∧ at_ 56 8 = 0

/-- R229, R230, R223: a fault that no user handler takes is delivered to S level: its record goes to the core's place at SREC, SEPC gets the pc, SCAUSE
the code and SSTAT the level and context it came from, and the handler at SVEC starts at S level in the supervisor shadow context with empty taints, 3
cycles later. The general registers keep their values and no other control register changes. With no SVEC, in a supervisor handler, with the record's
page not writable or no landing header at SVEC, the job ends with CAUSE 3. The model's own readings here: log 125. -/
def Obligations.SupervisorTakesFaults : Prop :=
  ∀ (s : State) (f : FaultInfo) (j : Job),
    let c := s.stopped.core
    let fn := c.task.fn
    s.jobAt fn = some j → s.stopped.userEntry f = none →
    (∀ u, c.sup = false → j.svec ≠ 0 →
      writeSelf s.stopped c.id fn (j.srec.toNat + 320 * c.id) (recordBytes f (c.handler == .user) c.faults) = .ok u →
      u.headerAt j.svec.toNat = some true →
      let t := s.raise f
      t.core.pc = j.svec ∧ t.core.npc = j.svec ∧ t.core.level = .s ∧ t.core.sup = true ∧ t.core.handler = u.core.handler ∧
      t.core.cycle = u.core.cycle + 3 ∧ t.core.xfer = none ∧ t.core.sepc0 = u.core.pc ∧
      t.core.ctl 0x102 = u.core.pc ∧ t.core.ctl 0x103 = BitVec.ofNat 64 f.code ∧
      t.core.ctl 0x104 = BitVec.ofNat 64 ((if u.core.level = .s then 1 else 0) + (if u.core.handler = .user then 2 else 0) +
        (if u.core.handler = .emul then 4 else 0)) ∧
      (∀ n, n ≠ 0x102 → n ≠ 0x103 → n ≠ 0x104 → t.core.ctl n = u.core.ctl n) ∧ u.core.sameValues t.core [8, 9] ∧
      t.mem = u.mem ∧ t.larder = u.larder ∧ t.pantry = u.pantry ∧ t.fns = u.fns) ∧
    ((c.sup = true ∨ j.svec = 0) → s.raise f = s.stopped.endJob fn 3 f.code true) ∧
    (∀ e, c.sup = false → j.svec ≠ 0 →
      writeSelf s.stopped c.id fn (j.srec.toNat + 320 * c.id) (recordBytes f (c.handler == .user) c.faults) = .error e →
      s.raise f = s.stopped.endJob fn 3 f.code true) ∧
    (∀ u, c.sup = false → j.svec ≠ 0 →
      writeSelf s.stopped c.id fn (j.srec.toNat + 320 * c.id) (recordBytes f (c.handler == .user) c.faults) = .ok u →
      u.headerAt j.svec.toNat ≠ some true → s.raise f = u.endJob fn 3 0x03 true)

/-- R226, R227, R133: in main code at U level, with TRAPBASE set, an entry in its table and a landing header there, a fault other than an ATTIC_FAULT is
taken by the user handler: the record goes behind the table, UEPC gets the pc and UCAUSE the code with bit 31, and the handler runs at U level in the
user shadow context, 3 cycles later. The supervisor's registers stay. -/
def Obligations.UserTakesFaults : Prop :=
  ∀ (s u : State) (f : FaultInfo) (e : Nat), s.stopped.userEntry f = some e →
    writeSelf s.stopped s.core.id s.core.task.fn ((s.core.ctl 0x20).toNat + 0x400) (recordBytes f false (s.core.faults + 1)) = .ok u →
    let t := s.raise f
    t.core.pc = BitVec.ofNat 64 e ∧ t.core.handler = .user ∧ t.core.level = u.core.level ∧ t.core.sup = u.core.sup ∧
    t.core.cycle = u.core.cycle + 3 ∧ t.core.uepc0 = u.core.pc ∧ t.core.ctl 0x25 = u.core.pc ∧ t.core.ctl 0x24 = BitVec.ofNat 64 (f.code + 2 ^ 31) ∧
    (∀ n, n ≠ 0x24 → n ≠ 0x25 → t.core.ctl n = u.core.ctl n) ∧ u.core.sameValues t.core [6, 7] ∧
    t.core.entryFrames = u.core.frames.length + u.core.spilled.length ∧ t.mem = u.mem ∧ t.larder = u.larder ∧ t.pantry = u.pantry ∧
    f.toS = false ∧ s.core.level = .u ∧ s.core.handler = .main ∧ s.core.sup = false ∧ s.core.ctl 0x20 ≠ 0

/-! Stores -/

/-- The stores of the reset state are in canonical form: no byte of memory, of the Larder or of a pantry is listed (log 2, log 3). -/
def Obligations.ResetStoresCanonical : Prop := State.reset.storesOk ∧ State.reset.mem = [] ∧ State.reset.pantry = [] ∧ State.reset.larder = []

/-- Every step keeps the canonical form of memory, of the Larder and of the pantries: equal contents stay equal data (log 2). -/
def Obligations.StepKeepsStores : Prop := ∀ s t : State, s.storesOk → step s = .next t → t.storesOk


/-! The Granary (R92 to R105, R288) -/

/-- R98, R104: wpush and wpush.f end with code 3 outside a session and in one that has ended. With room in the own slice the record enters its bin, raised
to the floor, and code 1 says that it was raised, code 0 that it was not; while a returning qcel is on its way whose tag its words or the path name,
it waits (R173, R176). In a full slice 128 records of the session's highest bin above the window are spilled first, if its share has room for the
chunk; with no such bin the record goes to the lowest-numbered slice that has room; without room wpush waits and wpush.f ends with code 2. A head with
RES or LOCK set is ILLEGAL_OPERAND. R99, R105: wpop and wpop.w end with code 3 outside a session and code 2 in one that has ended; with a record that
may be popped on chip they take one, put its four words into their quad with code 0, set the predicate pair and act as an acquire; where such a
record's bin has spilled records within the window they wait for the refill (R105). With none, wpop ends with code 1 and wpop.w waits. A task that
holds a record gets ILLEGAL_OPERAND. The record is a locked one if there is any, otherwise one of the lowest bin of the own slice within the window,
with RES set if that bin has one, and of other slices, by the same choice, only when the own has none. The model's own readings here: log 1, 58, 99
and 119. -/
def Obligations.RecordsPushedAndPopped : Prop :=
  (
  ∀ (o : S2P) (f : Bool) (s : State), s.powered = true → s.core.allReady (quadRegs o.r) = true → s.core.free (.s, o.a.toNat) = true →
    let i : Instr := if f then .wpushF o else .wpush o
    let w (k : Nat) : Word := s.core.word (nth (.s, 0) (quadRegs o.r) k)
    let code (n : Nat) : Effect := s.core.lands (.s, o.a.toNat) n (quadRegs o.r)
    let clean := !bit (w 0).toNat 48 && !bit (w 0).toNat 49
    let named := s.core.named (taintOf ((quadRegs o.r).map s.core.reg) ||| s.core.order.ptaint)
    (clean = false → exec i s = .next (s.traps (s.core.regFault (.s, o.r.toNat)))) ∧
    (clean = true → s.joined = none → exec i s = .next (s.leaves [code 3])) ∧
    (∀ x, clean = true → s.joined = some x →
      (x.st ≠ 0 → exec i s = .next (s.leaves [code 3])) ∧
      (x.st = 0 → s.core.order.acc = [] → named ≠ [] → ∃ t, exec i s = .next t ∧ t.core.mark = .stalled ∧ t.sessions = s.sessions) ∧
      (x.st = 0 → s.core.order.acc = [] → named = [] → s.onChip (sliceDie s.core.id) < Config.sliceRecords →
        ∃ t y, exec i s = .next t ∧ t.core = (s.leaves [code (if bits (w 0).toNat 54 10 < x.fc then 1 else 0)]).core ∧
          t.sessionAt x.uid = some y ∧ y.p = x.p + 1 ∧ s.onlySession t x.uid ∧ t.mem = s.mem ∧ t.pantry = s.pantry ∧
          y.recs = x.recs ++ [{ recOf (w 0) (w 1) (w 2) (w 3) (sliceDie s.core.id) with bin := max (bits (w 0).toNat 54 10) x.fc }] ∧
          y.popped = x.popped) ∧
      (x.st = 0 → s.core.order.acc = [] → named = [] → Config.sliceRecords ≤ s.onChip (sliceDie s.core.id) →
        let own := sliceDie s.core.id
        let stores (rs : List Rec) (d : Nat) : Prop :=
          ∃ t y, exec i s = .next t ∧ t.core = (s.leaves [code (if bits (w 0).toNat 54 10 < x.fc then 1 else 0)]).core ∧
            t.sessionAt x.uid = some y ∧ y.p = x.p + 1 ∧ s.onlySession t x.uid ∧ t.mem = s.mem ∧ t.pantry = s.pantry ∧ y.popped = x.popped ∧
            y.recs = rs ++ [{ recOf (w 0) (w 1) (w 2) (w 3) d with bin := max (bits (w 0).toNat 54 10) x.fc }]
        (∀ b, x.spillBin own = some b → x.chunks * 4096 + 4096 ≤ x.spillB → stores (spillRecs 128 own b x.recs) own) ∧
        (∀ d, x.spillBin own = none → d < 4 → s.onChip d < Config.sliceRecords → (∀ e, e < d → Config.sliceRecords ≤ s.onChip e) → stores x.recs d) ∧
        ((∃ b, x.spillBin own = some b ∧ x.spillB < x.chunks * 4096 + 4096) ∨
            (x.spillBin own = none ∧ ∀ d, d < 4 → Config.sliceRecords ≤ s.onChip d) →
          if f then exec i s = .next (s.leaves [code 2]) else ∃ t, exec i s = .next t ∧ t.core.mark = .stalled ∧ t.sessions = s.sessions)))) ∧
  (∀ (x : Session) (sl b : Nat), x.spillBin sl = some b ↔
    (∃ r ∈ x.recs, r.slice = sl ∧ r.spilled = false ∧ x.fu + x.delta < r.bin ∧ r.bin = b) ∧
    ∀ r ∈ x.recs, r.slice = sl → r.spilled = false → x.fu + x.delta < r.bin → r.bin ≤ b) ∧
  (∀ (n sl b : Nat) (rs : List Rec),
    let qs : List Rec := spillRecs n sl b rs
    let here (r : Rec) : Bool := r.slice == sl && r.bin == b && !r.spilled
    qs.length = rs.length ∧ qs.countP here = rs.countP here - n ∧
    ∀ (k : Nat) (r : Rec), rs[k]? = some r → qs[k]? = some r ∨ (here r = true ∧ qs[k]? = some { r with spilled := true })) ∧ (
  (∀ (o : S2) (wait : Bool) (s : State), s.powered = true → o.r.toNat % 4 = 0 → s.core.popFree o = true →
    let i : Instr := if wait then .wpopW o else .wpop o
    (s.joined = none → exec i s = .next (s.leaves (s.core.popWrites o 3))) ∧
    (∀ x, s.joined = some x →
      ((x.heldBy s.core.task.num).isSome = true → exec i s = .next (s.traps (s.core.syllableFault 0x02))) ∧
      (x.heldBy s.core.task.num = none → x.st ≠ 0 → exec i s = .next (s.leaves (s.core.popWrites o 2))) ∧
      (x.heldBy s.core.task.num = none → x.st = 0 → x.candidates (sliceDie s.core.id) = [] →
        if wait then ∃ t, exec i s = .next t ∧ t.core.mark = .stalled ∧ t.sessions = s.sessions
        else ∃ t, exec i s = .next t ∧ t.core = (s.leaves (s.core.popWrites o 1)).core) ∧
      (x.heldBy s.core.task.num = none → x.st = 0 → x.candidates (sliceDie s.core.id) ≠ [] →
        x.awaitsRefill (x.candidates (sliceDie s.core.id)) = false →
        ∃ t y r, r ∈ x.candidates (sliceDie s.core.id) ∧ exec i s = .next t ∧ t.core.mark = .done ∧ t.sessionAt x.uid = some y ∧
          y.recs = x.recs.erase r ∧ y.popped = x.popped ++ [{ task := s.core.task.num, rec_ := r, lock := false }] ∧
          t.core.defer = (s.core.defer ++ [s.core.lands (.s, o.r.toNat) r.head.toNat [], s.core.lands (.s, (o.r + 1).toNat) r.arg0.toNat [],
            s.core.lands (.s, (o.r + 2).toNat) r.arg1.toNat [], s.core.lands (.s, (o.r + 3).toNat) r.arg2.toNat []] ++ s.core.popWrites o 0).map
              (fun e => e.mapCell (fun c => { c with dm := false })) ∧
          t.core.l1 = [] ∧ t.core.order.pdm = false ∧ s.onlySession t x.uid ∧ t.mem = s.mem) ∧
      (x.heldBy s.core.task.num = none → x.st = 0 → x.candidates (sliceDie s.core.id) ≠ [] →
        x.awaitsRefill (x.candidates (sliceDie s.core.id)) = true →
        ∃ t, exec i s = .next t ∧ t.core.mark = .stalled ∧ t.sessions = s.sessions))) ∧
  (∀ (x : Session) (cs : List Rec), x.awaitsRefill cs = true ↔ ∃ r ∈ cs, r.spilled = true ∨
    (r.bin ≤ x.fu + x.delta ∧ ∃ q ∈ x.recs, q.spilled = true ∧ q.bin = r.bin ∧ q.slice = r.slice)) ∧
  (∀ (x : Session) (sl : Nat), (∀ q ∈ x.recs, q.bin < 1024) →
    (x.candidates sl = [] ↔ ∀ q ∈ x.recs, q.lock = false ∧ x.fu + x.delta < q.bin) ∧
    ∀ r, r ∈ x.candidates sl ↔ r ∈ x.recs ∧ (r.lock = true ∨ ((∀ q ∈ x.recs, q.lock = false) ∧ r.bin ≤ x.fu + x.delta ∧
      ∀ q ∈ x.recs, q.bin ≤ x.fu + x.delta → (q.slice = sl → r.slice = sl) ∧ (q.slice = sl ∨ r.slice ≠ sl → r.bin ≤ q.bin) ∧
        (q.slice = sl ∨ r.slice ≠ sl → q.bin = r.bin → q.res = true → r.res = true)))))

/-- R101 to R103, R95, R111: wdone takes the held record out of its session and counts it; wdone.y puts it back into its bin with new words, resumed;
whold declares it locked or not; wleave detaches the task, gives back a record it held with RES set, and arms the session if the task opened it; with
each of these but whold the floor moves as R97 says, and a session of one device that is armed and holds nothing then ends: its graph counter falls
and the root task gets event bit 1 (R110); wfloor reads the state, the floors and the window, or state 3 outside a session. With no record held they
are ILLEGAL_OPERAND, unless a cancel has discarded it: then they complete and do nothing. A session that is cancelled loses its records, its holders
keep a mark, and it ends (R111). R94, R93: wjoin of a readable descriptor attaches the task to the open session of its number; with none open, at S
level, it opens one as the descriptor says, bound to its graph (here one that no cancel marks, with no dead connection to a member of its group,
R112), and the task is its opener. The model's own readings here: log 37 and 119. -/
def Obligations.SessionsAndHeldRecords : Prop :=
  (
  ∀ s : State, s.powered = true →
    (∀ x p, s.joined = some x → x.heldBy s.core.task.num = some p →
      let others := x.popped.filter (fun q => q.task != p.task)
      (s.core.order.acc = [] → ∃ u, s.begun.keepsButSession u x.uid (Session.floored { x with popped := others, d := x.d + 1 }) ∧ u.core = s.begun.core ∧
        exec .wdone s = .next (u.checkSession x.uid)) ∧
      (∀ o : S1, s.core.order.acc = [] → s.core.allReady (quadRegs o.r) = true →
        let w (k : Nat) : Word := s.core.word (nth (.s, 0) (quadRegs o.r) k)
        ∃ t y, exec (.wdoneY o) s = .next t ∧ t.core = s.begun.core ∧ t.sessionAt x.uid = some y ∧ y.popped = others ∧ s.onlySession t x.uid ∧
          y.recs = x.recs ++ [{ recOf (w 0) (w 1) (w 2) (w 3) p.rec_.slice with bin := p.rec_.bin, res := true, lock := p.lock }]) ∧
      (∀ o : SH, ∃ t y, exec (.whold o) s = .next t ∧ t.core = s.begun.core ∧ t.sessionAt x.uid = some y ∧ y.recs = x.recs ∧
        y.popped = x.popped.map (fun q => if q.task = p.task then { q with lock := o.i == 1 } else q) ∧ s.onlySession t x.uid)) ∧
    ((s.joined = none ∨ ∃ x, s.joined = some x ∧ x.heldBy s.core.task.num = none) →
      (s.core.discarded = true → exec .wdone s = .next s.begun ∧ (∀ o, exec (.whold o) s = .next s.begun) ∧
        ∀ o : S1, s.core.allReady (quadRegs o.r) = true → exec (.wdoneY o) s = .next s.begun) ∧
      (s.core.discarded = false → exec .wdone s = .next (s.traps (s.core.syllableFault 0x02)) ∧
        (∀ o, exec (.whold o) s = .next (s.traps (s.core.syllableFault 0x02))) ∧
        ∀ o : S1, s.core.allReady (quadRegs o.r) = true → exec (.wdoneY o) s = .next (s.traps (s.core.syllableFault 0x02)))) ∧
    (∀ o : S1, s.core.free (.s, o.r.toNat) = true →
      (s.joined = none → exec (.wfloor o) s = .next (s.leaves [s.core.lands (.s, o.r.toNat) (3 * 2 ^ 48) []])) ∧
      (∀ x, s.joined = some x → x.st < 4 → x.fc < 1024 → x.fu < 1024 → x.delta < 1024 → exec (.wfloor o) s = .next (s.leaves [s.core.lands (.s, o.r.toNat)
        (x.st * 2 ^ 48 + x.dead.toNat * 2 ^ 47 + x.fc * 2 ^ 32 + x.delta * 2 ^ 16 + x.fu) []]))) ∧
    (let task := s.core.task.num
      let out : Core := { s.begun.core with session := none, discarded := false }
      let away (x : Session) : Session := { x with opener := if x.opener = some task then none else x.opener }
      (s.joined = none → exec .wleave s = .next { s.begun with core := out }) ∧
      ∀ x, s.joined = some x →
        (x.heldBy task = none → ∃ u, s.begun.keepsButSession u x.uid (away x) ∧ u.core = out ∧ exec .wleave s = .next (u.checkSession x.uid)) ∧
        ∀ p, x.heldBy task = some p →
          let back : Session := { x with popped := x.popped.filter (fun q => q.task != task),
                                         recs := x.recs ++ [{ p.rec_ with res := true, lock := p.lock }] }
          ∃ u, s.begun.keepsButSession u x.uid (away back.floored) ∧ u.core = out ∧ exec .wleave s = .next (u.checkSession x.uid))) ∧
  (∀ (s : State) (uid : Nat) (x : Session), s.sessionAt uid = some x →
    (¬ (x.st = 0 ∧ x.group = 0 ∧ x.opener = none ∧ x.recs = [] ∧ x.popped = []) → s.checkSession uid = s) ∧
    (∀ dead tell, x.st ≠ 0 → s.cancelSession uid dead tell = s) ∧
    ∀ j, s.jobAt x.fn = some j → 2 ≤ j.graphs x.gctr → j.jctr ≠ 0 →
      let ends (t : State) (y : Session) : Prop := t.sessionAt uid = some y ∧ s.onlySession t uid ∧ t.mem = s.mem ∧ t.larder = s.larder ∧
        (∃ k, t.jobAt x.fn = some k ∧ k.graphs x.gctr = j.graphs x.gctr - 1 ∧ (∀ g, g ≠ x.gctr → k.graphs g = j.graphs g) ∧ k.lctr = j.lctr ∧
          k.pctr = j.pctr ∧ k.jctr = j.jctr) ∧
        (s.core.run ≠ .idle → s.core.task.num = j.rootTask → t.core.ctl 0x26 = 1 ∧ ((s.core.ctl 0x22).getLsbD 1 = true →
          (t.core.ctl 0x23).getLsbD 1 = true ∧ { bit := 1, value := x.num } ∈ t.core.events))
      (x.st = 0 → x.group = 0 → x.opener = none → x.recs = [] → x.popped = [] → ends (s.checkSession uid) { x with st := 1 }) ∧
      ∀ dead tell, x.st = 0 →
        let t := s.cancelSession uid dead tell
        ends t { x with recs := [], popped := [], dead := x.dead || dead, st := 2 } ∧
        ∀ c ∈ s.cores, s.coreAt c.id = c → c.run ≠ .idle → (∃ p ∈ x.popped, p.task = c.task.num) → (t.coreAt c.id).discarded = true) ∧ (
  ∀ (o : S1) (s u w : State) (pa : Nat) (bs : List Byte), s.powered = true → s.core.ready (.s, o.r.toNat) = true →
    let a := (s.core.word (.s, o.r.toNat)).toNat
    let f (o n : Nat) : Nat := ofBytes ((bs.drop o).take n)
    a % 64 = 0 → a < 2 ^ 56 → s.begun.translate a [.read] = .ok (pa, u) → readVirtual u u.core.id u.core.task.fn a 64 = .ok (bs, w) →
    f 0 4 = 0x47524E59 → f 4 2 = 1 → f 6 2 ≠ 0 → w.core.session = none → w.core.task.fn = u.core.task.fn →
    let fn := w.core.task.fn
    (∀ x, w.openSession fn (f 6 2) = some x →
      exec (.wjoin o) s = .next { w with core := { w.core with session := some x.uid, discarded := false } }) ∧
    (∀ j, w.openSession fn (f 6 2) = none → w.jobAt fn = some j → w.core.level = .s → descriptorOk bs = true →
      (w.sessions.filter (fun x => x.fn == fn && x.st == 0)).length < 8 → f 0x10 8 + f 0x18 8 ≤ j.spill →
      (∀ x ∈ w.sessions, x.fn = fn → x.st = 0 → f 0x18 8 = 0 ∨ x.spillB = 0 ∨ overlaps x.spillOff x.spillB (f 0x10 8) (f 0x18 8) = false) →
      (j.graphs (f 0x0A 2) = 0 ∨ SMap.get 0 j.gphase (f 0x0A 2) = j.phase) → j.gmarks.contains (f 0x0A 2) = false →
      (f 8 2 ≠ 0 → ∀ g ∈ w.fabric.groups, g.num = f 8 2 → g.fn = fn → ∀ m ∈ g.members, { mcast := false, peer := m, lane := 7 } ∉ w.fabric.closed) →
      ∃ t x, exec (.wjoin o) s = .next t ∧ t.core.mark = w.core.mark ∧ t.core.session = some x.uid ∧ x ∈ t.sessions ∧ x.num = f 6 2 ∧ x.fn = fn ∧ x.group = f 8 2 ∧
        x.gctr = f 0x0A 2 ∧ x.delta = f 0x0C 2 ∧ x.lowm = (if f 0x0E 2 = 0 then 64 else f 0x0E 2) ∧ x.st = 0 ∧ x.recs = [] ∧ x.popped = [] ∧
        x.opener = some w.core.task.num ∧ t.jobAt fn = (w.modJob fn (fun j => j.bindGraph (f 0x0A 2))).jobAt fn ∧ t.mem = w.mem))


/-! Work (R71 to R91, R136 to R139, R289 to R294) -/

/-- R75 to R77, R72, R289: a launch whose record and kernel header can be read and are in form, that the Distributor's checks pass and some aligned
position of cores can take, is accepted: it is listed with its gangs waiting, its launch counter is its task count, and its graph is bound. A record
that breaks its form or a check, or whose kernel header does, is ILLEGAL_OPERAND; with no position for its classes the fault is CAP_RETIRED, for its
banks BANK_RETIRED. The model's own readings here: log 55 and 56. -/
def Obligations.LaunchesAreAccepted : Prop :=
  (∀ (o : S1) (s u : State) (bs : List Byte), s.powered = true → s.core.ready (.s, o.r.toNat) = true →
    s.core.order.acc = [] → s.suspending s.core.task.fn = false →
    let fn := s.core.task.fn
    readVirtual s.begun s.core.id fn (s.core.word (.s, o.r.toNat)).toNat 128 = .ok (bs, u) →
    (launchForm bs = false → exec (.launch o) s = .next (s.traps (u.core.syllableFault 0x02))) ∧
    (∀ kb w, launchForm bs = true → readVirtual u u.core.id fn (fieldAt bs 8 8) 128 = .ok (kb, w) → parseKernel kb = none →
      exec (.launch o) s = .next (s.traps (w.core.syllableFault 0x02)))) ∧ (
  ∀ (o : S1) (s u w : State) (bs kb : List Byte) (k : KernelHeader) (j : Job), s.powered = true → s.core.ready (.s, o.r.toNat) = true →
    s.core.order.acc = [] → s.suspending s.core.task.fn = false →
    let fn := s.core.task.fn
    readVirtual s.begun s.core.id fn (s.core.word (.s, o.r.toNat)).toNat 128 = .ok (bs, u) → launchForm bs = true →
    readVirtual u u.core.id fn (fieldAt bs 8 8) 128 = .ok (kb, w) → parseKernel kb = some k → w.jobAt fn = some j → w.core.task.fn = fn → fn < w.fns.length →
    let l := w.launchOf j bs k
    (w.launchOk j bs k = true → positions (2 ^ l.ganglog) (w.eligible fn l.caps l.pbanks) ≠ [] → j.gmarks.contains l.gctr = false →
      ∃ t, exec (.launch o) s = .next t ∧ t.core = w.core ∧ t.dist.launches = w.dist.launches ++ [l] ∧ t.dist.nextLaunch = w.dist.nextLaunch + 1 ∧
        t.dist.gangs = w.dist.gangs ++ (List.range l.ngang).map (fun g => { launch := l.id, num := g, st := .wait, b := 64, ended := [], cores := [] }) ∧
        (∃ j', t.jobAt fn = some j' ∧ j'.launches l.lctr = l.ngang * 2 ^ l.ganglog ∧ j'.graphs l.gctr = j.graphs l.gctr + 1) ∧
        t.mem = w.mem ∧ t.larder = w.larder ∧ t.pantry = w.pantry) ∧
    (w.launchOk j bs k = false → exec (.launch o) s = .next (s.traps (w.core.syllableFault 0x02))) ∧
    (w.launchOk j bs k = true → positions (2 ^ l.ganglog) (w.eligible fn l.caps l.pbanks) = [] →
      ∃ f, exec (.launch o) s = .next (s.traps f) ∧ f.code = (if positions (2 ^ l.ganglog) (w.eligible fn l.caps 0) = [] then 0x21 else 0x16)))

/-- R90, R290, R83, R291, R73, R292: phase at S level sets the job's phase when the job has it; the cancels mark the counter they name and every non-zero
one beneath it, and one that is 0 nothing: a marked launch's gangs that do not run and its suspended tasks are dropped and counted down, its running
tasks get the cancel reason, a counter that falls to 0 by this ends its launch (R72, R77), and a marked graph's open sessions end without their
records; phase, cancel.p and cancel.j at U level are PRIV; cwait completes, as an acquire, once its counter is 0, and waits until then. R293, R187:
gbar with its accesses, and its matrix operations' pantry writes, performed completes, as an acquire, when every other member of its gang has arrived
as often; otherwise it waits, and its arrival is counted once, however often it is issued again before its context goes on with another bundle. R294,
R137, R231: tend outside a handler, and pdone with PCAUSE not 0, end after their bundle; a stopped queue makes them fault with its code, its address
and its details to S level; tend in a handler, and pdone with PCAUSE 0, are ILLEGAL_OPERAND. The model's own readings here: log 51, 57 and 117. -/
def Obligations.CountersAndTaskEnds : Prop :=
  (
  ∀ (s : State) (j : Job), s.powered = true → s.jobAt s.core.task.fn = some j →
    let fn := s.core.task.fn
    (∀ o : SH, s.core.level = .s → (o.i.toNat < j.phases.length → exec (.phase o) s = .next (s.begun.modJob fn (fun j => { j with phase := o.i.toNat }))) ∧
      (j.phases.length ≤ o.i.toNat → exec (.phase o) s = .next (s.traps (s.core.syllableFault 0x02)))) ∧
    (∀ o : SH, exec (.cancelL o) s = .next (s.begun.markLaunch fn o.i.toNat) ∧ (j.launches o.i.toNat = 0 → exec (.cancelL o) s = .next s.begun)) ∧
    (∀ o : SH, exec (.cancelG o) s = .next (s.begun.markGraph fn o.i.toNat) ∧ (j.graphs o.i.toNat = 0 → exec (.cancelG o) s = .next s.begun)) ∧
    (∀ o : SH, s.core.level = .s → exec (.cancelP o) s = .next (s.begun.markPhase fn o.i.toNat) ∧ exec (.cancelJ o) s = .next (s.begun.cancelJob fn)) ∧
    (∀ o : SH, s.core.level = .u → exec (.phase o) s = .next (s.traps (s.core.syllableFault 0x04)) ∧
      exec (.cancelP o) s = .next (s.traps (s.core.syllableFault 0x04)) ∧ exec (.cancelJ o) s = .next (s.traps (s.core.syllableFault 0x04))) ∧
    (∀ o : SH,
      let n := match o.i.toNat / 4096 % 4 with
        | 0 => j.launches (o.i.toNat % 4096) | 1 => j.graphs (o.i.toNat % 4096) | 2 => j.phasesAt (o.i.toNat % 4096) | _ => j.jctr
      (n = 0 → exec (.cwait o) s = .next { s.begun with core := s.begun.core.acquired }) ∧
      (n ≠ 0 → ∃ t, exec (.cwait o) s = .next t ∧ t.core.mark = .stalled ∧ t.fns = s.fns ∧ t.core.l1 = s.core.l1))) ∧ (
  ∀ s : State, s.powered = true →
    (s.core.order.acc = [] → s.core.drains = [] → (∀ x ∈ s.core.steered, x.bytes = []) →
      let again := s.core.gbars.contains s.core.gbarKey
      let a := if again then s.core.arrivals else s.core.arrivals + 1
      let gs := if again then s.core.gbars else s.core.gbars ++ [s.core.gbarKey]
      let met := (s.gangArrivals s.core.task).all (fun p => p.1 == s.core.task.num || decide (a ≤ p.2))
      (met = true → exec .gbar s = .next { s.begun with core := Core.acquired { s.begun.core with arrivals := a, gbars := gs } }) ∧
      (met = false → ∃ t, exec .gbar s = .next t ∧ t.core.mark = .stalled ∧ t.core.arrivals = a ∧ t.core.gbars = gs ∧ t.core.regs = s.core.regs)) ∧
    ((s.core.order.acc ≠ [] ∨ s.core.drains ≠ [] ∨ ∃ x ∈ s.core.steered, x.bytes ≠ []) →
      ∃ t, exec .gbar s = .next t ∧ t.core.mark = .stalled ∧ t.core.arrivals = s.core.arrivals ∧ t.core.gbars = s.core.gbars ∧
        t.core.regs = s.core.regs) ∧
    (∀ (body : Option (Nat × Nat)) (w : Nat), (s.commitBundle body w).core.gbars = s.core.gbars.filter (fun g => g.1 != s.core.context)) ∧
    (s.core.inHandler = false → s.core.stopped = none → exec .tend s = .next (s.leaves [.endTask])) ∧
    (s.core.inHandler = true → exec .tend s = .next (s.traps (s.core.syllableFault 0x02))) ∧
    (s.core.ctl 0x36 ≠ 0 → s.core.stopped = none → exec .pdone s = .next (s.leaves [.leaveStub])) ∧
    (s.core.ctl 0x36 = 0 → exec .pdone s = .next (s.traps (s.core.syllableFault 0x02))) ∧
    (∀ q code, s.core.stopped = some (q, code) →
      ∃ f, f.code = code ∧ f.queue = q ∧ f.toS = true ∧ f.pc = s.core.pc ∧ f.slot = 0 ∧ f.kind = 0 ∧
        (∀ g, (s.core.queue q).fault = some g → f.addr = g.addr ∧ f.taint = g.taint ∧ f.dm = g.dm ∧ f.d0 = g.d0 ∧ f.d1 = g.d1 ∧ f.d2 = g.d2) ∧
        (s.core.inHandler = false → exec .tend s = .next (s.traps f)) ∧ (s.core.ctl 0x36 ≠ 0 → exec .pdone s = .next (s.traps f)))) ∧ (
  ∀ (s : State) (f : Nat) (j : Job), s.jobAt f = some j →
    (∀ l x, s.dist.launches.find? (fun x => x.fn == f && x.lctr == l) = some x → j.launches l ≠ 0 →
      let t := s.markLaunch f l
      let mine (k : TaskId) : Bool := k.launch == x.id && !k.root && k.fn == f
      let asks (c : Core) : Bool := ((c.run == .running && c.waitRun != some .ending) || c.run == .leaving) && mine c.task
      let idle (g : Gang) : Bool := g.launch == x.id && g.st != .run
      let n := s.dist.gangs.countP idle * 2 ^ x.ganglog + s.dist.suspended.countP (fun y => mine y.core.task)
      (∀ g ∈ t.dist.gangs, g.launch = x.id → g.st = .run) ∧ (∀ y ∈ t.dist.suspended, mine y.core.task = false) ∧
      (t.jobAt f = none ∨ ∃ k, t.jobAt f = some k ∧ k.launches l = j.launches l - n ∧ (l ∈ k.lmarks ↔ n < j.launches l) ∧
        ∀ m, m ≠ l → k.launches m = j.launches m ∧ (m ∈ k.lmarks ↔ m ∈ j.lmarks)) ∧
      ((∀ y ∈ s.dist.suspended, mine y.core.task = false) → n < j.launches l →
        t.dist = { s.dist with gangs := s.dist.gangs.filter (fun g => !idle g), held := s.dist.held.filter (fun p => p.2 / 2 ^ 20 != x.id) } ∧
        (∀ c, t.coreAt c = if s.cores.any (fun d => d.id == c && asks d) then { s.coreAt c with preempt := 2 } else s.coreAt c) ∧
        (∃ k, t.jobAt f = some { j with lctr := k, lmarks := j.lmarks.filter (fun m => m != l) ++ [l] }) ∧
        t.sessions = s.sessions ∧ t.mem = s.mem ∧ t.larder = s.larder ∧ t.fabric = s.fabric) ∧
      ((∀ y ∈ s.dist.suspended, mine y.core.task = false) → n = j.launches l → s.dist.launches.filter (fun x => x.fn == f && x.lctr == l) = [x] →
        2 ≤ j.graphs x.gctr → j.jctr ≠ 0 →
        (∃ k, t.jobAt f = some k ∧ k.launches l = 0 ∧ k.graphs x.gctr = j.graphs x.gctr - 1 ∧ ∀ g, g ≠ x.gctr → k.graphs g = j.graphs g) ∧
        (∀ y ∈ t.dist.launches, y.fn = f → y.lctr ≠ l ∧ l ∉ y.deps) ∧
        (x.evt = true → s.core.run ≠ .idle → s.core.task.num = x.issuer → t.core.ctl 0x26 = 1 ∧
          ((s.core.ctl 0x22).getLsbD 4 = true → (t.core.ctl 0x23).getLsbD 4 = true)))) ∧
    (∀ l, j.launches l = 0 → s.markLaunch f l = s) ∧ (∀ g, j.graphs g = 0 → s.markGraph f g = s) ∧
    (∀ g, j.graphs g ≠ 0 →
      let t := s.markGraph f g
      t.jobAt f = none ∨ ∃ k, t.jobAt f = some k ∧ (k.graphs g = 0 ∨ g ∈ k.gmarks) ∧
        (∀ x ∈ s.dist.launches, x.fn = f → x.gctr = g → k.launches x.lctr = 0 ∨ x.lctr ∈ k.lmarks) ∧
        ∀ x ∈ s.sessions, x.fn = f → x.gctr = g → x.st = 0 → s.sessionAt x.uid = some x →
          ∃ y, t.sessionAt x.uid = some y ∧ y.st ≠ 0 ∧ y.recs = [] ∧ y.popped = []) ∧
    (∀ p,
      let t := s.markPhase f p
      t.jobAt f = none ∨ ∃ k, t.jobAt f = some k ∧
        (∀ g, j.graphs g ≠ 0 → SMap.get 0 j.gphase g = p → k.graphs g = 0 ∨ g ∈ k.gmarks) ∧
        ∀ x ∈ s.dist.launches, x.fn = f → j.graphs x.gctr ≠ 0 → SMap.get 0 j.gphase x.gctr = p →
          k.launches x.lctr = 0 ∨ x.lctr ∈ k.lmarks ∨ k.graphs x.gctr = 0) ∧
    (let t := s.cancelJob f
      let root (k : TaskId) : Bool := k.fn == f && k.root
      let asks (c : Core) : Bool := ((c.run == .running && c.waitRun != some .ending) || c.run == .leaving) && root c.task
      (∀ y ∈ t.dist.suspended, root y.core.task = false) ∧
      (t.jobAt f = none ∨ ∃ k, t.jobAt f = some k ∧ k.cancelled = true ∧ (t.fnAt f).st = 3 ∧ (∀ g, j.graphs g ≠ 0 → k.graphs g = 0 ∨ g ∈ k.gmarks) ∧
        ∀ x ∈ s.dist.launches, x.fn = f → j.graphs x.gctr ≠ 0 → k.launches x.lctr = 0 ∨ x.lctr ∈ k.lmarks ∨ k.graphs x.gctr = 0) ∧
      ((∀ y ∈ s.dist.suspended, root y.core.task = false) →
        ∃ u, t = (j.gctr.map (fun g => g.1)).foldl (fun (s : State) g => s.markGraph f g) u ∧ u.jobAt f = some { j with cancelled := true } ∧
          (u.fnAt f).st = 3 ∧ u.dist = s.dist ∧ u.sessions = s.sessions ∧ u.mem = s.mem ∧
          ∀ c, u.coreAt c = if s.cores.any (fun d => d.id == c && asks d) then { s.coreAt c with preempt := 2 } else s.coreAt c)))

/-- R81, R82, R86: a hold, sent in the order of a launch's gangs, takes the FREE cores of its position and no others; of the requests at the longest back-
off the earliest takes those that others hold as well. A commit with every hold granted makes them BUSY, the gang runs, and each core takes the state
that a task starts in; a refused hold releases what was granted and doubles the back-off, up to 8,192; the elapsed back-off lets the gang ask again,
but while its job is suspended it stays; a die reports its free cores. R80, R78, R79, R118: a task starts with its kernel's entry as an indirect
target, at U level, with its index, size, points, coordinates, addresses and policy in the control registers, s0 holding the launch's argument, and
every other register of the mapped files at 0 without a taint; its core's tiles are undefined. The model's own readings here: log 58, 59, 93 and 100. -/
def Obligations.PlacementAndStart : Prop :=
  (
  ∀ (s : State) (launch gang pos : Nat),
    (∀ l g, s.dist.launches.find? (fun l => l.id == launch) = some l → s.dist.gangs.find? (fun g => g.launch == launch && g.num == gang) = some g →
      let cs := (List.range (2 ^ l.ganglog)).map (fun k => pos + k)
      let key := gangKey launch gang
      let first := g.b = 8192 ∧ ∀ h ∈ s.dist.gangs, h.b = 8192 → gangKey g.launch g.num ≤ gangKey h.launch h.num
      (g.st = .wait → l.deps = [] → s.admits l.fn = true → s.gangTurn g = true → ∃ t, exec (.gangHold launch gang pos) s = .next t ∧
        (¬ first → t.dist.held = s.dist.held ++ (cs.filter s.isFree).map (fun c => (c, key))) ∧
        (first → (∀ c ∈ cs, c ∉ s.dist.busy → ∀ k, (c, k) ∈ t.dist.held ↔ k = key) ∧ ∀ p, p.1 ∉ cs → (p ∈ t.dist.held ↔ p ∈ s.dist.held)) ∧
        t.dist.busy = s.dist.busy ∧ t.mem = s.mem ∧ t.core = s.begun.core) ∧
      (g.st = .hold pos → s.allHeld l gang = true → s.admits l.fn = true → ∃ t, exec (.commit launch gang) s = .next t ∧
        t.dist.busy = s.dist.busy ++ cs ∧
        t.dist.gangs = s.dist.gangs.map (fun h => if h.launch = launch ∧ h.num = gang then { h with st := .run, b := 64 } else h) ∧
        t.dist.held = s.dist.held.filter (fun p => p.2 != key) ∧ t.mem = s.mem ∧
        t.dist.nextTask = s.dist.nextTask + 2 ^ l.ganglog ∧ (∀ m, m ∉ cs → t.coreAt m = s.begun.coreAt m) ∧
        ((∀ c ∈ cs, (s.coreAt c).id = c) → ∀ k, k < 2 ^ l.ganglog →
          let u : State := { s.begun with fresh := s.fresh + 12288 * k, dist := { s.dist with nextTask := s.dist.nextTask + k } }
          t.coreAt (pos + k) = (u.startTask l gang k (pos + k)).coreAt (pos + k)))) ∧
    (∀ g ∈ s.dist.gangs, s.gangTurn g = true ↔ ∀ h ∈ s.dist.gangs, h.launch = g.launch → h.num < g.num → ¬ (h.st = .wait ∧ h.b = 64)) ∧
    (∃ t, exec (.holdRefused launch gang) s = .next t ∧ t.dist.held = s.dist.held.filter (fun p => p.2 != gangKey launch gang) ∧
      t.dist.gangs = s.dist.gangs.map (fun g => if g.launch = launch ∧ g.num = gang then
        (match g.st with | .hold _ => { g with st := .backoff, b := min (2 * g.b) 8192 } | _ => g) else g) ∧ t.core = s.begun.core) ∧
    (∃ t, exec (.backoffElapsed launch gang) s = .next t ∧ t.dist.held = s.dist.held ∧
      t.dist.gangs = if s.suspending (s.launchFn launch) then s.dist.gangs else s.dist.gangs.map (fun g => if g.launch = launch ∧ g.num = gang ∧ g.st = .backoff then { g with st := .wait } else g)) ∧
    (∀ die : Fin 4, ∃ t m, exec (.freeCoreReport die) s = .next t ∧ (die.val, m) ∈ t.dist.reported ∧ t.dist.busy = s.dist.busy ∧
      ∀ i, i < 64 → (m.testBit i = s.isFree (64 * die.val + i)))) ∧ (
  ∀ (s : State) (l : Launch) (g rank n : Nat), l.fn < s.fns.length → (s.coreAt n).id = n →
    let t := s.startTask l g rank n
    let c := t.coreAt n
    let idx := g * 2 ^ l.ganglog + rank
    c.id = n ∧ c.run = .running ∧ c.level = .u ∧ c.handler = .main ∧ c.sup = false ∧ c.pc = BitVec.ofNat 64 (l.kern.addr + l.entry) ∧
    c.xfer = some { source := 0, indirect := true, checked := true } ∧ c.task.fn = l.fn ∧ c.task.launch = l.id ∧ c.task.num = s.dist.nextTask ∧
    c.ctl 0x009 = BitVec.ofNat 64 l.steer ∧ c.ctl 0x010 = BitVec.ofNat 64 idx ∧ c.ctl 0x011 = BitVec.ofNat 64 (l.ngang * 2 ^ l.ganglog) ∧
    c.ctl 0x012 = BitVec.ofNat 64 (g * 8 + rank) ∧ c.ctl 0x033 = BitVec.ofNat 64 (l.ctx + idx * l.ctxStride) ∧
    c.ctl 0x034 = BitVec.ofNat 64 l.drainT ∧ c.ctl 0x035 = BitVec.ofNat 64 l.drainN ∧ c.maps = Maps.reset ∧ c.frames = [] ∧ c.rets = [] ∧
    (c.cell (regKey 0 0)).val = l.arg.zeroExtend 2048 ∧ (∀ k, k ≠ regKey 0 0 → c.cell k = RegCell.zero) ∧ c.tiles = [] ∧ c.tileBase.isSome = true ∧
    c.session = l.suid ∧ t.mem = s.mem ∧ t.pantry = s.pantry ∧ c.cycle = (s.coreAt n).cycle ∧
    (∀ m, m ≠ n → t.coreAt m = s.coreAt m) ∧ t.dist = { s.dist with nextTask := s.dist.nextTask + 1 } ∧
    (∀ j, s.jobAt l.fn = some j → c.ctl 0x030 =
      BitVec.ofNat 64 (l.attic + idx * (nth { attic := 0, carve := [] } j.phases l.phase).attic)) ∧
    (l.nest = false → ∀ r ∈ [0x013, 0x014, 0x018, 0x019, 0x01A, 0x01B, 0x01C, 0x01D], c.ctl r = 0) ∧
    (l.nest = true →
      let p := (l.counts.take l.nlev).foldl (fun a b => a * b) 1
      let beg := min (idx * l.slice) p
      let level (q : Nat) : Nat := bits l.perm (3 * q) 3
      let inner (q : Nat) : Nat := (List.range' (q + 1) (l.nlev - (q + 1))).foldl (fun a x => a * nth 1 l.counts (level x)) 1
      c.ctl 0x013 = BitVec.ofNat 64 beg ∧ c.ctl 0x014 = BitVec.ofNat 64 (min ((idx + 1) * l.slice) p) ∧
      (beg = p → ∀ n, n < 6 → c.ctl (0x018 + n) = 0) ∧
      (beg < p → (∀ q, q < l.nlev → level q < l.nlev) → (∀ q x, q < l.nlev → x < l.nlev → level q = level x → q = x) → l.nlev ≤ 6 →
        (∀ q, q < l.nlev → c.ctl (0x018 + level q) = BitVec.ofNat 64 (beg / inner q % nth 1 l.counts (level q))) ∧
        ∀ n, l.nlev ≤ n → n < 6 → c.ctl (0x018 + n) = 0)))

/-- R136 to R139, R85, R130: a diversion with a matching drain table entry writes the context header and enters the stub; without one a full save is due.
A forced budget is only noted; a pdone that still waits has not reported, and its core's next turn is the save's. A full save that is written suspends
the task, its frames and return entries in the attic and no taint left; where the attic is too small it faults, or ends the job when it was forced. A
resumed task goes on where it was saved, or at its restore routine with PCAUSE 3, on the core named, with its identity set anew and EVLATCH set. The
model's own readings here: log 46, 47, 116, 117 and 124. -/
def Obligations.PreemptionSteps : Prop :=
  (∀ (s u : State), s.powered = true →
    writeSelf s.begun s.core.id s.core.task.fn (s.core.ctl 0x33).toNat (contextHeader s.core.pc s.core.preempt 0 0) = .ok u →
    (∀ stub restore, u.drainEntry s.core.pc = some (stub, restore) → ∃ t, exec .divert s = .next t ∧ t.core.pc = BitVec.ofNat 64 stub ∧
      t.core.rpc = u.core.pc ∧ t.core.restore = BitVec.ofNat 64 restore ∧ t.core.preempt = 0 ∧ t.core.ctl 0x36 = BitVec.ofNat 64 s.core.preempt ∧
      t.core.regs = u.core.regs ∧ t.core.cycle = u.core.cycle ∧ t.larder = u.larder) ∧
    (u.drainEntry s.core.pc = none → ∃ t, exec .divert s = .next t ∧ t.core.savePend = true ∧ t.core.rpc = u.core.pc ∧
      t.core.pc = u.core.pc ∧ t.core.preempt = u.core.preempt)) ∧
  (∀ s : State, exec .pbudgetExpiry s = .next { s.begun with core := { s.begun.core with forced := true } }) ∧
  (∀ (s : State), s.powered = true → ∃ t, exec .fullSave s = .next t) ∧
  (∀ (s u : State), s.powered = true → s.core.upd = [] → s.core.inStub = false → s.core.handler = .main → s.core.preempt ≠ 2 → s.core.saveFits = true →
    let v : State := { s.begun with core := { s.begun.core with rpc := s.core.pc } }
    (v.saveWrites s.core.preempt 0).foldlM (fun (v : State) p => writePieces v s.core.id s.core.task.fn p.1 p.2 20000) v.savedPantry.2 = .ok u →
    (∀ j, u.jobAt u.core.task.fn = some j → j.cancelled = false) → u.core.preempt = s.core.preempt → u.core.id = s.core.id →
    ∃ t x, exec .fullSave s = .next t ∧ t.core.run = .idle ∧ x ∈ t.dist.suspended ∧ x.kind = .full ∧ x.core.pc = u.core.pc ∧
      (∀ k, (x.core.cell k).val = (u.core.cell k).val ∧ (x.core.cell k).taint = 0) ∧ x.core.frames = [] ∧ x.core.rets = [] ∧
      x.core.spilled = u.core.frames ++ u.core.spilled ∧ x.core.task = u.core.task ∧ s.core.id ∉ t.dist.busy) ∧
  (∀ s : State, s.powered = true → s.core.upd = [] → s.core.inStub = false → s.core.saveFits = false →
    let v : State := { s.begun with core := { s.begun.core with rpc := s.core.pc } }
    exec .fullSave s = .next (if s.core.forced then v.endJob s.core.task.fn 3 0x14 true
      else ({ v with core := { v.core with savePend := false } } : State).raise { s.core.faultOf 0x14 with slot := 0 })) ∧
  (∀ (s : State) (x : Suspended), s.dist.suspended.find? (fun y => y.core.task.num == x.core.task.num) = some x → x.posts = [] →
    let n := s.core.id
    s.mayResume x.core.task n = true →
    let save := (s.begun.readSave n x.core).getD (x.core, x.pantry)
    ∃ t, exec (.taskResume x.core.task.num n) s = .next t ∧ t.core.id = n ∧ t.core.run = .running ∧
      t.core.task = x.core.task ∧ t.core.ctl 0 = BitVec.ofNat 64 n ∧ t.core.ctl 0x26 = 1 ∧ t.dist.busy = s.dist.busy ++ [n] ∧ t.mem = s.mem ∧
      (∀ y ∈ t.dist.suspended, y.core.task.num ≠ x.core.task.num) ∧
      (x.kind = .full → t.core.pc = x.core.pc ∧ t.core.regs = save.1.regs ∧ t.core.tiles = save.1.tiles ∧ t.core.ctl 0x36 = 0) ∧
      (x.kind = .stub → t.core.pc = x.core.restore ∧ t.core.rpc = x.core.rpc ∧ t.core.ctl 0x36 = 3 ∧ t.pantry = s.pantry)) ∧
  (∀ (s : State) (c : Core), c.run = .leaving → c.forced = true → .turn c.id ∈ s.coreActs c ∧ .stubEnd c.id ∉ s.coreActs c)


/-! The vector slots (R298 to R322) -/

/-- R303 to R307, R316, R300: every integer lane form completes on ready operands: the lanes of its result are those of the rule, computed here over exact
integers; an inactive lane keeps its old value (zero in a reduction); nothing but its one register is to change, after its latency. R306, R308, R317,
R300: the lane compares and the mask operations complete on ready operands: bit j of the mask is the compare of lane j where it is active, and 0
elsewhere; nothing but its one register is to change. R345, R347: so do the cross-file moves and the address arithmetic of the copy slots. -/
def Obligations.LaneFormsComplete : Prop :=
  ∀ (i : Instr) (f : RegForm) (s : State), (integerLanes i = some f ∨ maskResults i = some f ∨ copyForm i = some f) → i.wf = true →
    s.powered = true → f.ready s.core = true → exec i s = .next (f.leaves s)

/-- R308, R309, R311, R314, R300: every floating-point lane form, conversion, exact reduction and MX form completes on ready operands; each lane is the
exact result rounded once, NaN is canonical, an inactive lane keeps its value; nothing but its one register is to change. -/
def Obligations.FloatLanesComplete : Prop :=
  ∀ (i : Instr) (f : RegForm) (s : State), floatLanes i = some f → i.wf = true → s.powered = true → f.ready s.core = true →
    exec i s = .next (f.leaves s)

/-- R205 to R208, R302, R312, R313: the record forms complete on ready register groups: terms, groups and slots are added exactly, and a rounding form
rounds each slot once; adding terms in another order leaves the same record. The model's own readings here: log 122. -/
def Obligations.ExactRecordsComplete : Prop :=
  (∀ (i : Instr) (f : GroupForm) (s : State), recordForm i = some f → i.wf = true → s.powered = true → f.ready s.core = true →
    exec i s = .next (f.leaves s)) ∧
  (∀ (k : ExactForm) (r : Exact) (x y : FpVal), (r.add k x).add k y = (r.add k y).add k x)

/-- R310, R121, R220: a special function with ready operands completes at issue and leaves one interlocked result for its register: an active lane has the
value that R220 gives it (a lane that the model's enclosures do not decide is a free value, log 4), an inactive one its old value, lanes from the
count on are zero. The result lands when it comes; other results on their way and all registers stay. The model's own readings here: log 95. -/
def Obligations.SpecialFunctions : Prop :=
  (∀ (i : Instr) (o : VR) (srcs : List Reg) (f : Fmt → Nat → FpVal → FpVal → Option Nat) (s : State), specialForm i = some (o, srcs, f) →
    i.wf = true → s.powered = true → s.core.allReady (laneSrcs o srcs) = true → s.core.free (vFile o.v, o.d.toNat) = true →
    let k := VR.fp o
    let out := outFormat o.fout k
    let n := 2048 / max k.w out.w
    let x (r : Reg) (j : Nat) : FpVal := fpDecode k (bits (s.core.regVal r) (k.w * j) k.w)
    ∃ (t : State) (ls : List Nat), exec i s = .next t ∧ t.core.mark = .done ∧ ls.length = n ∧
      t.core.specials = s.core.specials ++
        [{ id := s.core.order.nextId, key := s.core.phys (vFile o.v) o.d.toNat, cyc := s.core.cycle,
           cell := result (ofLanes out.w ls) ((laneSrcs o srcs).map s.core.reg) }] ∧
      (∀ j, j < n → (o.m = 0 ∨ (s.core.regVal (vMasks o.v, o.m.toNat)).testBit j = true) →
        ∀ v, f out o.rm.toNat (x (nth (.s, 0) srcs 0) j) (x (nth (.s, 0) srcs 1) j) = some v → nth 0 ls j = v) ∧
      (∀ j, j < n → o.m ≠ 0 → (s.core.regVal (vMasks o.v, o.m.toNat)).testBit j = false →
        nth 0 ls j = bits (s.core.regVal (vFile o.v, o.d.toNat)) (out.w * j) out.w) ∧
      t.core.regs = s.core.regs ∧ t.core.flights = s.core.flights ∧ t.core.defer = s.core.defer ∧ t.mem = s.mem ∧ t.pantry = s.pantry) ∧
  (∀ (s : State) (x : Special), s.core.specials.find? (fun y => y.id == x.id) = some x →
    ∃ t, exec (.specialFunctionResult x.id) s = .next t ∧ t.core.cell x.key = x.cell ∧ (∀ k, k ≠ x.key → t.core.cell k = s.core.cell k) ∧
      t.core.specials = s.core.specials.filter (fun y => y.id != x.id) ∧ t.mem = s.mem)

/-- R315, R316: vshuf takes each active lane from the lane of a or b that the active pattern's selector names, or zero; vpld writes an entry of the
inactive bank, latency 2, and vpsw swaps the banks, both from the next bundle on; no register changes in them. vnop and nop change nothing. R344: cnop
has no effect and no latency: the machine goes on exactly as it stood, with nothing on its way. -/
def Obligations.ShufflesAndNops : Prop :=
  (
  (∀ (o : VR) (s : State), s.powered = true →
    let p := SMap.get 0 s.core.patterns (patternKey (vNum o.v) (nth 0 s.core.patBank (vNum o.v)) o.imm.toNat)
    let f := laneForm o [srcA o, srcB o] 32 64 3 (fun x j =>
      let sel := bits p.toNat (8 * j) 8
      if 128 ≤ sel then 0 else bits (nth 0 x (if 64 ≤ sel % 128 then 1 else 0)) (32 * (sel % 64)) 32)
    f.ready s.core = true → s.core.pflights = [] → exec (.vshuf o) s = .next (f.leaves s)) ∧
  (∀ (o : VR) (s : State), s.powered = true → s.core.ready (srcA o) = true →
    exec (.vpld o) s = .next (s.leaves [.pattern (vNum o.v) o.imm.toNat ((s.core.reg (srcA o)).val.truncate 512) 2])) ∧
  (∀ (o : VN) (s : State), s.powered = true → exec (.vpsw o) s = .next (s.leaves [.swapPatterns (vNum o.v)]) ∧ exec (.vnop o) s = .next s.begun) ∧
  (∀ s : State, s.powered = true → exec .nop s = .next s.begun)) ∧ (
  ∀ (o : CN) (s : State), s.powered = true → exec (.cnop o) s = .next s.begun)

/-- R318 to R320, R300, R322: the vector loads of the pantry with their addresses in place: vldp and vldp.dec put 64 words into the active lanes after 8
cycles, vgath one word from each lane's own address after 12; an inactive lane keeps its value; with no lane active nothing is read and no address is
checked, nor is a lane's beyond the last active one. R319, R322, R300: vstp writes the words of the active lanes at its address and vscat each at its
lane's own, the highest lane last; nothing else of any pantry, no register and no byte of memory changes. (Behind a fence that a matrix operation's
write keeps shut they wait, R182, and what a write does to a tile whose operation may still be reading its bytes: see PantryAccesses.) The model's own
readings here: log 13 and 62. -/
def Obligations.VectorPantryAccesses : Prop :=
  (
  ∀ (o : VM) (s : State), s.powered = true →
    let a : Reg := (vFile o.v, o.a.toNat)
    let b : Reg := (vFile o.v, o.b.toNat)
    let base := s.core.baseOf o
    let any := (List.range 64).any (s.core.lane o)
    let reach := match ((List.range 64).filter (s.core.lane o)).getLast? with | some j => j + 1 | none => 0
    let word (p : Nat) : Nat := ofBytes ((List.range 4).map (fun i => s.pantryByte s.core.id (p + i)))
    let lands (srcs : List Reg) (lat : Nat) (new : Nat → Nat) : State :=
      s.leaves [s.core.writes (vFile o.v, o.d.toNat) (s.core.mergeLanes o new) srcs lat]
    s.core.allReady ([a] ++ keptRegs o) = true → s.core.free (vFile o.v, o.d.toNat) = true →
    (any = true → base.toNat < 2 ^ 20 → s.core.pantryOpen = true → s.pantryCode s.core.id (base + 256 * vmDisp o).toNat 256 = none →
      s.defined s.core.id (base + 256 * vmDisp o).toNat 256 = true →
      exec (.vldp o) s = .next (lands ([a] ++ keptRegs o) 8 (fun j => word ((base + 256 * vmDisp o).toNat + 4 * j)))) ∧
    (any = true → base.toNat < 2 ^ 20 → s.core.pantryOpen = true → s.decodeCode s.core.id (base + 256 * vmDisp o).toNat reach = none →
      let p := (base + 256 * vmDisp o).toNat
      let fmt := s.fmtAt s.core.id (p / Config.bankBytes)
      let r := s.readElems none s.core.id (p / Config.bankBytes) fmt (p % Config.bankBytes * 8 / fmtBits fmt) 64
      (s.core.carving p = false → r.2 = s → exec (.vldpDec o) s = .next (lands ([a] ++ keptRegs o) 8
        (fun j => decodedLane fmt (nth (0, 0) r.1 j).1 (nth (0, 0) r.1 j).2 % 2 ^ 32))) ∧
      (s.core.carving p = true → ∃ (v : Nat → Nat) (t : State), exec (.vldpDec o) s = .next t ∧ t.core.mark = .done ∧
        t.core.defer = s.core.defer ++ [s.core.writes (vFile o.v, o.d.toNat) (s.core.mergeLanes o v) ([a] ++ keptRegs o) 8])) ∧
    (any = false → exec (.vldp o) s = .next (lands ([a] ++ keptRegs o) 8 (fun _ => 0)) ∧
      exec (.vldpDec o) s = .next (lands ([a] ++ keptRegs o) 8 (fun _ => 0))) ∧
    (
      let addr (j : Nat) : Nat := (base + vmDisp o + BitVec.ofNat 64 (bits (s.core.regVal b) (32 * j) 32)).toNat
      s.core.ready b = true → (any = true → base.toNat < 2 ^ 20 ∧ s.core.pantryOpen = true) →
      (∀ j, j < 64 → s.core.lane o j = true → s.pantryCode s.core.id (addr j) 4 = none ∧ s.defined s.core.id (addr j) 4 = true) →
      exec (.vgath o) s = .next (lands ([a, b] ++ keptRegs o) 12 (fun j => word (addr j))))) ∧ (
  ∀ (o : VM) (s : State), s.powered = true →
    let a : Reg := (vFile o.v, o.a.toNat)
    let b : Reg := (vFile o.v, o.b.toNat)
    let d : Reg := (vFile o.v, o.d.toNat)
    let base := s.core.baseOf o
    let any := (List.range 64).any (s.core.lane o)
    s.core.allReady ([a, d] ++ guardRegs o) = true → (any = true → base.toNat < 2 ^ 20 ∧ s.core.pantryOpen = true) →
    let p := (base + 256 * vmDisp o).toNat
    let lane (j : Nat) : Nat := bits (s.core.regVal d) (32 * j) 32
    let calm (at_ : Nat → Nat) : Prop :=
      ∀ j, j < 64 → s.core.lane o j = true → s.undisturbed (some s.core.id) [(s.core.id, at_ j, at_ j + 4)]
    let put (t : State) (at_ : Nat → Nat) : Prop := t.core = s.begun.core ∧ t.mem = s.mem ∧ t.larder = s.larder ∧
      (∀ c x, x < 2 ^ 20 → (∀ j, j < 64 → s.core.lane o j = true → ¬ (c = s.core.id ∧ at_ j ≤ x ∧ x < at_ j + 4)) →
        t.pantryByte c x = s.pantryByte c x) ∧
      (∀ j i, j < 64 → i < 4 → s.core.lane o j = true → s.core.carving (at_ j + i) = false →
        (∀ k, j < k → k < 64 → s.core.lane o k = true → ¬ (at_ k ≤ at_ j + i ∧ at_ j + i < at_ k + 4)) →
        t.pantryByte s.core.id (at_ j + i) = BitVec.ofNat 8 (lane j / 2 ^ (8 * i)))
    ((any = true → s.pantryCode s.core.id p 256 = none) → calm (fun j => p + 4 * j) → ∃ t, exec (.vstp o) s = .next t ∧ put t (fun j => p + 4 * j)) ∧
    (
      let addr (j : Nat) : Nat := (base + vmDisp o + BitVec.ofNat 64 (bits (s.core.regVal b) (32 * j) 32)).toNat
      s.core.ready b = true → (∀ j, j < 64 → s.core.lane o j = true → s.pantryCode s.core.id (addr j) 4 = none) → calm addr →
      ∃ t, exec (.vscat o) s = .next t ∧ put t addr))

/-- R321, R173, R176, R416: vld and vst with a lane active and a translated, 256-byte aligned address are issued as one access of 256 bytes with their
lanes' enables; a vld whose active lanes the store buffer supplies lands at once (R179); with none active vst does nothing and vld leaves its old
destination. The model's own readings here: log 41. -/
def Obligations.VectorGlobalAccesses : Prop :=
  ∀ (o : VM) (s u : State) (pa : Nat), s.powered = true →
    let a : Reg := (vFile o.v, o.a.toNat)
    let d : Reg := (vFile o.v, o.d.toNat)
    let va := s.core.baseOf o + 256 * vmDisp o
    let any := (List.range 64).any (s.core.lane o)
    let en : List Bool := if o.m = 0 then [] else (List.range 256).map (fun i => s.core.lane o (i / 4))
    s.core.allReady ([a] ++ keptRegs o) = true → s.core.free d = true →
    (any = true → va.toNat < 2 ^ 56 → va.toNat % 256 = 0 →
      (s.begun.translate va.toNat [.read] = .ok (pa, u) →
        u.core.served (vmCls o) (([a] ++ keptRegs o).map s.core.reg) va.toNat pa 256 en = none →
        exec (.vld o) s = .next (u.issues { Access.blank with
          kind := .vload, va := va, pa := pa, len := 256, enable := en, old := if o.m = 0 then 0 else (s.core.reg d).val, cls := vmCls o,
          dsts := [s.core.phys d.1 d.2], l1 := l1Allowed s.core (vmCls o) (([a] ++ guardRegs o).map s.core.reg) pa 256 en }
          (([a] ++ keptRegs o).map s.core.reg) 0 0)) ∧
      (∀ bs fwd, s.begun.translate va.toNat [.read] = .ok (pa, u) →
        u.core.served (vmCls o) (([a] ++ keptRegs o).map s.core.reg) va.toNat pa 256 en = some (bs, fwd) →
        ∃ (t : State) (c : RegCell), exec (.vld o) s = .next t ∧ t.core.mark = .done ∧ t.core.defer = s.core.defer ++ [.landed (s.core.phys d.1 d.2) c] ∧
          (∀ j i, j < 64 → i < 4 → bits c.val.toNat (32 * j + 8 * i) 8 = if s.core.lane o j then (nth 0 bs (4 * j + i)).toNat
            else bits (s.core.reg d).val.toNat (32 * j + 8 * i) 8) ∧
          c.taint = fwd.foldl (fun t x => t ||| x.taint) (taintOf (([a] ++ keptRegs o).map s.core.reg)) ∧ t.core.order = u.core.order ∧ t.mem = s.mem) ∧
      (s.core.ready d = true → s.begun.translate va.toNat [.write] = .ok (pa, u) →
        exec (.vst o) s = .next (u.issues { Access.blank with
          kind := .store, va := va, pa := pa, len := 256, data := toBytes 256 (s.core.regVal d), enable := en, cls := vmCls o,
          taint := (s.core.reg d).taint, dm := (s.core.reg d).dm } (([d, a] ++ guardRegs o).map s.core.reg) 0 0))) ∧
    (any = false → exec (.vld o) s = .next (s.leaves [.landed (s.core.phys d.1 d.2)
      { val := (s.core.reg d).val, taint := taintOf (([a] ++ keptRegs o).map s.core.reg), dm := dmOf (([a] ++ keptRegs o).map s.core.reg) }]) ∧
      (s.core.ready d = true → exec (.vst o) s = .next s.begun))


/-! The matrix engine (R116, R117, R209 to R219, R235 to R237, R324 to R341) -/

/-- R209, R211 to R213, R329, R330, R122: a dense product with its class on the engine, its operands in form and standing, and its tile at hand completes:
the tile is to hold, word by word, the chunks of the rows' products added to it in ascending order, after the occupancy and 8 cycles (16 more for a
remote operand), and until then it may still be reading its operands' bytes (R193; what a write that meets them does: PantryAccesses). In the integer
forms that is the whole sum modulo 2^32. R215, R331, R332: a sparse product with its classes, operands and metadata standing completes as a dense one
does, in half the cycles: two elements of b of every four are taken, as the group's code says. A code that names no pair is a deferred-precise
SPARSE_META with the first such group. R141: a dense product whose operands are read for several cores completes just as well (behind a fence that a
matrix operation's write keeps shut they all wait, R182); a read joins one of its own gang with the same MCID, CORE and PADDR, and has the bytes that
one had. The model's own readings here: log 13 and 98. -/
def Obligations.ProductsComplete : Prop :=
  (
  (∀ (i : Instr) (o : MA) (k : Product) (s : State), denseForm i = some (o, k) → s.powered = true → s.core.ready (.g, o.ga.toNat) = true →
    s.core.ready (.g, o.gb.toNat) = true →
    let a := s.core.desc o.ga
    let b := s.core.desc o.gb
    let n := a.kn
    let far := a.remoteBytes s.core.id + b.remoteBytes s.core.id
    let occ := occupancy (k.rate * n) far
    1 ≤ n → n ≤ k.kmax → b.kn = n → s.operandOk a k.fmtA 32 (256 * n) → s.operandOk b k.fmtB 32 (256 * n) →
    s.bitmap s.core.id &&& k.need = k.need → s.core.tileReady o.z.toNat = true → s.core.engineFree = true → s.core.pantryOpen = true →
    ∃ v : BitVec 32768, exec i s = .next (((s.occupied occ).reads (s.descSpans a ++ s.descSpans b) [o.z.toNat]
        (some (s.core.cycle + (occ + 8 + farCycles far))) [.tile o.z.toNat]).leaves [.tile o.z.toNat v (occ + 8 + farCycles far)]) ∧
      ∀ r c, r < 32 → c < 32 → tileWord v r c = productWord k a.fmt b.fmt n (tileWord (s.core.tileAt o.z.toNat) r c) (fun q =>
        (List.range 256).map (fun x => (s.elem a r (256 * q + x), s.elem b c (256 * q + x)))) % 2 ^ 32) ∧
  (∀ (i : Instr) (o : MA) (k : Product) (s : State), denseForm i = some (o, k) → s.powered = true → s.core.ready (.g, o.ga.toNat) = true →
    s.core.ready (.g, o.gb.toNat) = true →
    let a := s.core.desc o.ga
    let b := s.core.desc o.gb
    let n := a.kn
    let far := a.remoteBytes s.core.id + b.remoteBytes s.core.id
    1 ≤ n → n ≤ k.kmax → b.kn = n → s.operandStands a k.fmtA 32 (256 * n) → s.operandStands b k.fmtB 32 (256 * n) →
    s.bitmap s.core.id &&& k.need = k.need → s.core.tileReady o.z.toNat = true → s.core.engineFree = true → s.core.pantryOpen = true →
    ∃ t v, exec i s = .next t ∧ t.core.mark = .done ∧
      t.core.defer = s.core.defer ++ [.tile o.z.toNat v (occupancy (k.rate * n) far + 8 + farCycles far)] ∧ t.mem = s.mem ∧ t.pantry = s.pantry ∧
      t.core.regs = s.core.regs) ∧
  (∀ (s : State) (d : Desc) (m : Nat) (x : Multicast), s.joinable d m = some x →
    (x.launch = s.core.task.launch ∧ x.gang = s.core.task.gang ∧ x.mcid = m ∧ x.core = d.core ∧ x.paddr = d.paddr ∧ s.core.task.root = false) ∧
    ∀ a n i, i < n → (∀ p ∈ x.bytes, p.1 = a + i → ∃ q, x.bytes.find? (fun q => q.1 == a + i) = some q ∧ nth 0 (s.sharedBytes d x.bytes a n).1 i = q.2)) ∧
  (∀ (k : Product) (fa fb n acc : Nat) (pairs : Nat → List ((Nat × Nat) × (Nat × Nat))), k.int = true → acc < 2 ^ 32 →
    (productWord k fa fb n acc pairs : Int) = ((acc : Int) + (((List.range n).flatMap pairs).map (fun p =>
      laneVal k.unsA (fmtBits fa) p.1.1 * laneVal k.unsB (fmtBits fb) p.2.1)).sum) % 2 ^ 32)) ∧ (
  ∀ (i : Instr) (o : MAS) (k : Product) (s : State), sparseForm i = some (o, k) → s.powered = true → s.core.ready (.g, o.ga.toNat) = true →
    s.core.ready (.g, o.gb.toNat) = true →
    let a := s.core.desc o.ga
    let b := s.core.desc o.gb
    let n := a.kn
    let owner := 8 * s.core.cluster + o.mc.toNat
    let far := a.remoteBytes s.core.id + b.remoteBytes s.core.id + (if owner = s.core.id then 0 else 1024 * n)
    let occ := occupancy (k.rate * n / 2) far
    let m := s.pantryReadFor (some s.core.id) owner o.md.toNat (1024 * n)
    let code (r g : Nat) : Nat := bits (nth 0 m.1 (32 * n * r + g / 2)).toNat (4 * (g % 2)) 4
    1 ≤ n → n ≤ k.kmax → b.kn = n → o.md.toNat % 64 = 0 → s.operandOk a k.fmtA 32 (128 * n) → s.operandOk b k.fmtB 32 (256 * n) →
    s.metaFault owner o.md.toNat (1024 * n) = none → m.2 = s →
    s.bitmap s.core.id &&& (k.need ||| 8) = (k.need ||| 8) → s.core.tileReady o.z.toNat = true → s.core.engineFree = true → s.core.pantryOpen = true →
    ((∀ q, q < 2048 * n → (sparsePair (code (q / (64 * n)) (q % (64 * n)))).isSome = true) →
      ∃ v : BitVec 32768, exec i s = .next (((s.occupied occ).reads (s.descSpans a ++ s.descSpans b ++
          [(owner, o.md.toNat, o.md.toNat + 1024 * n)]) [o.z.toNat] (some (s.core.cycle + (occ + 8 + farCycles far))) [.tile o.z.toNat]).leaves
            [.tile o.z.toNat v (occ + 8 + farCycles far)]) ∧
        ∀ r c, r < 32 → c < 32 → tileWord v r c = productWord k a.fmt b.fmt n (tileWord (s.core.tileAt o.z.toNat) r c) (fun q =>
          (List.range 128).map (fun h =>
            let g := 64 * q + h / 2
            let p := (sparsePair (code r g)).getD (0, 1)
            (s.elem a r (128 * q + h), s.elem b c (4 * g + (if h % 2 = 0 then p.1 else p.2))))) % 2 ^ 32) ∧
    (∀ q, q < 2048 * n → sparsePair (code (q / (64 * n)) (q % (64 * n))) = none →
      (∀ p, p < q → (sparsePair (code (p / (64 * n)) (p % (64 * n)))).isSome = true) →
      ∃ t f, exec i s = .next t ∧ t.core.mark = .done ∧ t.core.deferred = s.core.deferred ++ [f] ∧ f.code = 0x22 ∧ f.kind = 1 ∧ f.d0 = BitVec.ofNat 64 q ∧
        t.core.tiles = s.core.tiles ∧ t.core.defer = s.core.defer))

/-- R333, R334, R217, R335: the tile forms complete on tiles at hand with the engine free: mzero clears, madd adds word by word with one rounding, mcopy
copies, mtrn transposes; mload fills a tile from a matrix of the pantry, and mrot fills its tiles with the exact signed sums of its groups, each
rounded once. (Behind a fence that a matrix operation's write keeps shut mload and mrot wait, R182.) The elements of their operand are those it has at
issue, and its bytes may still be read until the bound (what a write that meets them does: PantryAccesses): the model's own reading, log 13. -/
def Obligations.TileOperations : Prop :=
  ∀ s : State, s.powered = true → s.core.engineFree = true →
    let made (z : BitVec 10) (source : List Nat) : State := (s.occupied 1).reads [] source none [.tile z.toNat]
    (∀ o : MZ, s.core.tileReady o.z.toNat = true → exec (.mzero o) s = .next ((made o.z []).leaves [.tile o.z.toNat 0 2])) ∧
    (∀ o : MT, s.core.tileReady o.z.toNat = true → s.core.tileReady o.y.toNat = true →
      let x (i j : Nat) : Nat := tileWord (s.core.tileAt o.z.toNat) i j
      let y (i j : Nat) : Nat := tileWord (s.core.tileAt o.y.toNat) i j
      exec (.mcopy o) s = .next ((made o.z [o.y.toNat]).leaves [.tile o.z.toNat (s.core.tileAt o.y.toNat) 8]) ∧
      (∃ v, exec (.madd o) s = .next ((made o.z [o.z.toNat, o.y.toNat]).leaves [.tile o.z.toNat v 8]) ∧ ∀ i j, i < 32 → j < 32 →
        tileWord v i j = fpRound fp32 0 (fpAdd 0 (fpDecode fp32 (x i j)) (fpDecode fp32 (y i j))) % 2 ^ 32) ∧
      (∃ v, exec (.mtrn o) s = .next ((made o.z [o.y.toNat]).leaves [.tile o.z.toNat v 12]) ∧ ∀ i j, i < 32 → j < 32 → tileWord v i j = y j i)) ∧
    (∀ o : MLD, s.core.ready (.g, o.g.toNat) = true → s.core.tileReady o.z.toNat = true →
      let g := s.core.desc o.g
      let far := g.remoteBytes s.core.id
      s.core.pantryOpen = true → s.operandOk g [0, 1, 2, 3, 4, 9, 10] 32 32 →
      ∃ v, exec (.mload o) s = .next (((s.occupied (occupancy 1 far)).reads (s.descSpans g) [] (some (s.core.cycle + (20 + farCycles far)))
        [.tile o.z.toNat]).leaves [.tile o.z.toNat v (20 + farCycles far)]) ∧ ∀ i j, i < 32 → j < 32 →
        tileWord v i j = (if g.fmt = 0 then (s.elem g i j).1 else decodedLane g.fmt (s.elem g i j).1 127) % 2 ^ 32) ∧
    (∀ o : MG, (Instr.mrot o).wf = true → s.core.ready (.g, o.g.toNat) = true →
      let g := s.core.desc o.g
      let n := if o.p = 0 then 16 else if o.p = 1 then 64 else 256
      let tiles := if o.p = 0 then 1 else if o.p = 1 then 2 else 8
      let far := g.remoteBytes s.core.id
      let occ := occupancy (n / 8) far
      s.core.pantryOpen = true → s.operandOk g [1, 2, 3, 4, 5, 6, 7, 8] 32 (max 32 n) → s.bitmap s.core.id &&& 16 = 16 →
      (∀ q, q < tiles → s.core.tileReady (o.z.toNat + q) = true) →
      ∃ v : Nat → BitVec 32768,
        exec (.mrot o) s = .next (((s.occupied occ).reads (s.descSpans g) [] (some (s.core.cycle + (occ + 8 + farCycles far)))
            ((List.range tiles).map (fun q => .tile (o.z.toNat + q)))).leaves ((List.range tiles).map (fun q => .tile (o.z.toNat + q) (v q) (occ + 8 + farCycles far)))) ∧
        ∀ q i j, q < tiles → i < 32 → j < 32 →
          let c := 32 * q + j
          tileWord (v q) i j = fpRound fp32 0 (exactSum ((List.range n).map (fun m =>
            let e := s.elem g i (c / n * n + m)
            let x := elemValue g.fmt e.1 e.2
            if (((List.range 8).filter (fun b => bit (c % n) b && bit m b)).length % 2 = 1) then fpNeg x else x))) % 2 ^ 32)

/-- R218, R336 to R338, R193: a drain with its descriptor in form and its pantry bytes standing completes: the rows of its tile, raw or rounded in the
bank's format, scaled, dropped and joined to a residual as its parameters say, stand in the pantry for the matrix engine at once and for others after
its latency; no tile and no register changes. (What a write does to a tile whose operation may still be reading its bytes: PantryAccesses.) A
residual's elements are those it has at issue. The model's own readings here: log 13 and 64. -/
def Obligations.DrainsComplete : Prop :=
  ∀ s : State, s.powered = true → s.core.engineFree = true →
    let drains (i : Instr) (bs : List (Nat × Nat × List Byte)) (occ lat : Nat) : Prop := s.undisturbed (some s.core.id) (rangesOf bs) → ∃ t, exec i s = .next t ∧ t.core.mark = .done ∧
      t.pantry = s.pantryAfter bs ∧ t.core.drains = s.core.drains ++ drainRanges bs (s.core.cycle + lat) ∧ t.core.mFree = s.core.cycle + occ ∧
      t.core.defer = s.core.defer ∧ t.core.tiles = s.core.tiles ∧ t.core.regs = s.core.regs ∧ t.core.deferred = s.core.deferred ∧ t.mem = s.mem
    (∀ o : MG, s.core.ready (.g, o.g.toNat) = true → s.core.tileReady o.z.toNat = true → s.core.pantryOpen = true →
      let g := s.core.desc o.g
      let far := g.remoteBytes s.core.id
      let tile := s.core.tileAt o.z.toNat
      g.formOk = true → g.fmt ≤ 10 → g.rows = 32 → g.cols = 32 → s.descFault g = none → (o.p = 0 ∨ (isMx g.fmt = false ∧ g.fmt ≠ 0)) →
      drains (.mdrain o) (if g.fmt = 0 then (List.range 32).map (fun i => (g.core, g.row i, toBytes 128 (ofLanes 32 ((List.range 32).map (tileWord tile i)))))
        else s.drainBytes g o.p.toNat (fun i j => fpDecode fp32 (tileWord tile i j))) (occupancy 1 far) (20 + farCycles far)) ∧
    (∀ o : MGX, s.core.ready (.g, o.g.toNat) = true → s.core.tileReady o.z.toNat = true → s.core.pantryOpen = true →
      s.pantryCode s.core.id o.pa.toNat 64 = none →
      let m := s.pantryReadFor (some s.core.id) s.core.id o.pa.toNat 64
      let p := drainParam s.core.cluster m.1
      let g := s.core.desc o.g
      let far := g.remoteBytes s.core.id + (if p.res then p.resDesc.remoteBytes s.core.id else 0)
      let need : BitVec 16 := if p.drop || p.res then 32 else 0
      m.2 = s → p.ok = true → g.formOk = true → 1 ≤ g.fmt → g.fmt ≤ 10 → g.rows = 32 → g.cols = 32 → s.descFault g = none →
      (o.p = 0 ∨ isMx g.fmt = false) → (p.res = true → s.operandOk p.resDesc [p.resDesc.fmt] 32 32) → s.bitmap s.core.id &&& need = need →
      drains (.mdrainx o) (s.drainBytes g o.p.toNat (fun i j => p.value (tileWord (s.core.tileAt o.z.toNat) i j) i j
        (elemValue p.resDesc.fmt (if p.res then s.elem p.resDesc i j else (0, 127)).1 (if p.res then s.elem p.resDesc i j else (0, 127)).2)))
        (occupancy 1 far) (28 + farCycles far))

/-- R326, R339, R340: gset and gget move 128 bits between a descriptor register and a pair of c- or d-registers; mcap writes the six class bits of the
engine into six predicates, latency 2, without taint; mwait completes when no tile is pending and every earlier bound has passed, and otherwise holds
its bundle. -/
def Obligations.DescriptorMovesAndStatus : Prop :=
  ∀ s : State, s.powered = true → s.core.engineFree = true →
    (∀ o : MD, (Instr.gset o).wf = true →
      let f : File := if o.f = 0 then .c else .d
      let lo : Reg := (f, o.c.toNat)
      let hi : Reg := (f, o.c.toNat + 1)
      let g : Reg := (.g, o.g.toNat)
      (s.core.allReady [lo, hi] = true → s.core.free g = true → exec (.gset o) s =
        .next ((s.occupied 1).leaves [s.core.writes g (s.core.regVal lo + 2 ^ 64 * s.core.regVal hi) [lo, hi] 2])) ∧
      (s.core.ready g = true → s.core.free lo = true → s.core.free hi = true → exec (.gget o) s =
        .next ((s.occupied 1).leaves [s.core.writes lo (s.core.regVal g % 2 ^ 64) [g] 2, s.core.writes hi (s.core.regVal g / 2 ^ 64) [g] 2]))) ∧
    (∀ o : MK, (Instr.mcap o).wf = true → (∀ i, i < 6 → s.core.free (.k, o.k.toNat + i) = true) → exec (.mcap o) s =
      .next ((s.occupied 1).leaves ((List.range 6).map (fun i => s.core.writes (.k, o.k.toNat + i) ((s.bitmap s.core.id).getLsbD i).toNat [] 2)))) ∧
    (
      let idle := s.core.steered.isEmpty && s.core.emul.isNone && s.core.serving.isNone && s.core.drains.isEmpty && s.core.tflights.all (fun x => x.row.isSome)
      (idle = true → exec .mwait s = .next (s.occupied 1).begun) ∧
      (idle = false → ∃ t, exec .mwait s = .next t ∧ t.core.mark = .stalled ∧ t.core.tiles = s.core.tiles))

/-- R235, R133, R237: an operation that lacks its class is resolved at issue by STEERP: at policy 4, and at 1 with no able engine, it faults CAP_MISS or
CAP_RETIRED and has no other effect; at 1 and 3 an able engine of the cluster performs it and its result is pending; at 2, and at 3 without one, it is
left to the emulation library, whose trap is due at the boundary. In a handler, or without a library where one is needed, it faults CAP_MISS to S
level. Before all that it waits while its tile is pending, the engine busy, a fence shut (R119, R121, R182, R324), or the dispatcher full. Here for a
dense product of BF16. R236: a steered operation completes: its tiles and bytes are written, or its deferred-precise fault is due, and it is no longer
pending. R345, R346: xmov.zv reads the row pair of a tile once the bounds of its writers have passed, xmov.vz writes one after 8 cycles, and both wait
for a pending tile. The model's own readings here: log 13, 15, 39 and 50. -/
def Obligations.SteeringAndMoves : Prop :=
  (
  ∀ (o : MA) (s : State), s.powered = true → s.core.ready (.g, o.ga.toNat) = true → s.core.ready (.g, o.gb.toNat) = true →
    let a := s.core.desc o.ga
    let b := s.core.desc o.gb
    let policy := (s.core.ctl 9).toNat
    let lacks (code : Nat) (toS : Bool) : Prop := ∃ f, exec (.mmaBf16 o) s = .next (s.traps f) ∧ f.code = code ∧ f.toS = toS ∧ f.d0 = 4 ∧
      f.d1 = (s.bitmap s.core.id).zeroExtend 64
    let waits : Prop := ∃ t, exec (.mmaBf16 o) s = .next t ∧ t.core.mark = .stalled ∧ t.core.steered = s.core.steered ∧ t.core.defer = s.core.defer ∧
      t.core.tiles = s.core.tiles
    (s.core.pantryOpen = false ∨ s.core.tilePending o.z.toNat = true ∨ s.core.engineFree = false → waits) ∧
    (s.core.pantryOpen = true → s.core.tilePending o.z.toNat = false → s.core.engineFree = true →
    a.kn = 1 → b.kn = 1 → s.operandOk a [2] 32 256 → s.operandOk b [2] 32 256 → s.bitmap s.core.id &&& 4 = 0 →
    (s.core.inHandler = true → lacks 0x20 true) ∧
    (s.core.inHandler = false →
      (policy = 4 → lacks 0x20 false) ∧
      (policy = 1 → s.ableEngine 4 = none → lacks 0x21 false) ∧
      ((policy = 2 ∨ (policy = 3 ∧ s.ableEngine 4 = none)) → s.hasLibrary = false → lacks 0x20 true) ∧
      ((policy = 2 ∨ (policy = 3 ∧ s.ableEngine 4 = none)) → s.hasLibrary = true →
        ∃ e, exec (.mmaBf16 o) s = .next ((s.occupied 1).leaves [.emulate e]) ∧ e.syl = s.core.cur.syl ∧ e.ext = s.core.cur.ext ∧ e.pc = s.core.pc ∧
          e.missing = 4 ∧ e.z = o.z.toNat ∧ e.n = 1) ∧
      (∀ n, (policy = 1 ∨ policy = 3) → s.ableEngine 4 = some n → s.core.tileReady o.z.toNat = true → s.core.steered.length < 4 →
        n ≠ s.core.id ∧ n / 8 = s.core.id / 8 ∧ s.bitmap n &&& 4 = 4 ∧
        ∃ t x, exec (.mmaBf16 o) s = .next t ∧ t.core.mark = .done ∧ t.core.steered = s.core.steered ++ [x] ∧ x.tiles.map (fun p => p.1) = [o.z.toNat] ∧
          x.names = [o.z.toNat] ∧ x.fault = none ∧ t.core.defer = s.core.defer ∧ t.core.mFree = s.core.cycle + 1 ∧
          ∀ c : Core, x ∈ c.steered → s.core.cycle ≠ c.cycle → c.tilePending o.z.toNat = true) ∧
      (∀ n, (policy = 1 ∨ policy = 3) → s.ableEngine 4 = some n → 4 ≤ s.core.steered.length → waits)))) ∧ (
  (∀ (s : State) (x : Steered), s.core.steered.find? (fun y => y.id == x.id) = some x →
    ∃ t, exec (.steeredComplete x.id) s = .next t ∧ t.core.steered = s.core.steered.filter (fun y => y.id != x.id) ∧ t.core.regs = s.core.regs ∧ t.mem = s.mem ∧
      (∀ f, x.fault = some f → t.core.deferred = s.core.deferred ++ [f] ∧ t.core.tiles = s.core.tiles ∧ t.pantry = s.pantry) ∧
      (x.fault = none → t.core.deferred = s.core.deferred ∧ t.pantry = s.pantry ∧ (∀ d a, t.core.drainsByte d a = true → s.core.drainsByte d a = true) ∧
        t.core.tiles = x.tiles.foldl (fun m p => SMap.put m p.1 p.2) s.core.tiles)) ∧
  (∀ (o : CZ) (s : State), s.powered = true → s.core.serving = none →
    (s.core.tilePending o.z.toNat = false → s.core.tflights = [] → s.core.free (.v, o.r.toNat) = true → exec (.xmovZv o) s = .next (s.leaves
      [s.core.writes (.v, o.r.toNat) ((s.core.tileAt o.z.toNat).toNat / 2 ^ (2048 * o.h.toNat) % 2 ^ 2048) [] 8])) ∧
    (s.core.tilePending o.z.toNat = false → s.core.tflights = [] → s.core.ready (.v, o.r.toNat) = true → exec (.xmovVz o) s = .next (s.leaves
      [.tileRows o.z.toNat o.h.toNat (s.core.reg (.v, o.r.toNat)).val 8])) ∧
    (s.core.tilePending o.z.toNat = true → (∃ t, exec (.xmovZv o) s = .next t ∧ t.core.mark = .stalled) ∧ ∃ t, exec (.xmovVz o) s = .next t ∧ t.core.mark = .stalled)))

/-! The copy slots: the tag table, bank formats and carving (R91, R150 to R152, R373 to R375) -/

/-- R150, R151, R373: tlook gives the slot of the valid entry with the line and sets its REF; with none it gives a usable victim whose entry is not both
valid and referenced, moves the hand behind it, and clears REF on the way; with no usable slot it gives bit 62. R152: tins and tdel change entries,
tscan reads one. R374, R91, R375: bfmt reads and writes a format, from the next bundle on, and pcarve loads its carve element; the end of its drain
leaves only the changed banks undefined. The model's own readings here: log 13, 65 and 121. -/
def Obligations.TagTableAndBanks : Prop :=
  (∀ (o : CT2) (s : State), s.powered = true → s.core.ready (cFile o.v, o.a.toNat) = true → s.core.free (cFile o.v, o.r.toNat) = true →
    let n := s.core.slots
    let a := s.core.word (cFile o.v, o.a.toNat)
    let hit (i : Nat) : Prop := i < n ∧ (s.core.tag i).getLsbD 63 = true ∧ bits (s.core.tag i).toNat 8 48 = bits a.toNat 8 48
    let gives (v : Nat) : List Effect := s.core.defer ++ [s.core.writes (cFile o.v, o.r.toNat) v [(cFile o.v, o.a.toNat)] 4]
    let rest (t : State) : Prop := t.core.mark = .done ∧ t.mem = s.mem ∧ t.pantry = s.pantry ∧ t.core.regs = s.core.regs ∧ t.core.order = s.core.order
    (n = 0 → exec (.tlook o) s = .next (s.traps (s.core.syllableFault 0x02))) ∧
    (∀ i, hit i → (∀ j, j < i → ¬ hit j) → ∃ t, exec (.tlook o) s = .next t ∧ rest t ∧ t.core.defer = gives (2 ^ 63 + i) ∧ t.core.hand = s.core.hand ∧
      t.core.tag i = s.core.tag i ||| 0x2000000000000000 ∧ ∀ j, j ≠ i → t.core.tag j = s.core.tag j) ∧
    (n ≠ 0 → (∀ i, ¬ hit i) → (∀ i, i < n → s.slotUsable i = false) → exec (.tlook o) s =
      .next (s.leaves [s.core.writes (cFile o.v, o.r.toNat) (2 ^ 62) [(cFile o.v, o.a.toNat)] 4])) ∧
    ((∀ i, ¬ hit i) → (∃ i, i < n ∧ s.slotUsable i = true) → s.core.hand < n → ∃ t i, exec (.tlook o) s = .next t ∧ rest t ∧ i < n ∧ s.slotUsable i = true ∧
      t.core.defer = gives i ∧ t.core.hand = (i + 1) % n ∧ ((t.core.tag i).getLsbD 63 && (t.core.tag i).getLsbD 61) = false ∧
      ∀ j, t.core.tag j = s.core.tag j ∨ t.core.tag j = s.core.tag j &&& ~~~ 0x2000000000000000) ∧
    (a.toNat < n → exec (.tscan o) s = .next (s.leaves [s.core.writes (cFile o.v, o.r.toNat) (s.core.tag a.toNat).toNat [(cFile o.v, o.a.toNat)] 4])) ∧
    (n ≤ a.toNat → exec (.tscan o) s = .next (s.traps (s.core.regFault (cFile o.v, o.a.toNat))))) ∧
  (∀ (o : CTI) (s : State), s.powered = true → s.core.ready (cFile o.v, o.a.toNat) = true → s.core.ready (cFile o.v, o.b.toNat) = true →
    let i := (s.core.word (cFile o.v, o.a.toNat)).toNat
    let b := s.core.word (cFile o.v, o.b.toNat)
    (i < s.core.slots → s.slotUsable i = true → b.toNat % 256 = 0 → ∃ t, exec (.tins o) s = .next t ∧ t.core.mark = .done ∧ t.core.defer = s.core.defer ∧
      t.core.tag i = b ||| 0xA000000000000000 ∧ t.mem = s.mem ∧ t.pantry = s.pantry ∧ t.core.regs = s.core.regs ∧
      ∀ j, j ≠ i → t.core.tag j = if j < s.core.slots ∧ bits (s.core.tag j).toNat 8 48 = bits b.toNat 8 48 then s.core.tag j &&& 0x7FFFFFFFFFFFFFFF
        else s.core.tag j) ∧
    (¬ (i < s.core.slots ∧ s.slotUsable i = true) → exec (.tins o) s = .next (s.traps (s.core.regFault (cFile o.v, o.a.toNat)))) ∧
    (i < s.core.slots → s.slotUsable i = true → b.toNat % 256 ≠ 0 → exec (.tins o) s = .next (s.traps (s.core.regFault (cFile o.v, o.b.toNat))))) ∧
  (∀ (o : CTD) (s : State), s.powered = true → s.core.ready (cFile o.v, o.a.toNat) = true →
    let i := (s.core.word (cFile o.v, o.a.toNat)).toNat
    (i < s.core.slots → s.slotUsable i = true → ∃ t, exec (.tdel o) s = .next t ∧ t.core.mark = .done ∧ t.core.defer = s.core.defer ∧
      t.core.tag i = s.core.tag i &&& 0x7FFFFFFFFFFFFFFF ∧ (∀ j, j ≠ i → t.core.tag j = s.core.tag j) ∧ t.core.regs = s.core.regs ∧ t.mem = s.mem) ∧
    (¬ (i < s.core.slots ∧ s.slotUsable i = true) → exec (.tdel o) s = .next (s.traps (s.core.regFault (cFile o.v, o.a.toNat))))) ∧
  (∀ (o : CTB) (s : State), s.powered = true →
    let b := o.b.toNat
    let r : Reg := (cFile o.v, o.r.toNat)
    (s.core.free r = true → exec (.bfmtRead o) s = .next (s.leaves [s.core.writes r (SMap.get 0 s.core.bfmt b +
      (if 16 ≤ s.core.tagged + b then 16 else 0) + 64 * s.rung s.core.id b) [] 2])) ∧
    (s.core.ready r = true → (s.core.word r).toNat ≤ 10 → s.rung s.core.id b ≠ 3 →
      exec (.bfmtWrite o) s = .next (s.leaves [.fmt b (s.core.word r).toNat])) ∧
    (s.core.ready r = true → 10 < (s.core.word r).toNat → exec (.bfmtWrite o) s = .next (s.traps (s.core.regFault r)))) ∧
  (∀ (o : CN) (s : State) (j : Job), s.powered = true → s.jobAt s.core.task.fn = some j →
    let e := nth (0, 0) (nth { attic := 0, carve := [] } j.phases s.core.task.phase).carve s.core.id
    (s.core.carve = none → (∃ t, exec (.pcarve o) s = .next t ∧ t.core.mark = .done ∧ t.core.defer = s.core.defer ++ [.carve e.1 e.2] ∧
        t.core.regs = s.core.regs ∧ t.core.cr = s.core.cr ∧ t.mem = s.mem) ∧
      (s.undisturbed none [(s.core.id, 0xC000 * (16 - max e.1 s.core.tagged), 0xC000 * (16 - min e.1 s.core.tagged))] →
        exec (.pcarve o) s = .next (s.leaves [.carve e.1 e.2]))) ∧
    (s.core.carve.isSome = true → ∃ t, exec (.pcarve o) s = .next t ∧ t.core.mark = .stalled ∧ t.core.defer = s.core.defer)) ∧
  (∀ s : State, (s.core.carve = none → exec .pcarveDrainEnd s = .next s.begun) ∧
    (∀ d, s.core.carve = some d → d.until_ ≤ s.core.cycle ∨ s.core.run ≠ .running → ∃ t, exec .pcarveDrainEnd s = .next t ∧ t.core.carve = none ∧ t.core.regs = s.core.regs ∧
      t.mem = s.mem ∧ ∀ c a, a < 2 ^ 20 → (d.banks.headD 0 + d.banks.length) ≤ 16 →
        (c ≠ s.core.id ∨ a < 0xC000 * d.banks.headD 0 ∨ 0xC000 * (d.banks.headD 0 + d.banks.length) ≤ a) → t.pantryByte c a = s.pantryByte c a))

/-! Engine queues (R166, R190 to R192, R348 to R372) -/

/-- R349 to R352, R354, R358, R360 to R366, R190: an engine command with its group ready, its words as its rule asks and room in its queue enters at the
end of the queue with the next number, its group's words, NJ and EV; nothing else changes. The entry waits for the accesses of its issue mask and of
its taints, returning qcels among them (R191, R176, R173). Words that break a rule are ILLEGAL_OPERAND, and a full queue holds the bundle. The model's
own readings here: log 67 and 68. -/
def Obligations.EngineCommandsEnter : Prop :=
  ∀ (i : Instr) (op : QOp) (o : CQ) (n : Nat) (s : State), commandForm i = some (op, o, n) → i.wf = true → s.powered = true → s.core.queues.length = 4 →
    let r (k : Nat) : Reg := (cFile o.v, o.r.toNat + k)
    let ws := (List.range n).map (fun k => s.core.word (r k))
    let w (k : Nat) : Nat := (nth 0 ws k).toNat
    let q := s.core.queue op.home
    let taint := taintOf ((List.range n).map (fun k => s.core.reg (r k)))
    (List.range n).all (fun k => s.core.ready (r k)) = true →
    (Config.queueEntries ≤ q.entries.length → ∃ t, exec i s = .next t ∧ t.core.mark = .stalled ∧ t.core.queues = s.core.queues ∧ t.core.regs = s.core.regs) ∧
    (q.entries.length < Config.queueEntries → ¬ s.commandRight op w → ∃ k, k < n ∧ exec i s = .next (s.traps (s.core.regFault (r k)))) ∧
    (q.entries.length < Config.queueEntries → s.commandRight op w → ¬ s.core.arrivalBarred op w →
      (op = .copy → s.core.pantryOpen = true ∧ s.pantryCode s.core.id (w 2) 64 = none ∧ s.pantryCode s.core.id (w 2 + 64) 64 = none ∧ s.defined s.core.id (w 2) 128 = true ∧
        (nestOf ((List.range 128).map (fun k => s.pantryByte s.core.id (w 2 + k)))).isSome = true) →
      (op = .cel → returning (bits (w 1) 36 3) = true → s.core.free (r 0) = true) →
      ∃ t e, exec i s = .next t ∧ t.core.mark = .done ∧ t.core.queue op.home = q.plus e ∧ (∀ p, p ≠ op.home → t.core.queue p = s.core.queue p) ∧
        e.num = q.iss ∧ e.op = op ∧ e.group = ws ∧ e.j = (o.nj == 0) ∧ e.ev = (o.ev == 1) ∧ e.started = false ∧ e.sent = false ∧ e.elem = 0 ∧
        e.pc = s.core.pc ∧ e.taint = taint ∧ e.mask = o.m.getD 0xFFFF ∧ e.own = false ∧ e.answer = [] ∧
        (op = .copy → nestOf ((List.range 128).map (fun k => s.pantryByte s.core.id (w 2 + k))) = some e.nest) ∧
        (e.key = if op = .cel ∧ returning (bits (w 1) 36 3) = true
          then some (s.core.phys (cFile o.v) o.r.toNat) else none) ∧
        (∀ x, x ∈ e.after ↔ (∃ a ∈ s.core.order.acc, a.id = x ∧ ((o.m.getD 0xFFFF).getLsbD a.cls = true ∨
          (∃ k, a.tag = some k ∧ (taint ||| s.core.order.ptaint).getLsbD k = true) ∨
          ((taint ||| s.core.order.ptaint).getLsbD 15 = true ∧ a.kind.returns = true))) ∨
          ∃ p ∈ s.core.queues, ∃ y ∈ p.entries, y.id = x ∧ ∃ k, y.tag = some k ∧
            ((taint ||| s.core.order.ptaint).getLsbD k = true ∨ (taint ||| s.core.order.ptaint).getLsbD 15 = true)) ∧
        t.core.order = { s.core.order with
          nextId := s.core.order.nextId + (if op = .cel ∧ returning (bits (w 1) 36 3) = true then 1 else 0) } ∧
        t.core.regs = s.core.regs ∧ t.core.defer = s.core.defer ∧ t.mem = s.mem ∧ t.pantry = s.pantry ∧ t.fabric = s.fabric)

/-- R192, R369: qfence puts an entry into each queue it names, which waits for all that stood in them. R370, R192: qwait completes, as an acquire, with 0
once the entry or the whole queue is complete and with the stop's code where it was discarded or cannot be reached, and waits until then. R371: qstat
reads its items. R372: qirq restarts, discards or marks. R359: qack gives ring bytes back from the next bundle on. The model's own readings here: log
70 and 125. -/
def Obligations.QueueControl : Prop :=
  ∀ s : State, s.powered = true → s.core.queues.length = 4 →
    let illegal := s.traps (s.core.syllableFault 0x02)
    let same (t : State) : Prop := t.core.mark = .done ∧ t.core.regs = s.core.regs ∧ t.core.defer = s.core.defer ∧ t.mem = s.mem ∧ t.pantry = s.pantry
    (∀ o : CWF, (o.qm = 0 → exec (.qfence o) s = .next illegal) ∧
      (o.qm ≠ 0 → (∀ q, q < 4 → o.qm.getLsbD q = true → (s.core.queue q).entries.length < Config.queueEntries) →
        ∃ t, exec (.qfence o) s = .next t ∧ same t ∧ ∀ q, q < 4 →
          if o.qm.getLsbD q = true then ∃ e, t.core.queue q = (s.core.queue q).plus e ∧ e.op = .fence ∧ e.num = (s.core.queue q).iss ∧
            ∀ p n, (p, n) ∈ e.mates ↔ p < 4 ∧ o.qm.getLsbD p = true ∧ (s.core.queue p).holds n
          else t.core.queue q = s.core.queue q)) ∧
    (∀ o : CW,
      let r : Reg := (cFile o.v, o.r.toNat)
      let v := (s.core.word r).toNat
      let q := s.core.queue o.q.toNat
      let ends (k : Nat) : State := { s.leaves [s.core.writes r k [r] 1] with core := (s.leaves [s.core.writes r k [r] 1]).core.acquired }
      let n := v % 2 ^ 32
      let off := s.traps (s.core.regFault r)
      let waits : Prop := ∃ t, exec (.qwait o) s = .next t ∧ t.core.mark = .stalled ∧ t.core.queues = s.core.queues ∧ t.core.regs = s.core.regs
      s.core.ready r = true →
      (v = 2 ^ 64 - 1 → (q.entries = [] → exec (.qwait o) s = .next (ends 0)) ∧
        (q.entries ≠ [] → (∀ k, q.stop = some k → exec (.qwait o) s = .next (ends k)) ∧ (q.stop = none → waits))) ∧
      (v ≠ 2 ^ 64 - 1 → q.iss ≤ n → exec (.qwait o) s = .next off) ∧
      (v ≠ 2 ^ 64 - 1 → n < q.iss →
        (q.discarded n = true → exec (.qwait o) s = .next (ends q.discCode)) ∧
        (q.discarded n = false → ¬ q.holds n → exec (.qwait o) s = .next (ends 0)) ∧
        (q.discarded n = false → q.holds n → (∀ k, q.stop = some k → q.age q.stopNum ≤ q.age n → exec (.qwait o) s = .next (ends k)) ∧
          ((q.stop = none ∨ q.age n < q.age q.stopNum) → waits))) ∧
      (v = 0 → exec (.qstat o) s = .next (s.leaves [s.core.writes r
        (q.entries.length + (match q.stop with | some k => 2 ^ 40 + k * 2 ^ 32 | none => 0)) [] 4])) ∧
      (v = 1 → exec (.qstat o) s = .next (s.leaves [s.core.writes r q.iss [] 4])) ∧
      (v = 2 → o.q = 2 → exec (.qstat o) s = .next (s.leaves [s.core.writes r (s.core.ring.pi % 2 ^ 32) [] 4])) ∧
      (v = 3 → o.q = 2 → exec (.qstat o) s = .next (s.leaves [s.core.writes r (s.core.ring.ci % 2 ^ 32) [] 4])) ∧
      (v = 4 → exec (.qstat o) s = .next (s.leaves [s.core.writes r
        (match q.stopped with | some e => e.num * 2 ^ 32 + e.elem | none => 0) [] 4])) ∧
      ((4 < v ∨ (o.q ≠ 2 ∧ (v = 2 ∨ v = 3))) → exec (.qstat o) s = .next off) ∧
      (v = 0 → ∃ t, exec (.qirqRestart o) s = .next t ∧ same t ∧ t.core.queue o.q.toNat = { q with stop := none } ∧
        ∀ p, p ≠ o.q.toNat → t.core.queue p = s.core.queue p) ∧
      (v = 1 → (q.stop = none → exec (.qirqDiscard o) s = .next s.begun) ∧
        (∀ k, q.stop = some k → ∃ t, exec (.qirqDiscard o) s = .next t ∧ t.core.mark = .done ∧ (t.core.queue o.q.toNat).stop = none ∧
          (t.core.queue o.q.toNat).discCode = k ∧ (t.core.queue o.q.toNat).discLo = q.stopNum ∧ (t.core.queue o.q.toNat).iss = q.iss ∧
          (t.core.queue o.q.toNat).entries.map (fun e => e.num) =
            (q.entries.map (fun e => e.num)).filter (fun n => decide (q.age n < q.age q.stopNum)) ∧ t.mem = s.mem ∧ t.pantry = s.pantry)) ∧
      (v = 2 → q.entries.length < Config.queueEntries → ∃ t e, exec (.qirqMark o) s = .next t ∧ same t ∧ t.core.queue o.q.toNat = q.plus e ∧
        e.op = .marker ∧ e.ev = true ∧ ∀ p, p ≠ o.q.toNat → t.core.queue p = s.core.queue p) ∧
      (v ≠ 0 → exec (.qirqRestart o) s = .next off) ∧ (v ≠ 1 → exec (.qirqDiscard o) s = .next off) ∧
      (v ≠ 2 → exec (.qirqMark o) s = .next off)) ∧
    (∀ o : CWA, s.core.ready (cFile o.v, o.r.toNat) = true →
      let r : Reg := (cFile o.v, o.r.toNat)
      let v := (s.core.word r).toNat
      let fits := v % 256 = 0 ∧ s.core.given + v ≤ s.core.ring.pi - s.core.ring.ci
      (o.q = 2 → fits → exec (.qack o) s = .next (s.leaves [.give v])) ∧ (o.q = 2 → ¬ fits → exec (.qack o) s = .next (s.traps (s.core.regFault r))) ∧
      (o.q ≠ 2 → exec (.qack o) s = .next illegal))

/-- R190, R353: an entry of q0 with one run between two banks of one format, whose turn has come, copies its bytes and is performed; no other byte
changes. With no entry to go on with, a queue's start does nothing. R190, R192, R349: an entry that is done leaves its queue, and posts event bit 0
where it was asked to; one that is not stays. R355 to R358: a stored block is written into the ring at PI, which moves by its count, once its check is
right. The model's own readings here: log 13, 14, 66, 69, 71 and 123. -/
def Obligations.QueueEntriesRun : Prop :=
  (∀ (s : State) (q : Fin 4), s.core.startable q.val = [] → exec (.queueEntryStart q) s = .next s.begun) ∧
  (∀ (s : State) (e : Entry) (c a d b : Nat), s.core.startable 0 = [e] → (s.core.queue 0).overlapped e = false →
    e.op = .copy → e.started = false → e.elem = 0 → e.nest.levels = [] →
    s.core.upd = [] → s.core.queues.length = 4 → e.loc s.core.cluster 0 = .pan c a → e.loc s.core.cluster 1 = .pan d b → copyFmts s { e with fmts := s.formats } 0 = (0, 0) →
    let n := e.nest.run
    a % 0xC000 + n ≤ 0xC000 → b % 0xC000 + n ≤ 0xC000 → s.panCode c 2 a n = none → s.panCode d 2 b n = none → 0 < n → a < 2 ^ 20 → b < 2 ^ 20 →
    (c ≠ d ∨ a + n ≤ b ∨ b + n ≤ a) → s.defined c a n = true → (∀ i, i < n → (s.coreAt d).carving (b + i) = false) →
    s.undisturbed none [(d, b, b + n)] →
    ∃ t, exec (.queueEntryStart 0) s = .next t ∧ (∀ i, i < n → t.pantryByte d (b + i) = s.pantryByte c (a + i)) ∧
      (∀ c' a', a' < 2 ^ 20 → ¬ (c' = d ∧ b ≤ a' ∧ a' < b + n) → t.pantryByte c' a' = s.pantryByte c' a') ∧
      (∀ x ∈ (t.core.queue 0).entries, x.num = e.num → x.sent = true) ∧ (t.core.queue 0).entries.map (fun x => x.num) =
        (s.core.queue 0).entries.map (fun x => x.num) ∧ t.mem = s.mem ∧ t.core.regs = s.core.regs ∧ t.core.cr = s.core.cr) ∧
  (∀ (s : State) (q : Fin 4) (e : Entry), (s.core.queue q.val).entries.find? (fun x => x.num == e.num) = some e → s.core.queues.length = 4 →
    (s.completable q.val e = false → exec (.queueEntryComplete q e.num) s = .next s.begun) ∧
    (s.completable q.val e = true → e.op ≠ .putm → e.op ≠ .collTo → ∃ t, exec (.queueEntryComplete q e.num) s = .next t ∧
      (t.core.queue q.val).entries = (s.core.queue q.val).entries.filter (fun y => y.num != e.num) ∧
      (∀ p, p ≠ q.val → t.core.queue p = s.core.queue p) ∧ t.mem = s.mem ∧ t.pantry = s.pantry ∧ t.core.regs = s.core.regs ∧
      (e.ev = false → t.core.cr = s.core.cr) ∧ (e.ev = true → s.core.run ≠ .idle → t.core.ctl 0x26 = 1 ∧ ((s.core.ctl 0x22).getLsbD 0 = true → (t.core.ctl 0x23).getLsbD 0 = true)))) ∧
  (∀ s : State, s.core.decoding = none → exec .decompBlock s = .next s.begun) ∧
  (∀ (s u w : State) (e : Entry) (h : BlockHead) (hb bs : List Byte), s.core.decoding = some e →
    let va := (nth 0 e.group 0).toNat
    let g := s.core.ring
    let at_ := g.base + g.pi % g.size
    s.begun.readAt (.own s.core.id s.core.task.fn) va 32 = .ok (hb, u) → blockHead hb = some h → h.stored = true → h.count ≤ g.size →
    (h.fmt = 0 ∨ e.fmtAt s.core.id (g.base / Config.bankBytes) = h.fmt) → g.pi - g.ci + h.count ≤ g.size → g.pi % g.size + h.count ≤ g.size →
    u.readAt (.own s.core.id s.core.task.fn) (va + 32) h.count = .ok (bs, w) → bs.length = h.count → (crc32c bs).toNat = h.dcrc →
    s.panCode s.core.id (h.count / 0xC000 + 2) at_ h.count = none → at_ + h.count ≤ 2 ^ 20 →
    (∀ i, i < h.count → s.core.carving (at_ + i) = false) → s.undisturbed none [(s.core.id, at_, at_ + h.count)] →
    ∃ t, exec .decompBlock s = .next t ∧ t.core.ring = { g with pi := g.pi + h.count } ∧
      (∀ i, i < h.count → t.pantryByte s.core.id (at_ + i) = nth 0 bs i) ∧
      (∀ c a, a < 2 ^ 20 → ¬ (c = s.core.id ∧ at_ ≤ a ∧ a < at_ + h.count) → t.pantryByte c a = s.pantryByte c a) ∧ t.core.regs = s.core.regs ∧
      ∀ x ∈ (t.core.queue 2).entries, x.num = e.num → x.elem = e.elem + 1)

/-! The fabric (R25 to R51, R106 to R112, R367, R368) -/

/-- R25, R27, R28, R35, R50: a request for another device is dropped, and so is one with a bad check; a malformed one, one of an unassigned operation
among them, is counted, and refused with NACK 4 where its header check holds; a duplicate of one that was performed is acknowledged again and has no
other effect. R30, R44 to R49, R106: the next request of the only connection that has a record, with nothing of it waiting, for a formed group with a
job, is performed at once: PUT and PUTMC write, GET reads, PUTSIG adds 1 once its data has been performed, waits before that, and one whose data was
refused is refused with the same code (R51, log 102); FETCH_AND_OP, COMPARE_AND_SWAP, LIST_ENQUEUE, LIST_DEQUEUE, POINTER_CHASE, EXACT_REDUCE,
SIGNAL_ADD and BOUNDED_COPY do what the Cellarer does for their operands (given here for FETCH_AND_OP and SIGNAL_ADD); CKPT writes a granted range;
GXFER, GBREQ, GWAVE, GWREP, GTERM and GCANCEL reach their session; each is acknowledged, or answered where it returns values. The model's own readings
here: log 76, 77, 79, 82, 101 and 103. -/
def Obligations.RequestsArePerformed : Prop :=
  (∀ (i : Instr) (op : Nat) (p : Packet) (s : State), requestForm i = some (op, p) →
    ((p.op.toNat ≠ op ∧ assignedOp p = true) ∨ s.addressed p = false → exec i s = .next s.begun) ∧
    (s.addressed p = true → p.op.toNat = op ∨ assignedOp p = false → packetOk p = false →
      let counted : State := { s.begun with service := { s.service with malformed := s.service.malformed + 1 } }
      (p.hchk = headerCheck p → exec i s = .next (counted.nackTo p 4)) ∧ (p.hchk ≠ headerCheck p → exec i s = .next counted)) ∧
    (s.addressed p = true → p.op.toNat = op → packetOk p = true → p.hchk ≠ headerCheck p ∨ p.pchk ≠ payloadCheck p.payload → exec i s = .next s.begun) ∧
    (s.takes op p → (s.inboundOf p).arrived p.seq.toNat = true → (s.inboundOf p).waiting = [] → (s.inboundOf p).refused = [] → s.fabric.kept = [] →
      exec i s = .next (s.begun.ackTo p))) ∧
  (∀ (p : Packet) (s : State), s.nextOf p →
    let v := s.begun.noted p
    let k := (s.inboundOf p).next
    let a := p.addr.toNat
    (s.takes 0x20 p → s.fabric.grants.any (fun g => g.dev == p.src.toNat && decide (g.base ≤ a) && decide (a + p.payload.length ≤ g.base + g.len)) = true →
      p.phys = 1 → s.ckptStands a p.payload.length = true → exec (.ckpt p) s = .next ((v.larderWrite a p.payload).ackTo p)) ∧
    (∀ g, s.fabric.groups.find? (fun g => g.num == p.group.toNat) = some g → (s.jobAt g.fn).isSome = true →
      (∀ u, v.writeAt (.remote g.fn) a p.payload = .ok u →
        (s.takes 0x01 p → exec (.put p) s = .next ((u.noteData k p none).ackTo p)) ∧
        (s.takes 0x05 p → exec (.putmc p) s = .next ((u.noteData k p none).ackTo p))) ∧
      (∀ ds, s.takes 0x02 p → v.signalData k p = some ds →
        (ds.findSome? (fun x => x.refused) = none → ∀ u ret, cellar v (.remote g.fn) 0x16 0 a (toBytes 8 1) = .done u ret →
          exec (.putsig p) s = .next ((u.dropData p).ackTo p)) ∧
        (∀ code, ds.findSome? (fun x => x.refused) = some code → ∃ t, exec (.putsig p) s = .next t ∧ t.mem = s.mem ∧ t.larder = s.larder ∧
          t.core = s.begun.core ∧ t.fabric.sent = s.fabric.sent ++ [sealPacket (s.replyTo p 0x07 code [])] ∧ t.fabric.parts = s.fabric.parts)) ∧
      (s.takes 0x02 p → v.signalData k p = none → ∃ t, exec (.putsig p) s = .next t ∧ t.mem = s.mem ∧ t.larder = s.larder ∧ t.core = s.begun.core ∧
        t.fabric.sent = s.fabric.sent ∧ t.fabric.parts = s.fabric.parts) ∧
      (let ds := s.fabric.parts.filter (fun x => x.of p && !x.mcast && decide (x.place < k))
       s.takes 0x02 p → ds.length = p.aux.toNat → isCommand ds = true → v.signalData k p = some ds) ∧
      (∀ bs u, s.takes 0x03 p → v.readAt (.remote g.fn) a p.aux.toNat = .ok (bs, u) → exec (.get p) s = .next (u.responds p 0x04 bs)) ∧
      (∀ x ∈ [(Instr.fetchAndOp p, 0x10), (Instr.compareAndSwap p, 0x11), (Instr.listEnqueue p, 0x12), (Instr.listDequeue p, 0x13),
          (Instr.pointerChase p, 0x14), (Instr.exactReduce p, 0x15), (Instr.signalAdd p, 0x16), (Instr.boundedCopy p, 0x17)],
        s.takes x.2 p → ∀ u ret, cellar v (.remote g.fn) x.2 p.aux.toNat a p.payload = .done u ret →
          exec x.1 s = .next (if returning (x.2 - 0x10) then u.responds p 0x18 ret else u.ackTo p)) ∧
      (∀ x ∈ [(Instr.gxfer p, 0x28), (Instr.gbreq p, 0x29), (Instr.gwave p, 0x2A), (Instr.gwrep p, 0x2B), (Instr.gterm p, 0x2C), (Instr.gcancel p, 0x2D)],
        s.takes x.2 p → ∀ y, s.messageSession p = some y → s.perhapsNinth p = false → (s.fnAt y.fn).st ≠ 6 → y.st ≠ 0 ∨ s.mayTake y.uid p = true →
          exec x.1 s = .next ((v.granaryMsg y.uid p).ackTo p)))) ∧
  (∀ (s : State) (r : Reach) (aux a : Nat) (pay bs : List Byte) (u v : State),
    (aux % 16 ≤ 8 → aux < 32 → pay.length = 8 →
      let w := if aux < 16 then 4 else 8
      a % w = 0 → s.readAt r a w = .ok (bs, u) →
      u.writeAt r a (toBytes w (atomicValue (aux % 16) (8 * w) (ofBytes bs) (ofBytes pay % 2 ^ (8 * w)))) = .ok v →
      cellar s r 0x10 aux a pay = .done v (toBytes 8 (ofBytes bs))) ∧
    (a % 8 = 0 → pay.length = 8 → s.readAt r a 8 = .ok (bs, u) → u.writeAt r a (toBytes 8 ((ofBytes bs + ofBytes pay) % 2 ^ 64)) = .ok v →
      cellar s r 0x16 0 a pay = .done v []))

/-- R34 to R36: an ACK takes its packet off, and one for a response takes the kept response off; an answer to nothing that waits has no effect but the
acknowledgement of a response. R44, R365: a GETRESP's bytes are written where the get asked, a CELRESP's first word lands in the register. R51: a NACK
3, 5 or 4 stops its entry with LINK_DEAD. R368: a contribution enters its reduction. R34, R36, R33, R43: what the timers and the links do (a
connection is closed for the jobs whose packets it gave up; a reduction whose time is over is kept as a mark, log 72). The model's own readings here:
log 75, 78, 101, 115, 123 and 125. -/
def Obligations.AnswersAndTimers : Prop :=
  (∀ s : State, s.fabric.mover = none → s.fabric.backlog = [] → s.windowOpen = s) ∧
  (∀ (p : Packet) (s : State), s.reached 0x06 p → packetOk p = true → p.pchk = payloadCheck p.payload →
    (p.aux = 1 → exec (.ack p) s = .next { s.begun with fabric := { s.fabric with
      kept := s.fabric.kept.filter (fun k => !(k.src == p.src.toNat && k.lane == p.lane.toNat && k.seq == p.seq.toNat)) } }) ∧
    (p.aux = 0 → s.unackedFor p = none → exec (.ack p) s = .next s.begun) ∧
    (∀ u c t n, p.aux = 0 → s.unackedFor p = some u → u.origin = .queue c t n → u.conn.mcast = false → u.response = false →
      exec (.ack p) s = .next (State.windowOpen { s.begun with fabric := { s.fabric with unacked := s.fabric.unacked.filter (fun x => x != u) } })) ∧
    (∀ u, p.aux = 0 → s.unackedFor p = some u → u.conn.mcast = true →
      let ms := u.members.filter (fun m => m != p.src.toNat)
      let rest : List Unacked := s.fabric.unacked.filter (fun x => x != u)
      let fewer : List Unacked := s.fabric.unacked.map (fun x => if x = u then { x with members := ms } else x)
      exec (.ack p) s = .next (State.windowOpen { s.begun with fabric := { s.fabric with unacked := if ms.isEmpty then rest else fewer } }))) ∧
  (∀ (p : Packet) (s : State), s.reached 0x07 p → packetOk p = true → p.pchk = payloadCheck p.payload →
    (s.unackedFor p = none → exec (.nack p) s = .next s.begun) ∧
    (∀ u t n e, s.unackedFor p = some u → u.origin = .queue s.core.id t n → u.conn.mcast = false → s.core.run ≠ .idle → s.core.task.num = t →
      (s.core.queue 3).entries.find? (fun e => e.num == n) = some e → e.op ≠ .putm → (p.aux = 3 ∨ p.aux = 5 ∨ p.aux = 4) →
      let v : State := s.begun.dropUnacked u
      exec (.nack p) s = .next (State.windowOpen ((v.stopQueue 3 n (e.elemOf u.pkt)
        { s.core.faultOf 0x35 with slot := 7, kind := 2, queue := 3, pc := e.pc, d0 := p.src.zeroExtend 64, d1 := BitVec.ofNat 64 e.ctl.lane,
                                   d2 := if p.aux = 4 then 5 else 2 }).focusOn s.core.id)))) ∧
  (∀ (p : Packet) (s : State) (u : Unacked) (t n : Nat) (e : Entry), packetOk p = true → p.pchk = payloadCheck p.payload → s.unackedFor p = some u →
    u.response = true → u.origin = .queue s.core.id t n → s.core.run ≠ .idle → s.core.task.num = t →
    (s.core.queue 3).entries.find? (fun e => e.num == n) = some e →
    let v : State := (s.begun.emit (s.replyTo p 0x06 1 [])).dropUnacked u
    (∀ w, s.reached 0x04 p → u.pkt.op = 0x03 →
      v.locWrite (s.core.entryFault 3 e 0x30) (e.elemOf u.pkt) ((e.loc s.core.cluster 0).shift (u.loc.toNat : Int)) p.payload = .ok w →
      exec (.getresp p) s = .next (w.focusOn s.core.id).windowOpen) ∧
    (∀ k g, s.reached 0x18 p → u.pkt.op ≠ 0x03 → e.key = some k → e.tag = some g → nth 0 e.group 3 = 0 → e.clean = false →
      (s.core.queue 3).stop = none →
      ∃ x, exec (.celresp p) s = .next x ∧ (x.core.cell k).val = BitVec.ofNat 2048 (ofBytes (p.payload.take 8)) ∧ (x.core.cell k).dm = true ∧
        (∀ m, m ≠ k → (x.core.cell m).val = (s.core.cell m).val) ∧ x.mem = s.mem ∧ x.larder = s.larder ∧ x.pantry = s.pantry)) ∧
  (∀ (p : Packet) (s : State), p.pchk = payloadCheck p.payload → packetOk p = true → s.unackedFor p = none →
    (s.reached 0x04 p → exec (.getresp p) s = .next (s.begun.emit (s.replyTo p 0x06 1 []))) ∧
    (s.reached 0x18 p → exec (.celresp p) s = .next (s.begun.emit (s.replyTo p 0x06 1 [])))) ∧
  (∀ (p : Packet) (s : State), s.reached 0x08 p → packetOk p = true → p.pchk = payloadCheck p.payload → s.fabric.reds = [] →
    s.fabric.groups.any (fun g => g.num == p.group.toNat) = true →
    let x := p.aux.toNat
    let op := bits x 2 4
    let w := redOperand op (bits x 0 2)
    ∃ t r, exec (.red p) s = .next t ∧ t.fabric.reds = [r] ∧ r.group = p.group.toNat ∧ r.addr = p.addr.toNat ∧ r.op = op ∧ r.mode = bits x 0 2 ∧ r.bad = false ∧
      r.entry = none ∧ t.core = s.begun.core ∧ t.mem = s.mem ∧
      r.runs = [{ addr := p.addr.toNat, node := p.cnode.toNat, members := 1,
                  vals := (List.range (bits x 6 6 + 1)).map (fun i => ofBytes ((p.payload.drop (w * i)).take w)) }]) ∧
  (∀ (s : State) (c : Conn) (q : BitVec 16),
    let found := s.fabric.unacked.find? (fun u => u.conn == c && u.pkt.seq.toNat == q.toNat)
    (found = none → exec (.e2eTimeout c q) s = .next s.begun) ∧
    (∀ u, found = some u → u.resends < 8 → ∃ t, exec (.e2eTimeout c q) s = .next t ∧ t.fabric.sent = s.fabric.sent ++ [sealPacket u.pkt] ∧
      t.fabric.unacked = s.fabric.unacked.map (fun x => if x = u then { x with resends := x.resends + 1 } else x) ∧ t.core = s.begun.core ∧ t.mem = s.mem) ∧
    (∀ u, found = some u → 8 ≤ u.resends → exec (.e2eTimeout c q) s = .next (s.begun.connectionDead c)) ∧
    (c.lane ≠ 7 → s.fabric.unacked.all (fun u => u.conn != c) = true → (s.connectionDead c).fabric.closed = s.fabric.closed) ∧
    (c.lane ≠ 7 → (∀ u ∈ s.fabric.unacked, u.conn = c → ∃ k t n, u.origin = .queue k t n ∧ (s.coreAt k).run = .idle) →
      (∃ u ∈ s.fabric.unacked, u.conn = c ∧ (s.jobOf u).isSome = true) →
      (s.connectionDead c).fabric.closed = s.fabric.closed.filter (fun x => x != c) ++ [c])) ∧
  (∀ (s : State) (c : Conn) (q : BitVec 16) (k : Kept),
    s.fabric.kept.find? (fun k => k.src == c.peer && k.lane == c.lane && k.seq == q.toNat) = some k →
    (8 ≤ k.resends → exec (.responseTimeout c q) s = .next { s.begun with fabric := { s.fabric with kept := s.fabric.kept.filter (fun x => x != k) } }) ∧
    (k.resends < 8 → ∃ t, exec (.responseTimeout c q) s = .next t ∧ t.fabric.sent = s.fabric.sent ++ [sealPacket k.pkt] ∧ t.core = s.begun.core ∧
      t.fabric.kept = s.fabric.kept.map (fun x => if x = k then { x with resends := x.resends + 1 } else x))) ∧
  (∀ (s : State) (port : Fin 12) (n : Nat) (b : Bool), s.service.ports.length = 12 → ∃ t, exec (.linkCrcError port n b) s = .next t ∧ t.core = s.begun.core ∧
    nth (true, 0) t.service.ports port.val = ((nth (true, 0) s.service.ports port.val).1 && (decide (n < 16) || b), (nth (true, 0) s.service.ports port.val).2 + n) ∧
    ∀ q, q ≠ port.val → nth (true, 0) t.service.ports q = nth (true, 0) s.service.ports q) ∧
  (∀ (s : State) (idx : Nat), (s.fabric.reds[idx]? = none → exec (.reductionTimeout idx) s = .next s.begun) ∧
    (∀ r, s.fabric.reds[idx]? = some r →
      let left (x : Reduction) : State := { s.begun with fabric := { s.fabric with reds := s.fabric.reds.set idx x } }
      let v := left { r with entry := none, runs := [] }
      (r.entry = none → r.gone = false → r.bad = false → exec (.reductionTimeout idx) s = .next (left { r with runs := [], late := true })) ∧
      (r.entry = none → r.gone = true ∨ r.bad = true → exec (.reductionTimeout idx) s = .next s.begun) ∧
      (∀ n e, r.entry = some (s.core.id, n) → (s.core.queue 3).entries.find? (fun e => e.num == n) = some e →
        r.bad = true ∨ redResults (collOf e.group) r = none → exec (.reductionTimeout idx) s =
        .next (((v.modEntry 3 n (fun x => { x with own := false })).stopQueue 3 n 0
          (linkDead (s.core.entryFault 3 e 0x35) (collOf e.group).dev (collOf e.group).lane 4)).focusOn s.core.id))))

/-- R108: the coordinator of a session of two devices or more starts a wave: its number rises, the floor the last wave agreed on is committed, and its own
report is the first. A device that may start none does nothing. R105: a refill brings spilled records of the lowest bin of each slice on chip, as far
as they lie within the window or are locked and the slice has room; nothing else of the session changes. The model's own readings here: log 80, 81, 99
and 119. -/
def Obligations.WavesAndRefills : Prop :=
  (∀ (s : State) (uid : Nat), (s.sessionAt uid = none ∨ ∃ x, s.sessionAt uid = some x ∧ s.mayWave x = false) → exec (.gwaveStart uid) s = .next s.begun) ∧
  (∀ (s : State) (uid : Nat) (x : Session), s.sessionAt uid = some x → x.uid = uid → s.mayWave x = true → 2 ≤ (s.sessionMembers x).length →
    let low := x.replies.foldl (fun a r => min a r.m) 1024
    let floor := if x.wave ≠ 0 ∧ low < 1024 then low else x.committed
    ∃ t y r, exec (.gwaveStart uid) s = .next t ∧ t.sessionAt uid = some y ∧ y.wave = x.wave + 1 ∧ y.prev = x.replies ∧ y.committed = floor ∧
      y.replies = [r] ∧ r.p = x.p ∧ r.d = x.d ∧ r.m ≤ 1024 ∧ y.fu = max x.fu floor ∧ y.fc = max x.fc (min r.m 1023) ∧ y.recs = x.recs ∧ t.core = s.begun.core ∧
      t.mem = s.mem) ∧
  (∀ (s : State) (uid : Nat), (s.sessionAt uid = none → ∃ t, exec (.granaryRefill uid) s = .next t ∧ t.sessions = s.sessions) ∧
    (∀ x, s.sessionAt uid = some x → ∃ t y, exec (.granaryRefill uid) s = .next t ∧ t.sessionAt uid = some y ∧ y = { x with recs := y.recs } ∧
      y.recs.map (fun r => { r with spilled := false }) = x.recs.map (fun r => { r with spilled := false }) ∧
      ((∀ d, d < 4 → s.onChip d + x.recs.length < Config.sliceRecords) →
        y.recs = x.recs.map (fun r => if x.nextRefilled r then { r with spilled := false } else r)) ∧
      s.onlySession t uid ∧ t.core = s.begun.core ∧ t.mem = s.mem))

/-! The host's side (R21, R23, R47, R53 to R69, R86) -/

/-- R69, R54, R60: a device reset gives every core and function its reset state; memory, pantries and the ladders with the held results stand (log 3). A
Function Level Reset drops its function's job and gives BAR 2 its smallest size. R55, R57, R60, R86: JOBGO's commands, and what they do in the wrong
state. R54, R62: BAR 0 registers, MSI-X vectors and the BAR 2 window. The model's own readings here: log 17, 52, 84, 105 and 109. -/
def Obligations.HostControl : Prop :=
  (∀ s : State, ∃ t, exec .deviceReset s = .next t ∧ t.core = State.reset.core ∧ t.parked = State.reset.parked ∧ t.fns = State.reset.fns ∧
    t.dist = State.reset.dist ∧ t.sessions = [] ∧ t.fabric = State.reset.fabric ∧ t.reduce = State.reset.reduce ∧ t.mem = s.mem ∧ t.larder = s.larder ∧
    t.pantry = s.pantry ∧ t.ladders.held = [] ∧ t.ladders.errata = s.ladders.errata ++ s.ladders.errataHeld ∧
    (s.ladders.held = [] → s.ladders.errataHeld = [] → t.ladders = { s.ladders with passes := [], bundles := [], loaded := [] })) ∧
  (∀ (s : State) (f : Fin 9), s.fns.length = 9 →
    let x := s.fnAt f.val
    let set (g : Fn → Fn) : Host.Outcome State Fault Refusal := .next (s.begun.modFn f.val g)
    (∃ t, exec (.functionLevelReset f) s = .next t ∧ (t.fnAt f.val).job = none ∧ (t.fnAt f.val).st = 0 ∧ (t.fnAt f.val).barLog = 30 ∧
      ∀ n, n ≠ f.val → t.fnAt n = s.fnAt n) ∧
    (∀ k : BitVec 32, (x.st = 0 → exec (.jobgoStart f k) s = set (fun x => { x with st := 1, err := 0, token := k, latched := x.jobaddr })) ∧
      (x.st ≠ 0 → exec (.jobgoStart f k) s = set (fun x => { x with err := 1 }))) ∧
    (x.st = 1 → ∃ t, exec (.jobgoCancel f) s = .next t ∧ (t.fnAt f.val).st = 0 ∧ (t.fnAt f.val).cause = 2 ∧ (t.fnAt f.val).err = 0) ∧
    (x.st = 2 ∨ x.st = 5 ∨ x.st = 6 → exec (.jobgoCancel f) s = .next ((s.begun.modFn f.val (fun x => { x with err := 0 })).cancelJob f.val)) ∧
    (x.st ≠ 1 → x.st ≠ 2 → x.st ≠ 5 → x.st ≠ 6 → exec (.jobgoCancel f) s = set (fun x => { x with err := 3 })) ∧
    (x.st = 2 → ∃ t, exec (.jobgoSuspend f) s = .next t ∧ (t.fnAt f.val).err = 0 ∧
      (t.fnAt f.val).st = (if s.cores.all (fun c => c.run == .idle || c.task.fn != f.val) then 6 else 5) ∧
      (s.core.run = .running ∨ s.core.run = .leaving → s.core.task.fn = f.val → s.core.preempt = 0 → t.core.preempt = 1) ∧ t.core.regs = s.core.regs ∧ t.mem = s.mem) ∧
    (x.st ≠ 2 → exec (.jobgoSuspend f) s = set (fun x => { x with err := 3 })) ∧
    (x.st = 6 → exec (.jobgoResume f) s = set (fun x => { x with st := 2, err := 0 })) ∧
    (x.st ≠ 6 → exec (.jobgoResume f) s = set (fun x => { x with err := 3 })) ∧
    exec (.jobgoRefused f) s = set (fun x => { x with err := 2 }) ∧
    (∀ v : BitVec 64, exec (.registerWrite f 0x1000 8 v) s = set (fun x => { x with jobaddr := v.toNat / 2 ^ 16 % 2 ^ 32 * 2 ^ 16 }) ∧
      exec (.registerWrite f 0x1018 8 v) s = set (fun x => { x with winbase := v.toNat % 2 ^ 48 }) ∧
      exec (.registerWrite f 0x1010 8 v) s = .next s.begun ∧
      (let cmd := v.toNat % 2 ^ 32
       exec (.registerWrite f 0x1008 8 v) s = if cmd = 1 then exec (.jobgoStart f (v.extractLsb' 32 32)) s else if cmd = 2 then exec (.jobgoCancel f) s
         else if cmd = 3 then exec (.jobgoSuspend f) s else if cmd = 4 then exec (.jobgoResume f) s else exec (.jobgoRefused f) s)) ∧
    (∀ v : Fin 16, ∃ t, exec (.msixUnmask f v) s = .next t ∧ v.val ∉ (t.fnAt f.val).msixMask ∧ v.val ∉ (t.fnAt f.val).msixPend ∧
      (t.fnAt f.val).msixSent = (if x.msixPend.contains v.val then x.msixSent ++ [v.val] else x.msixSent) ∧
      (∀ u, u ≠ v.val → (u ∈ (t.fnAt f.val).msixMask ↔ u ∈ x.msixMask) ∧ (u ∈ (t.fnAt f.val).msixPend ↔ u ∈ x.msixPend)) ∧ t.core = s.begun.core) ∧
    (∀ (off : Nat) (bs : List Byte),
      let pa := x.winbase / 2 ^ x.barLog * 2 ^ x.barLog + off
      let open_ (n : Nat) : Prop := off + n ≤ 2 ^ x.barLog ∧ x.owns pa n = true ∧ overlaps pa n 0x140000000000 0x40000000000 = false
      (open_ bs.length → let hit := (s.unreadSlots f).filter (fun a => overlaps a 64 pa bs.length)
        (hit = [] → exec (.bar2Write f off bs) s = .next (s.begun.larderWrite pa bs)) ∧
        ∃ t, exec (.bar2Write f off bs) s = .next t ∧ t.core = (s.begun.larderWrite pa bs).core ∧
          ∀ x, (∀ a ∈ hit, x < a ∨ a + 64 ≤ x) → t.byteAt x = (s.begun.larderWrite pa bs).byteAt x) ∧
      (¬ open_ bs.length → exec (.bar2Write f off bs) s = .next { s.begun with service := { s.service with unsupported := s.service.unsupported + 1 } }) ∧
      (∀ n, (open_ n → ∃ t, exec (.bar2Read f off n) s = .next t ∧ t.bar2Out = some (s.larderRead pa n).1 ∧ t.mem = (s.larderRead pa n).2.mem) ∧
        (¬ open_ n → ∃ t, exec (.bar2Read f off n) s = .next t ∧ t.bar2Out = none ∧ t.service.unsupported = s.service.unsupported + 1 ∧ t.mem = s.mem))) ∧
    (∀ n, (30 ≤ n → n ≤ 43 → exec (.bar2Resize f n) s = set (fun x => { x with barLog := n })) ∧
      ((n < 30 ∨ 43 < n) → exec (.bar2Resize f n) s = .next s.begun)))

/-- R63, R55: a command written while one is in progress is ignored; one whose input is too short ends with RESULT 4 (log 16); an unknown one with RESULT
2. R25, R26, R47, R53, R17, R21, R23, R67, R223: what each command does and its RESULT. When it completes, the mailbox shows its RESULT and its
output, and its vector is sent. That LOG gives the 60 oldest entries, each of a length and with bytes that the configuration leaves open, is the
model's choice (log 9 and 106). The model's own readings here: log 60, 87, 88, 104, 106, 109 and 112. -/
def Obligations.MailboxCommands : Prop :=
  (∀ (i : Instr) (f inlen need : Nat) (b : Bool) (s : State), mailForm i = some (f, b, inlen, need) →
    (((s.fnAt f).box b).busy = true → exec i s = .next s.begun) ∧
    (((s.fnAt f).box b).busy = false → inlen < need → exec i s = .next (s.begun.working f b 4 []))) ∧
  (∀ (s : State) (f : Fin 9) (n : Nat), ((s.fnAt f.val).box false).busy = false →
    let v := s.begun
    let ends (u : State) (result : Nat) (out : List Byte) : Host.Outcome State Fault Refusal := .next (u.working f.val false result out)
    let bs := (s.fnAt f.val).monitor.input n
    let g (o k : Nat) : Nat := fieldAt bs o k
    let fab := s.fabric
    (64 ≤ n → exec (.quote f n) s = ends v 0 (s.quoteBody f.val (bs.take 64) ++ (List.range 132).map (Config.sign (s.quoteBody f.val (bs.take 64))) ++
      toBytes 4 0)) ∧
    (2 ≤ n →
      let num := g 0 2
      let refused := f.val ≠ 0 ∨ (∃ x ∈ s.fns, x.st ≠ 0) ∨ fab.devnum.isSome = true
      (refused → exec (.devnum f n) s = ends v 3 []) ∧ (¬ refused → 4095 < num → exec (.devnum f n) s = ends v 4 []) ∧
      (¬ refused → num ≤ 4095 → exec (.devnum f n) s = ends { v with fabric := { fab with devnum := some num } } 0 []) ∧
      ((∃ x ∈ fab.groups, x.num = num ∧ x.fn = f.val) → exec (.gdissolve f n) s =
        ends { v with fabric := { fab with groups := fab.groups.filter (fun x => !(x.num == num && x.fn == f.val)) } } 0 []) ∧
      ((∀ x ∈ fab.groups, ¬ (x.num = num ∧ x.fn = f.val)) → exec (.gdissolve f n) s = ends v 4 [])) ∧
    (24 ≤ n →
      let r : Grant := { dev := g 0 2, base := g 8 8, len := g 16 8 }
      let others := fab.grants.filter (fun x => x != r)
      let right := r.dev ≤ 4095 ∧ g 4 4 ≤ 1 ∧ 0x140000000000 ≤ r.base ∧ r.base + r.len ≤ 0x180000000000 ∧ (g 4 4 = 1 → s.ckptStands r.base r.len = true)
      (f.val ≠ 0 → exec (.ckptauth f n) s = ends v 3 []) ∧ (f.val = 0 → ¬ right → exec (.ckptauth f n) s = ends v 4 []) ∧
      (f.val = 0 → right → exec (.ckptauth f n) s =
        ends { v with fabric := { fab with grants := if g 4 4 = 1 then others ++ [r] else others } } 0 [])) ∧
    (40 ≤ n → s.fns.length = 9 →
      let vf := g 0 4
      let mask : BitVec 32 := BitVec.ofNat 32 (g 4 4)
      let share := [(g 8 8, g 16 8), (g 24 8, g 32 8)].filter (fun r => r.2 != 0)
      (f.val ≠ 0 → exec (.assign f n) s = ends v 3 []) ∧
      (f.val = 0 → (vf = 0 ∨ 8 < vf) → exec (.assign f n) s = ends v 4 []) ∧
      (f.val = 0 → 1 ≤ vf → vf ≤ 8 → (s.fnAt vf).st ≠ 0 → exec (.assign f n) s = ends v 3 []) ∧
      (f.val = 0 → 1 ≤ vf → vf ≤ 8 → (s.fnAt vf).st = 0 →
        (∀ m, 1 ≤ m → m ≤ 8 → m ≠ vf → (s.fnAt m).clusters &&& mask = 0 ∧ ∀ a ∈ (s.fnAt m).share, ∀ b ∈ share, overlaps a.1 a.2 b.1 b.2 = false) →
        (∀ r ∈ share, inMemory r.1 r.2 = true) →
        ∃ u, exec (.assign f n) s = ends u 0 [] ∧ (u.fnAt vf).clusters = mask ∧ (u.fnAt vf).share = share ∧
          (∀ c, c < 32 → ((u.fnAt 0).clusters.getLsbD c = true ↔ ∀ m, 1 ≤ m → m ≤ 8 → (u.fnAt m).clusters.getLsbD c = false)) ∧
          (∀ m, m ≠ 0 → m ≠ vf → u.fnAt m = s.fnAt m) ∧ u.core = v.core ∧ u.mem = s.mem)) ∧
    (16 ≤ n →
      let num := g 0 2
      let k := g 2 2
      let pa := g 8 8
      let r := v.larderRead pa (2 * k)
      let ms := (List.range k).map (fun i => fieldAt r.1 (2 * i) 2)
      let live := (s.fnAt f.val).st = 2 ∨ (s.fnAt f.val).st = 5 ∨ (s.fnAt f.val).st = 6
      ((fab.devnum = none ∨ ¬ live) → exec (.gform f n) s = ends v 3 []) ∧
      (∀ dev, fab.devnum = some dev → live → num ≠ 0 → 2 ≤ k → k ≤ 4096 → g 4 4 = 0 → (s.fnAt f.val).owns pa (2 * k) = true →
        r.2.fabric = fab → (∀ x ∈ fab.closed, x.lane ≠ 7) → (∀ x ∈ fab.groups, x.num ≠ num) → fab.groups.length < 64 → ms.Nodup → (∀ m ∈ ms, m ≤ 4095) → dev ∈ ms →
        exec (.gform f n) s = ends { r.2 with fabric := { fab with
          groups := fab.groups ++ [{ num := num, members := ms, fn := f.val }], ended := fab.ended.filter (fun x => x != num) } } 0 []) ∧
      ((f.val ≠ 0 ∨ fab.devnum = none) → exec (.ckptsend f n) s = ends v 3 []) ∧
      (f.val = 0 → fab.devnum ≠ none → g 0 2 ≤ 8 → g 2 2 ≤ 4095 →
        ((s.fnAt (g 0 2)).st ≠ 6 → exec (.ckptsend f n) s = ends v 3 []) ∧
        (∀ j, (s.fnAt (g 0 2)).st = 6 → s.jobAt (g 0 2) = some j → fab.closed.contains { mcast := false, peer := g 2 2, lane := 6 } = false →
          let ps := v.ckptPackets j (g 2 2) (g 8 8)
          exec (.ckptsend f n) s = ends (State.moverGo 4097 { v with fabric := { fab with
            mover := some { fn := g 0 2, dev := g 2 2, total := 256 * ps.length, queue := ps } } }) 0 (toBytes 8 (256 * ps.length)))))) ∧
  (∀ (s : State) (n : Nat), ((s.fnAt 0).box true).busy = false →
    let k := fieldAt ((s.fnAt 0).service.input n) 0 4
    (s.anyJob = true → exec (.tune n) s = .next (s.begun.working 0 true 3 [])) ∧
    (s.anyJob = false → ∃ u : State, exec (.tune n) s = .next (u.working 0 true 0 []) ∧ u.ladders = { s.ladders with passes := u.ladders.passes } ∧
      (∀ r, r ∈ u.ladders.passes ↔ r ∈ s.ladders.passes ∨ ∃ k ∈ Config.pendingPasses s.fresh, r = passOf k) ∧ u.core = s.begun.core ∧ u.mem = s.mem) ∧
    (4 ≤ n → (k < 8 ∨ 14 < k) → exec (.clkcap n) s = .next (s.begun.working 0 true 4 [])) ∧
    (4 ≤ n → 8 ≤ k → k ≤ 14 → exec (.clkcap n) s =
      .next (State.working { s.begun with service := { s.service with
        ceiling := 100 * k, clockMHz := if s.service.hot = [] then 100 * k else min s.service.clockMHz (100 * k) } } 0 true 0 [])) ∧
    exec (.log n) s = .next (State.working { s.begun with service := { s.service with logged := s.service.logged.drop 60 } } 0 true 0
      ((s.service.logged.take 60).flatMap (fun c => (List.range Config.logEntryBytes).map (Config.logByte c))))) ∧
  (∀ (s : State) (f : Fin 9) (b : Bool) (k : BitVec 16), ((s.fnAt f.val).box b).busy = false →
    (b = false ∨ f.val = 0 → exec (.unknownCommand f b k) s = .next (s.begun.working f.val b 2 [])) ∧
    (b = true → f.val ≠ 0 → exec (.unknownCommand f b k) s = .next s.begun)) ∧
  (∀ (s : State) (f : Fin 9) (b : Bool), s.fns.length = 9 →
    let m := (s.fnAt f.val).box b
    let vec := if b then 2 else 1
    (m.busy = false → exec (.mailboxComplete f b) s = .next s.begun) ∧
    (m.busy = true → (f.val ≠ 0 ∨ b = true ∨ s.fabric.mover = none) → ∃ t, exec (.mailboxComplete f b) s = .next t ∧
      ((t.fnAt f.val).box b).busy = false ∧ ((t.fnAt f.val).box b).result = m.pendResult ∧ ((t.fnAt f.val).box b).outlen = m.pendOut.length ∧
      (∀ i, i < m.pendOut.length → SMap.get 0 ((t.fnAt f.val).box b).payload i = nth 0 m.pendOut i) ∧
      (if (s.fnAt f.val).msixMask.contains vec then vec ∈ (t.fnAt f.val).msixPend else (t.fnAt f.val).msixSent = (s.fnAt f.val).msixSent ++ [vec]) ∧
      t.core = s.begun.core ∧ t.mem = s.mem))

/-- R57, R58: a validation that finds a fault in the image leaves the function without a job, with cause 4 and vector 0 raised, and writes a status word
for the codes from 3 on alone; one that finds none gives it the job and starts the root task at S level at its kernel's entry, with s0 to s2 set. R23:
while a junction that has reached 105 degrees has not fallen below 100 a report lowers the clock a step and raises vector 3; a trip, which a report of
115 or more is, ends every job and takes the compute dies' power. R223: a machine check ends its function's job and is logged. R21, R234: a tuning
pass's result is held while a job runs, and takes effect at once when none does. That STATE is 0 again after a rejection and after a machine check is
the model's choice (log 52). The model's own readings here: log 53, 54, 85, 86, 104, 106 and 108. -/
def Obligations.JobsAndHeat : Prop :=
  (∀ (s : State) (f : Fin 9), s.fns.length = 9 →
    ((s.fnAt f.val).st ≠ 1 → exec (.jobValidation f) s = .next s.begun) ∧
    (∀ code, (s.fnAt f.val).st = 1 → s.begun.validate f.val = .error code → ∃ t, exec (.jobValidation f) s = .next t ∧ (t.fnAt f.val).st = 0 ∧
      (t.fnAt f.val).cause = 4 ∧ (t.fnAt f.val).job = (s.fnAt f.val).job ∧ (code < 3 → t.mem = s.mem ∧ t.larder = s.larder) ∧
      (if (s.fnAt f.val).msixMask.contains 0 then 0 ∈ (t.fnAt f.val).msixPend else (t.fnAt f.val).msixSent = (s.fnAt f.val).msixSent ++ [0]) ∧
      (3 ≤ code →
        let img := (s.fnAt f.val).latched
        let u := s.begun.larderWrite (img + (imageHeader (s.begun.imageBytes img 128)).stat)
          (toBytes 8 ((s.fnAt f.val).token.toNat * 2 ^ 32 + code * 2 ^ 16 + 4 * 2 ^ 8))
        t.mem = u.mem ∧ t.larder = u.larder)) ∧
    (∀ j k img h, (∀ p ∈ s.parked, p.2.id = p.1) → (s.fnAt f.val).st = 1 → s.begun.validate f.val = .ok (j, k, img, h) →
      s.rootCores f.val k.caps ≠ [] → s.idlePass = false → ∃ t, exec (.jobValidation f) s = .next t ∧
      (t.fnAt f.val).st = 2 ∧ (t.fnAt f.val).job = some j ∧ t.dist.nextTask = s.dist.nextTask + 1 ∧ t.mem = s.mem ∧ t.pantry = s.pantry ∧
      ∃ n ∈ s.rootCores f.val k.caps, t.dist.busy = s.dist.busy ++ [n] ∧ (
        let c := t.coreAt n
        c.run = .running ∧ c.level = .s ∧ c.handler = .main ∧ c.pc = BitVec.ofNat 64 (j.imgva + h.root + k.entry) ∧ c.task.root = true ∧ c.task.fn = f.val ∧
        c.task.num = s.dist.nextTask ∧ (c.cell (regKey 0 0)).val = BitVec.ofNat 2048 j.imgva ∧
        (c.cell (regKey 0 1)).val = BitVec.ofNat 2048 (j.imgva + h.inbox) ∧ (c.cell (regKey 0 2)).val = BitVec.ofNat 2048 j.token.toNat ∧
        c.ctl 0x030 = BitVec.ofNat 64 (j.imgva + h.attic) ∧ c.ctl 0x033 = BitVec.ofNat 64 (j.imgva + h.ctx))) ∧
    (∀ j k img h, (s.fnAt f.val).st = 1 → s.begun.validate f.val = .ok (j, k, img, h) → s.rootCores f.val k.caps = [] ∨ s.idlePass = true →
      exec (.jobValidation f) s = .next s.begun)) ∧
  (∀ (s : State) (d : Fin 4) (x : Nat), s.service.temps.length = 4 →
    let others := s.service.hot.filter (fun y => y != d.val)
    let hot := if 105000 ≤ x then others ++ [d.val] else if x < 100000 then others else s.service.hot
    (x < 115000 → hot = [] → ∃ p, p ≤ 3000000 ∧ exec (.thermalStep d x) s = .next { s.begun with
      fresh := s.fresh + 1, service := { s.service with temps := s.service.temps.set d.val x, powerMW := p, hot := [] } }) ∧
    (115000 ≤ x → s.fns.length = 9 → ∃ t, exec (.thermalStep d x) s = .next t ∧ t.powered = false ∧ ∀ f, f < 9 → (t.fnAt f).job = none) ∧
    (x < 115000 → hot ≠ [] → ∃ t, exec (.thermalStep d x) s = .next t ∧ t.service.temps = s.service.temps.set d.val x ∧ t.service.hot = hot ∧
      t.service.clockMHz = max 100 (s.service.clockMHz - 100) ∧ t.core = s.begun.core ∧ t.mem = s.mem ∧
      (s.fns.length = 9 → ∀ f, f < 9 → 3 ∈ (t.fnAt f).msixSent ∨ 3 ∈ (t.fnAt f).msixPend))) ∧
  (∀ (s : State) (d : Fin 4), s.fns.length = 9 → ∃ t, exec (.thermalTrip d) s = .next t ∧ t.powered = false ∧ ∀ f, f < 9 → (t.fnAt f).job = none) ∧
  (∀ (s : State) (f : Fin 9), s.fns.length = 9 → ∃ t, exec (.machineCheck f) s = .next t ∧ (t.fnAt f.val).job = none ∧
    t.service.logged = s.service.logged ++ [0x7F] ∧ ((s.jobAt f.val).isSome = true → (t.fnAt f.val).st = 0 ∧ (t.fnAt f.val).cause = 5)) ∧
  (∀ (s : State) (r : TuneRes) (g : BitVec 2), (r ∉ s.ladders.passes → exec (.tuningPassComplete r g) s = .next s.begun) ∧
    (r ∈ s.ladders.passes → s.fns.any (fun x => x.job.isSome) = true → exec (.tuningPassComplete r g) s =
      .next { s.begun with ladders := { s.ladders with passes := s.ladders.passes.erase r, held := s.ladders.held ++ [(r, g)] } }) ∧
    (r ∈ s.ladders.passes → s.fns.any (fun x => x.job.isSome) = false → s.ladders.held = [] →
      ∃ t, exec (.tuningPassComplete r g) s = .next t ∧ t.ladders.held = [] ∧ t.ladders.passes = s.ladders.passes.erase r ∧
        let m (c : Nat) : BitVec 16 := SMap.get 0x003F s.ladders.engines c
        match r with
        | .bank c b => t.ladders.engines = s.ladders.engines ∧ t.ladders.chans = s.ladders.chans ∧
          SMap.get 0 t.ladders.banks (16 * c + b) = max g.toNat (SMap.get 0 s.ladders.banks (16 * c + b))
        | .channel i => t.ladders.engines = s.ladders.engines ∧ t.ladders.banks = s.ladders.banks ∧
          SMap.get 0 t.ladders.chans i = max g.toNat (SMap.get 0 s.ladders.chans i)
        | .engine c => t.ladders.banks = s.ladders.banks ∧ t.ladders.chans = s.ladders.chans ∧ SMap.get 0x003F t.ladders.engines c =
          if g = 0 then m c else if g = 1 then m c &&& 0x3B else if g = 2 then m c &&& 0x31 else 0
        | .rotation c => t.ladders.banks = s.ladders.banks ∧ t.ladders.chans = s.ladders.chans ∧
          SMap.get 0x003F t.ladders.engines c = if g = 0 then m c else m c &&& 0x2F
        | .drain c => t.ladders.banks = s.ladders.banks ∧ t.ladders.chans = s.ladders.chans ∧
          SMap.get 0x003F t.ladders.engines c = if g = 0 then m c else m c &&& 0x1F))

/-- R132: the handler of the lowest enabled pending event is entered at UVEC with its bit cleared, its number and value in UCAUSE and the pc in UEPC; with
no header with L = 1 there, BAD_TARGET goes to S level; with nothing due nothing happens. R222, R228: the deferred-precise fault of the oldest bundle
is taken. R237: an emulation trap enters the library at U level with the operation's words in the shadow bank. R406, R408: for mma.bf16 the library
goes on at emu_bf16, whose listed bundles then run like any others, once the results that it may read have landed. R214, R237: for any other operation
it leaves what any engine would, its tiles and bytes or the fault, and its retu resumes the task at UEPC. The model's own readings here: log 47, 48,
49 and 50. -/
def Obligations.HandlersAreEntered : Prop :=
  (∀ s : State, (s.core.eventDue = false → exec .eventHandlerEntry s = .next s.begun) ∧
    (∀ b, s.core.pendingEvent = some b → s.core.eventDue = true →
      (s.headerAt (s.core.ctl 0x21).toNat ≠ some true → ∃ f, exec .eventHandlerEntry s = .next (s.begun.raise f) ∧ f.code = 0x03 ∧ f.toS = true ∧
        f.pc = s.core.ctl 0x21 ∧ f.addr = s.core.pc) ∧
      (s.headerAt (s.core.ctl 0x21).toNat = some true → ∃ t, exec .eventHandlerEntry s = .next t ∧ t.core.pc = s.core.ctl 0x21 ∧ t.core.handler = .user ∧
        t.core.level = s.core.level ∧ t.core.ctl 0x25 = s.core.pc ∧ (t.core.ctl 0x24).toNat % 2 ^ 32 = b ∧ (t.core.ctl 0x23).getLsbD b = false ∧
        (∀ k, k ≠ b → (t.core.ctl 0x23).getLsbD k = (s.core.ctl 0x23).getLsbD k) ∧ (∀ n, n ≠ 0x23 → n ≠ 0x24 → n ≠ 0x25 → t.core.ctl n = s.core.ctl n) ∧
        s.core.sameValues t.core [6, 7] ∧ t.core.cycle = s.core.cycle + 3 ∧ t.mem = s.mem ∧ t.larder = s.larder ∧ t.pantry = s.pantry))) ∧
  (∀ c : Core, c.pendingEvent = (List.range 5).find? (fun b => (c.ctl 0x23).getLsbD b && (c.ctl 0x22).getLsbD b)) ∧
  (∀ s : State, (s.core.dueFault = none → exec .deferredPreciseFault s = .next s.begun) ∧
    (∀ f, s.core.dueFault = some f → exec .deferredPreciseFault s =
      .next (State.raise { s.begun with core := { s.begun.core with deferred := s.core.deferred.erase f } } f)) ∧
    (∀ f, s.core.dueFault = some f → f ∈ s.core.deferred ∧ f.held = false ∧ ∀ g ∈ s.core.deferred, g.held = false → f.age ≤ g.age)) ∧
  (∀ s : State, (s.core.trapDue = false → exec .emulationTrap s = .next s.begun) ∧
    (∀ e, s.core.emul = some e → s.core.inHandler = false → ∃ t, exec .emulationTrap s = .next t ∧ t.core.pc = BitVec.ofNat 64 Config.libraryEntry ∧
      t.core.level = .u ∧ t.core.handler = .emul ∧ t.core.emul = none ∧
      t.core.serving = some { e with ptaint := s.core.order.ptaint, pdm := s.core.order.pdm } ∧ t.core.ctl 0x25 = s.core.pc ∧
      t.core.ctl 0x24 = 0xC0000020 ∧ (∀ n, n ≠ 0x24 → n ≠ 0x25 → t.core.ctl n = s.core.ctl n) ∧ (t.core.cell (regKey 6 56)).val = e.syl.zeroExtend 2048 ∧
      (t.core.cell (regKey 6 57)).val = e.ext.zeroExtend 2048 ∧ (t.core.cell (regKey 6 58)).val = e.pc.zeroExtend 2048 ∧
      (t.core.cell (regKey 6 59)).val = BitVec.ofNat 2048 (e.missing % 2 ^ 64) ∧ (t.core.cell (regKey 6 60)).val = BitVec.ofNat 2048 (e.bitmap % 2 ^ 64) ∧
      (∀ k, k / 1024 ≠ 6 → k / 1024 ≠ 7 → t.core.cell k = s.core.cell k) ∧ t.mem = s.mem ∧ t.pantry = s.pantry)) ∧
  (∀ (s : State) (e : EmulInfo), s.core.serving = some e →
    (s.core.awaitsResults = true → s.runLibrary = s.tick 1) ∧
    (∀ o, s.core.awaitsResults = false → s.core.flights = [] →
      decodeOp .m e.syl (if e.ext = 0 then none else some (field e.ext 0 28)) = .ok (.mmaBf16 o) →
      let t := s.runLibrary
      t.core.pc = BitVec.ofNat 64 Config.emuEntry ∧ t.core.handler = s.core.handler ∧ t.core.serving = some e ∧ t.core.tiles = s.core.tiles ∧
      t.core.cr = s.core.cr ∧ (∀ k, k / 1024 ≠ 6 → k / 1024 ≠ 7 → t.core.cell k = s.core.cell k) ∧
      (∀ n, n < 61 → t.core.cell (regKey 6 n) = s.core.cell (regKey 6 n)) ∧ t.mem = s.mem ∧ t.pantry = s.pantry)) ∧
  (∀ (s u : State) (e : EmulInfo) (i : Instr) (r : MResult), s.core.serving = some e → s.core.awaitsResults = false →
    decodeOp .m e.syl (if e.ext = 0 then none else some (field e.ext 0 28)) = .ok i → (∀ o, i ≠ .mmaBf16 o) → s.core.rets.length < 16 →
    (emulatedResult i).run { s with core := { s.core with serving := none, cur := { slot := 0, syl := 0, ext := 0 } } } = .ok (r, u) → u.core.tflights = [] →
    u.undisturbed (some u.core.id) (rangesOf r.bytes) →
    let t := s.runLibrary
    t.core.pc = u.core.ctl 0x25 ∧ t.core.handler = .main ∧ t.core.serving = none ∧ t.mem = u.mem ∧
    (r.fault = none → t.pantry = u.pantryAfter r.bytes ∧ t.core.tiles = r.tiles.foldl (fun m x => SMap.put m x.1 x.2) u.core.tiles) ∧
    (∀ f, r.fault = some f → t.core.tiles = u.core.tiles ∧ ∃ g ∈ t.core.deferred, g.code = f.code ∧ g.emulated = true ∧ g.held = false))
end

