-- ==== Sys2Proof/Laws/Encode.lean ====
section
/-!
SUPPORT. What the encoder writes and what the decoder reads from it: the fields of a word, the lone and the extended operation, and one
round trip per operand family.
-/
namespace Sys2Proof.Laws.Encode
open Sys2Proof

/-- The stop bit, or nothing. -/
def mark (stop : Bool) : Syllable := if stop then stopBit else 0

theorem low_or (w : Syllable) (stop : Bool) (h : w.toNat < 2 ^ 31) : (w ||| mark stop).toNat % 2 ^ 31 = w.toNat := by
  cases stop
  · simp [mark]; omega
  · have e : (w ||| mark true).toNat = 2 ^ 31 * 1 + w.toNat := by
      rw [Nat.two_pow_add_eq_or_of_lt h 1, Nat.or_comm]
      simp [mark, stopBit, BitVec.toNat_or]
    omega

theorem opWord_toNat (k c p : Nat) (hk : k < 8) (hc : c < 256) (hp : p < 2 ^ 20) :
    (opWord k c p).toNat = k * 2 ^ 28 + c * 2 ^ 20 + p := by
  simp [opWord]; omega

theorem word_low (k c p : Nat) (stop : Bool) (hk : k < 8) (hc : c < 256) (hp : p < 2 ^ 20) :
    (opWord k c p ||| mark stop).toNat % 2 ^ 31 = k * 2 ^ 28 + c * 2 ^ 20 + p := by
  have h := opWord_toNat k c p hk hc hp
  rw [low_or _ _ (by omega), h]

theorem opWord_low (k c p : Nat) (hk : k < 8) (hc : c < 256) (hp : p < 2 ^ 20) :
    (opWord k c p).toNat % 2 ^ 31 = k * 2 ^ 28 + c * 2 ^ 20 + p := by
  rw [opWord_toNat k c p hk hc hp]; omega

theorem extWord_low (e : BitVec 28) (stop : Bool) : (extWord e ||| mark stop).toNat % 2 ^ 31 = 5 * 2 ^ 28 + e.toNat := by
  have h : (extWord e).toNat = 5 * 2 ^ 28 + e.toNat := by simp [extWord]; omega
  rw [low_or _ _ (by omega), h]

theorem fld {w : Syllable} {x lo len : Nat} {v : BitVec len} (h : w.toNat % 2 ^ 31 = x) (hl : lo + len ≤ 31)
    (hv : x / 2 ^ lo % 2 ^ len = v.toNat) : field w lo len = v := by
  apply BitVec.eq_of_toNat_eq
  simp only [field, BitVec.toNat_ofNat]
  rw [← hv, ← h]
  have : 2 ^ 31 = 2 ^ lo * 2 ^ (31 - lo) := by rw [← Nat.pow_add]; congr 1; omega
  rw [this, Nat.mod_mul_right_div_self]
  exact (Nat.mod_mod_of_dvd _ (Nat.pow_dvd_pow 2 (by omega))).symm

theorem zfld {w : Syllable} {x lo len : Nat} (h : w.toNat % 2 ^ 31 = x) (hl : lo + len ≤ 31) (hv : x / 2 ^ lo % 2 ^ len = 0) :
    zeroAt w lo len = true := by
  have : field w lo len = 0 := fld h hl (by simpa using hv)
  simp [zeroAt, this]

theorem efld {e : BitVec 28} {x lo len : Nat} {v : BitVec len} (h : e.toNat = x) (hv : x / 2 ^ lo % 2 ^ len = v.toNat) :
    field e lo len = v := by
  apply BitVec.eq_of_toNat_eq
  simp only [field, BitVec.toNat_ofNat]
  rw [h, hv]

theorem ezfld {e : BitVec 28} {x lo len : Nat} (h : e.toNat = x) (hv : x / 2 ^ lo % 2 ^ len = 0) : zeroAt e lo len = true := by
  have : field e lo len = 0 := efld h (by simpa using hv)
  simp [zeroAt, this]

theorem checkInstr_wf {i : Instr} (h : i.wf = true) : checkInstr (.ok i) = .ok i := by
  simp [Instr.wf] at h
  simp [checkInstr, h]

theorem ext_kind (x : BitVec 28) (stop : Bool) : field (extWord x ||| mark stop) 28 3 = 5 := fld (extWord_low x stop) (by decide) (by simp; omega)

theorem ext_bits (x : BitVec 28) (stop : Bool) : field (extWord x ||| mark stop) 0 28 = x := fld (extWord_low x stop) (by decide) (by omega)

theorem kind_ne (p : SlotPos) : p.kind ≠ 6#3 := by cases p <;> decide

/-- A lone op. -/
theorem lone {p : SlotPos} {k c pay : Nat} (stop : Bool) (hc : c < 256) (hp : pay < 2 ^ 20) (hs : p.kind.toNat = k) :
    decodeSyllables p [opWord k c pay ||| mark stop] = decodeOp p (opWord k c pay ||| mark stop) none := by
  have hk : k < 8 := by omega
  have e : field (opWord k c pay ||| mark stop) 28 3 = p.kind := fld (word_low k c pay stop hk hc hp) (by decide) (by omega)
  have n := kind_ne p
  simp only [decodeSyllables, e]
  simp [n]

/-- An op with its extension. -/
theorem paired {p : SlotPos} {x : BitVec 28} {k c pay : Nat} (stop : Bool) (hc : c < 256) (hp : pay < 2 ^ 20) (hs : p.kind.toNat = k) :
    decodeSyllables p [opWord k c pay, extWord x ||| mark stop] = decodeOp p (opWord k c pay) (some x) := by
  have hk : k < 8 := by omega
  have e : field (opWord k c pay) 28 3 = p.kind := fld (opWord_low k c pay hk hc hp) (by decide) (by omega)
  have n := kind_ne p
  simp only [decodeSyllables, e, ext_kind, ext_bits, List.all_cons, List.all_nil, List.map]
  simp [n]

/-- The syllables of an op syllable and its extension bits, stop bit on the last. -/
def syllables (w : Syllable) (e : Option (BitVec 28)) (stop : Bool) : List Syllable :=
  match e with | none => [w ||| mark stop] | some x => [w, extWord x ||| mark stop]

theorem encode_op {i : Instr} {w : Syllable} {e : Option (BitVec 28)} (h : encodeOp i = some (w, e)) (stop : Bool) :
    encode i stop = syllables w e stop := by
  unfold encode
  rw [h]; cases e <;> rfl

/-- The round trip of an op, from what its slot's reader answers for its word. -/
theorem op_round {p : SlotPos} {k c pay : Nat} {e : Option (BitVec 28)} {j : Instr} (stop : Bool) (hc : c < 256) (hp : pay < 2 ^ 20)
    (hs : p.kind.toNat = k) (hwf : j.wf = true)
    (hd : ∀ w : Syllable, w.toNat % 2 ^ 31 = k * 2 ^ 28 + c * 2 ^ 20 + pay → decodeOp p w e = checkInstr (.ok j)) :
    decodeSyllables p (syllables (opWord k c pay) e stop) = .ok j := by
  have hk : k < 8 := by omega
  cases e with
  | none => rw [syllables, lone stop hc hp hs, hd _ (word_low k c pay stop hk hc hp), checkInstr_wf hwf]
  | some x => rw [syllables, paired stop hc hp hs, hd _ (opWord_low k c pay hk hc hp), checkInstr_wf hwf]

/-- The opcode of a word. -/
theorem opcode {w : Syllable} {k c pay : Nat} (hc : c < 256) (hp : pay < 2 ^ 20) (h : w.toNat % 2 ^ 31 = k * 2 ^ 28 + c * 2 ^ 20 + pay) :
    (field w 20 8).toNat = c := by
  have : field w 20 8 = BitVec.ofNat 8 c := fld h (by decide) (by simp; omega)
  rw [this]; simp; omega

/-- The position of an op that names no slot. -/
theorem slotPos_plain {i : Instr} {k c pay : Nat} {e : Option (BitVec 28)} (hv : i.slotV = none) (hcs : i.slotC = none)
    (he : encodeOp i = some (opWord k c pay, e)) (hk : k < 8) (hc : c < 256) (hp : pay < 2 ^ 20) :
    i.slotPos = if k = 2 then .m else .s := by
  have f : field (opWord k c pay) 28 3 = BitVec.ofNat 3 k := fld (opWord_low k c pay hk hc hp) (by decide) (by simp; omega)
  have d : (BitVec.ofNat 3 k = 2#3) = (k = 2) := by
    have : k = 0 ∨ k = 1 ∨ k = 2 ∨ k = 3 ∨ k = 4 ∨ k = 5 ∨ k = 6 ∨ k = 7 := by omega
    rcases this with rfl | rfl | rfl | rfl | rfl | rfl | rfl | rfl <;> decide
  simp [Instr.slotPos, hv, hcs, he, f, d]

/-- The position of a vector slot. -/
def vPos (v : VSlot) : SlotPos := match v with | .v0 => .v0 | .v1 => .v1
/-- The position of a copy slot. -/
def cPos (v : CSlot) : SlotPos := match v with | .c0 => .c0 | .c1 => .c1

theorem slotPos_v {i : Instr} {v : VSlot} (h : i.slotV = some v) : i.slotPos = vPos v := by
  cases v <;> simp [Instr.slotPos, h, vPos]
theorem slotPos_c {i : Instr} {v : CSlot} (hv : i.slotV = none) (h : i.slotC = some v) : i.slotPos = cPos v := by
  cases v <;> simp [Instr.slotPos, hv, h, cPos]

/-- Decoding what `encode` wrote gives the operation back; a row that is no operation has no syllables. -/
def Trip (i : Instr) : Prop :=
  if i.wordless then ∀ stop, encode i stop = []
  else i.wf = true → ∀ stop, decodeSyllables i.slotPos (encode i stop) = .ok i.canon

theorem of_wordless {i : Instr} (h : i.wordless = true) (he : ∀ stop, encode i stop = []) : Trip i := by
  simp only [Trip, h, if_true]; exact he

/-- A scalar op's round trip. -/
theorem trip_s {i j : Instr} {c pay : Nat} {e : Option (BitVec 28)} (hw : i.wordless = false) (hcan : i.canon = j) (hwf : i.wf = j.wf)
    (hv : i.slotV = none) (hcs : i.slotC = none) (he : encodeOp i = some (opWord 0 c pay, e))
    (hc : c < 256) (hp : pay < 2 ^ 20)
    (hd : ∀ w : Syllable, w.toNat % 2 ^ 31 = 0 * 2 ^ 28 + c * 2 ^ 20 + pay → decodeS w e = .ok j) : Trip i := by
  simp only [Trip, hw]
  intro h stop
  rw [slotPos_plain hv hcs he (by decide) hc hp, encode_op he, hcan]
  exact op_round stop hc hp rfl (hwf ▸ h) (fun w q => congrArg checkInstr (hd w q))

/-- A matrix op's round trip. -/
theorem trip_m {i j : Instr} {c pay : Nat} {e : Option (BitVec 28)} (hw : i.wordless = false) (hcan : i.canon = j) (hwf : i.wf = j.wf)
    (hv : i.slotV = none) (hcs : i.slotC = none) (he : encodeOp i = some (opWord 2 c pay, e))
    (hc : c < 256) (hp : pay < 2 ^ 20)
    (hd : ∀ w : Syllable, w.toNat % 2 ^ 31 = 2 * 2 ^ 28 + c * 2 ^ 20 + pay → decodeM w e = .ok j) : Trip i := by
  simp only [Trip, hw]
  intro h stop
  rw [slotPos_plain hv hcs he (by decide) hc hp, encode_op he, hcan]
  exact op_round stop hc hp rfl (hwf ▸ h) (fun w q => congrArg checkInstr (hd w q))

/-- A vector op's round trip. -/
theorem trip_v {i j : Instr} {v : VSlot} {c pay : Nat} {e : Option (BitVec 28)} (hw : i.wordless = false) (hcan : i.canon = j) (hwf : i.wf = j.wf)
    (hv : i.slotV = some v)
    (he : encodeOp i = some (opWord 1 c pay, e)) (hc : c < 256) (hp : pay < 2 ^ 20)
    (hd : ∀ w : Syllable, w.toNat % 2 ^ 31 = 1 * 2 ^ 28 + c * 2 ^ 20 + pay → decodeV v w e = .ok j) : Trip i := by
  simp only [Trip, hw]
  intro h stop
  rw [slotPos_v hv, encode_op he, hcan]
  refine op_round stop hc hp (by cases v <;> rfl) (hwf ▸ h) (fun w q => ?_)
  have := congrArg checkInstr (hd w q)
  cases v <;> exact this

/-- A copy op's round trip. -/
theorem trip_c {i j : Instr} {v : CSlot} {c pay : Nat} {e : Option (BitVec 28)} (hw : i.wordless = false) (hcan : i.canon = j) (hwf : i.wf = j.wf)
    (hv : i.slotV = none) (hcs : i.slotC = some v)
    (he : encodeOp i = some (opWord 3 c pay, e)) (hc : c < 256) (hp : pay < 2 ^ 20)
    (hd : ∀ w : Syllable, w.toNat % 2 ^ 31 = 3 * 2 ^ 28 + c * 2 ^ 20 + pay → decodeC v w e = .ok j) : Trip i := by
  simp only [Trip, hw]
  intro h stop
  rw [slotPos_c hv hcs, encode_op he, hcan]
  refine op_round stop hc hp (by cases v <;> rfl) (hwf ▸ h) (fun w q => ?_)
  have := congrArg checkInstr (hd w q)
  cases v <;> exact this

theorem parseNone_ok {w : Syllable} {k c : Nat} (i : Instr) (h : w.toNat % 2 ^ 31 = k * 2 ^ 28 + c * 2 ^ 20 + 0) : parseNone i w none = .ok i := by
  have z : zeroAt w 0 20 = true := zfld h (by decide) (by omega)
  simp [parseNone, z]

theorem parseSAG_pack (g : SAG) : parseSAG (packSAG g) = .ok g := by
  have he : (packSAG g).toNat = g.cl.toNat * 2 ^ 0 + g.sco.toNat * 2 ^ 4 + g.w.toNat * 2 ^ 6 + g.fo.toNat * 2 ^ 7 + g.m.toNat * 2 ^ 12 := by simp [packSAG]; omega
  have e_cl : field (packSAG g) 0 4 = g.cl := efld he (by omega)
  have e_sco : field (packSAG g) 4 2 = g.sco := efld he (by omega)
  have e_w : field (packSAG g) 6 1 = g.w := efld he (by omega)
  have e_fo : field (packSAG g) 7 1 = g.fo := efld he (by omega)
  have e_m : field (packSAG g) 12 16 = g.m := efld he (by omega)
  have z_8 : zeroAt (packSAG g) 8 4 = true := ezfld he (by omega)
  simp [parseSAG, e_cl, e_sco, e_w, e_fo, e_m, z_8]

theorem parseVRG_pack (g : VRG) : parseVRG (packVRG g) = .ok g := by
  have he : (packVRG g).toNat = g.c.toNat * 2 ^ 0 + g.rm.toNat * 2 ^ 6 + g.fi.toNat * 2 ^ 8 + g.fo.toNat * 2 ^ 12 + g.i.toNat * 2 ^ 16 := by simp [packVRG]; omega
  have e_c : field (packVRG g) 0 5 = g.c := efld he (by omega)
  have e_rm : field (packVRG g) 6 2 = g.rm := efld he (by omega)
  have e_fi : field (packVRG g) 8 4 = g.fi := efld he (by omega)
  have e_fo : field (packVRG g) 12 4 = g.fo := efld he (by omega)
  have e_i : field (packVRG g) 16 12 = g.i := efld he (by omega)
  have z_5 : zeroAt (packVRG g) 5 1 = true := ezfld he (by omega)
  simp [parseVRG, e_c, e_rm, e_fi, e_fo, e_i, z_5]

theorem parseVMG_pack (g : VMG) : parseVMG (packVMG g) = .ok g := by
  have he : (packVMG g).toNat = g.disp.toNat * 2 ^ 0 + g.cl.toNat * 2 ^ 24 := by simp [packVMG]; omega
  have e_disp : field (packVMG g) 0 24 = g.disp := efld he (by omega)
  have e_cl : field (packVMG g) 24 4 = g.cl := efld he (by omega)
  simp [parseVMG, e_disp, e_cl]

theorem paySR3_lt (o : SR3) : paySR3 o < 2 ^ 20 := by
  simp only [paySR3]; omega

theorem parseSR3_pay {w : Syllable} {k c : Nat} (o : SR3) (h : w.toNat % 2 ^ 31 = k * 2 ^ 28 + c * 2 ^ 20 + (paySR3 o)) :
    parseSR3 w (extSR3 o) = .ok o := by
  simp only [paySR3] at h
  have f_d : field w 14 6 = o.d := fld h (by decide) (by omega)
  have f_a : field w 8 6 = o.a := fld h (by decide) (by omega)
  have f_b : field w 2 6 = o.b := fld h (by decide) (by omega)
  have z_0 : zeroAt w 0 2 = true := zfld h (by decide) (by omega)
  simp [parseSR3, extSR3, f_d, f_a, f_b, z_0]

theorem paySR2_lt (o : SR2) : paySR2 o < 2 ^ 20 := by
  simp only [paySR2]; omega

theorem parseSR2_pay {w : Syllable} {k c : Nat} (o : SR2) (h : w.toNat % 2 ^ 31 = k * 2 ^ 28 + c * 2 ^ 20 + (paySR2 o)) :
    parseSR2 w (extSR2 o) = .ok o := by
  simp only [paySR2] at h
  have f_d : field w 14 6 = o.d := fld h (by decide) (by omega)
  have f_a : field w 8 6 = o.a := fld h (by decide) (by omega)
  have z_0 : zeroAt w 0 8 = true := zfld h (by decide) (by omega)
  simp [parseSR2, extSR2, f_d, f_a, z_0]

theorem paySRX_lt (o : SRX) : paySRX o < 2 ^ 20 := by
  simp only [paySRX]; omega

theorem parseSRX_pay {w : Syllable} {k c : Nat} (o : SRX) (h : w.toNat % 2 ^ 31 = k * 2 ^ 28 + c * 2 ^ 20 + (paySRX o)) :
    parseSRX w (extSRX o) = .ok o := by
  simp only [paySRX] at h
  have f_d : field w 14 6 = o.d := fld h (by decide) (by omega)
  have f_a : field w 8 6 = o.a := fld h (by decide) (by omega)
  have f_x : field w 0 2 = o.x := fld h (by decide) (by omega)
  have z_2 : zeroAt w 2 6 = true := zfld h (by decide) (by omega)
  simp [parseSRX, extSRX, f_d, f_a, f_x, z_2]

theorem paySR4_lt (o : SR4) : paySR4 o < 2 ^ 20 := by
  simp only [paySR4]; omega

theorem parseSR4_pay {w : Syllable} {k c : Nat} (o : SR4) (h : w.toNat % 2 ^ 31 = k * 2 ^ 28 + c * 2 ^ 20 + (paySR4 o)) :
    parseSR4 w (extSR4 o) = .ok o := by
  simp only [paySR4] at h
  have f_d : field w 14 6 = o.d := fld h (by decide) (by omega)
  have f_a : field w 8 6 = o.a := fld h (by decide) (by omega)
  have f_b : field w 2 6 = o.b := fld h (by decide) (by omega)
  have f_x : field w 0 2 = o.x := fld h (by decide) (by omega)
  simp [parseSR4, extSR4, f_d, f_a, f_b, f_x]

theorem paySX_lt (o : SX) : paySX o < 2 ^ 20 := by
  simp only [paySX]; omega

theorem parseSX_pay {w : Syllable} {k c : Nat} (o : SX) (h : w.toNat % 2 ^ 31 = k * 2 ^ 28 + c * 2 ^ 20 + (paySX o)) :
    parseSX w (extSX o) = .ok o := by
  simp only [paySX] at h
  have f_d : field w 14 6 = o.d := fld h (by decide) (by omega)
  have f_a : field w 8 6 = o.a := fld h (by decide) (by omega)
  have f_b : field w 2 6 = o.b := fld h (by decide) (by omega)
  have z_0 : zeroAt w 0 2 = true := zfld h (by decide) (by omega)
  have he : (BitVec.ofNat 28 (o.k.toNat * 2 ^ 0) : BitVec 28).toNat = o.k.toNat * 2 ^ 0 := by simp; omega
  have e_k : field (BitVec.ofNat 28 (o.k.toNat * 2 ^ 0) : BitVec 28) 0 4 = o.k := efld he (by omega)
  have ez_4 : zeroAt (BitVec.ofNat 28 (o.k.toNat * 2 ^ 0) : BitVec 28) 4 24 = true := ezfld he (by omega)
  simp only [parseSX, extSX, f_d, f_a, f_b, z_0, e_k, ez_4, Bool.and_self, if_true]

theorem paySXB_lt (o : SXB) : paySXB o < 2 ^ 20 := by
  simp only [paySXB]; omega

theorem parseSXB_pay {w : Syllable} {k c : Nat} (o : SXB) (h : w.toNat % 2 ^ 31 = k * 2 ^ 28 + c * 2 ^ 20 + (paySXB o)) :
    parseSXB w (extSXB o) = .ok o := by
  simp only [paySXB] at h
  have f_d : field w 14 6 = o.d := fld h (by decide) (by omega)
  have f_a : field w 8 6 = o.a := fld h (by decide) (by omega)
  have f_p : field w 2 6 = o.p := fld h (by decide) (by omega)
  have z_0 : zeroAt w 0 2 = true := zfld h (by decide) (by omega)
  have he : (BitVec.ofNat 28 (o.w.toNat * 2 ^ 0) : BitVec 28).toNat = o.w.toNat * 2 ^ 0 := by simp; omega
  have e_w : field (BitVec.ofNat 28 (o.w.toNat * 2 ^ 0) : BitVec 28) 0 6 = o.w := efld he (by omega)
  have ez_6 : zeroAt (BitVec.ofNat 28 (o.w.toNat * 2 ^ 0) : BitVec 28) 6 22 = true := ezfld he (by omega)
  simp only [parseSXB, extSXB, f_d, f_a, f_p, z_0, e_w, ez_6, Bool.and_self, if_true]

theorem paySI_lt (o : SI) : paySI o < 2 ^ 20 := by
  simp only [paySI]; omega

theorem parseSI_pay {w : Syllable} {k c : Nat} (o : SI) (h : w.toNat % 2 ^ 31 = k * 2 ^ 28 + c * 2 ^ 20 + (paySI o)) :
    parseSI w (extSI o) = .ok o := by
  simp only [paySI] at h
  have f_d : field w 14 6 = o.d := fld h (by decide) (by omega)
  have f_a : field w 8 6 = o.a := fld h (by decide) (by omega)
  have f_i : field w 0 8 = o.i := fld h (by decide) (by omega)
  simp [parseSI, extSI, f_d, f_a, f_i]

theorem paySM_lt (o : SM) : paySM o < 2 ^ 20 := by
  simp only [paySM]; omega

theorem parseSM_pay {w : Syllable} {k c : Nat} (o : SM) (h : w.toNat % 2 ^ 31 = k * 2 ^ 28 + c * 2 ^ 20 + (paySM o)) :
    parseSM w (extSM o) = .ok o := by
  simp only [paySM] at h
  have f_d : field w 14 6 = o.d := fld h (by decide) (by omega)
  have f_i : field w 0 14 = o.i := fld h (by decide) (by omega)
  simp [parseSM, extSM, f_d, f_i]

theorem paySK_lt (o : SK) : paySK o < 2 ^ 20 := by
  simp only [paySK]; omega

theorem parseSK_pay {w : Syllable} {k c : Nat} (o : SK) (h : w.toNat % 2 ^ 31 = k * 2 ^ 28 + c * 2 ^ 20 + (paySK o)) :
    parseSK w (extSK o) = .ok o := by
  simp only [paySK] at h
  have f_k : field w 16 4 = o.k := fld h (by decide) (by omega)
  have f_a : field w 8 6 = o.a := fld h (by decide) (by omega)
  have f_b : field w 2 6 = o.b := fld h (by decide) (by omega)
  have z_0 : zeroAt w 0 2 = true := zfld h (by decide) (by omega)
  have z_14 : zeroAt w 14 2 = true := zfld h (by decide) (by omega)
  simp [parseSK, extSK, f_k, f_a, f_b, z_0, z_14]

theorem paySJ_lt (o : SJ) : paySJ o < 2 ^ 20 := by
  simp only [paySJ]; omega

theorem parseSJ_pay {w : Syllable} {k c : Nat} (o : SJ) (h : w.toNat % 2 ^ 31 = k * 2 ^ 28 + c * 2 ^ 20 + (paySJ o)) :
    parseSJ w (extSJ o) = .ok o := by
  simp only [paySJ] at h
  have f_k : field w 16 4 = o.k := fld h (by decide) (by omega)
  have f_a : field w 10 6 = o.a := fld h (by decide) (by omega)
  have f_i : field w 0 10 = o.i := fld h (by decide) (by omega)
  simp [parseSJ, extSJ, f_k, f_a, f_i]

theorem paySP_lt (o : SP) : paySP o < 2 ^ 20 := by
  simp only [paySP]; omega

theorem parseSP_pay {w : Syllable} {k c : Nat} (o : SP) (h : w.toNat % 2 ^ 31 = k * 2 ^ 28 + c * 2 ^ 20 + (paySP o)) :
    parseSP w (extSP o) = .ok o := by
  simp only [paySP] at h
  have f_k : field w 16 4 = o.k := fld h (by decide) (by omega)
  have f_ka : field w 12 4 = o.ka := fld h (by decide) (by omega)
  have f_kb : field w 8 4 = o.kb := fld h (by decide) (by omega)
  have z_0 : zeroAt w 0 8 = true := zfld h (by decide) (by omega)
  simp [parseSP, extSP, f_k, f_ka, f_kb, z_0]

theorem paySP1_lt (o : SP1) : paySP1 o < 2 ^ 20 := by
  simp only [paySP1]; omega

theorem parseSP1_pay {w : Syllable} {k c : Nat} (o : SP1) (h : w.toNat % 2 ^ 31 = k * 2 ^ 28 + c * 2 ^ 20 + (paySP1 o)) :
    parseSP1 w (extSP1 o) = .ok o := by
  simp only [paySP1] at h
  have f_k : field w 16 4 = o.k := fld h (by decide) (by omega)
  have f_ka : field w 12 4 = o.ka := fld h (by decide) (by omega)
  have z_0 : zeroAt w 0 12 = true := zfld h (by decide) (by omega)
  simp [parseSP1, extSP1, f_k, f_ka, z_0]

theorem paySB_lt (o : SB) : paySB o < 2 ^ 20 := by
  simp only [paySB]; omega

theorem parseSB_pay {w : Syllable} {k c : Nat} (o : SB) (h : w.toNat % 2 ^ 31 = k * 2 ^ 28 + c * 2 ^ 20 + (paySB o)) :
    parseSB w (extSB o) = .ok o := by
  simp only [paySB] at h
  have f_o : field w 0 20 = o.o := fld h (by decide) (by omega)
  simp [parseSB, extSB, f_o]

theorem paySC_lt (o : SC) : paySC o < 2 ^ 20 := by
  simp only [paySC]; omega

theorem parseSC_pay {w : Syllable} {k c : Nat} (o : SC) (h : w.toNat % 2 ^ 31 = k * 2 ^ 28 + c * 2 ^ 20 + (paySC o)) :
    parseSC w (extSC o) = .ok o := by
  simp only [paySC] at h
  have f_n : field w 19 1 = o.n := fld h (by decide) (by omega)
  have f_k : field w 15 4 = o.k := fld h (by decide) (by omega)
  have f_o : field w 0 15 = o.o := fld h (by decide) (by omega)
  simp [parseSC, extSC, f_n, f_k, f_o]

theorem payS1_lt (o : S1) : payS1 o < 2 ^ 20 := by
  simp only [payS1]; omega

theorem parseS1_pay {w : Syllable} {k c : Nat} (o : S1) (h : w.toNat % 2 ^ 31 = k * 2 ^ 28 + c * 2 ^ 20 + (payS1 o)) :
    parseS1 w (extS1 o) = .ok o := by
  simp only [payS1] at h
  have f_r : field w 14 6 = o.r := fld h (by decide) (by omega)
  have z_0 : zeroAt w 0 14 = true := zfld h (by decide) (by omega)
  simp [parseS1, extS1, f_r, z_0]

theorem paySL_lt (o : SL) : paySL o < 2 ^ 20 := by
  simp only [paySL]; omega

theorem parseSL_pay {w : Syllable} {k c : Nat} (o : SL) (h : w.toNat % 2 ^ 31 = k * 2 ^ 28 + c * 2 ^ 20 + (paySL o)) :
    parseSL w (extSL o) = .ok o := by
  simp only [paySL] at h
  have f_a : field w 14 6 = o.a := fld h (by decide) (by omega)
  have f_n : field w 11 3 = o.n := fld h (by decide) (by omega)
  have f_b : field w 5 6 = o.b := fld h (by decide) (by omega)
  have z_0 : zeroAt w 0 5 = true := zfld h (by decide) (by omega)
  cases o with | mk a n b p =>
  cases p with
  | none => simp_all [parseSL, extSL]
  | some y =>
    have he : (BitVec.ofNat 28 (y.toNat * 2 ^ 0) : BitVec 28).toNat = y.toNat := by simp; omega
    have e_y : field (BitVec.ofNat 28 (y.toNat * 2 ^ 0) : BitVec 28) 0 20 = y := efld he (by omega)
    have ez_20 : zeroAt (BitVec.ofNat 28 (y.toNat * 2 ^ 0) : BitVec 28) 20 8 = true := ezfld he (by omega)
    simp only [parseSL, extSL, Option.map_some, f_a, f_n, f_b, z_0, e_y, ez_20, Bool.and_self, if_true]

theorem paySQ_lt (o : SQ) : paySQ o < 2 ^ 20 := by
  simp only [paySQ]; omega

theorem parseSQ_pay {w : Syllable} {k c : Nat} (o : SQ) (h : w.toNat % 2 ^ 31 = k * 2 ^ 28 + c * 2 ^ 20 + (paySQ o)) :
    parseSQ w (extSQ o) = .ok o := by
  simp only [paySQ] at h
  have f_s : field w 12 8 = o.s := fld h (by decide) (by omega)
  have f_v : field w 8 4 = o.v := fld h (by decide) (by omega)
  have f_w : field w 4 4 = o.w := fld h (by decide) (by omega)
  have f_c : field w 2 2 = o.c := fld h (by decide) (by omega)
  have f_d : field w 0 2 = o.d := fld h (by decide) (by omega)
  cases o with | mk s v w c d k =>
  cases k with
  | none => simp_all [parseSQ, extSQ]
  | some y =>
    have he : (BitVec.ofNat 28 (y.toNat * 2 ^ 0) : BitVec 28).toNat = y.toNat := by simp; omega
    have e_y : field (BitVec.ofNat 28 (y.toNat * 2 ^ 0) : BitVec 28) 0 2 = y := efld he (by omega)
    have ez_2 : zeroAt (BitVec.ofNat 28 (y.toNat * 2 ^ 0) : BitVec 28) 2 26 = true := ezfld he (by omega)
    simp only [parseSQ, extSQ, Option.map_some, f_s, f_v, f_w, f_c, f_d, e_y, ez_2, if_true]

theorem paySQF_lt (o : SQF) : paySQF o < 2 ^ 20 := by
  simp only [paySQF]; omega

theorem parseSQF_pay {w : Syllable} {k c : Nat} (o : SQF) (h : w.toNat % 2 ^ 31 = k * 2 ^ 28 + c * 2 ^ 20 + (paySQF o)) :
    parseSQF w (extSQF o) = .ok o := by
  simp only [paySQF] at h
  have f_s : field w 12 8 = o.s := fld h (by decide) (by omega)
  have f_v : field w 8 4 = o.v := fld h (by decide) (by omega)
  have f_w : field w 4 4 = o.w := fld h (by decide) (by omega)
  have f_c : field w 2 2 = o.c := fld h (by decide) (by omega)
  have f_d : field w 0 2 = o.d := fld h (by decide) (by omega)
  have he : (BitVec.ofNat 28 (o.k.toNat * 2 ^ 0 + o.kp.toNat * 2 ^ 4) : BitVec 28).toNat = o.k.toNat * 2 ^ 0 + o.kp.toNat * 2 ^ 4 := by simp; omega
  have e_k : field (BitVec.ofNat 28 (o.k.toNat * 2 ^ 0 + o.kp.toNat * 2 ^ 4) : BitVec 28) 0 2 = o.k := efld he (by omega)
  have e_kp : field (BitVec.ofNat 28 (o.k.toNat * 2 ^ 0 + o.kp.toNat * 2 ^ 4) : BitVec 28) 4 4 = o.kp := efld he (by omega)
  have ez_2 : zeroAt (BitVec.ofNat 28 (o.k.toNat * 2 ^ 0 + o.kp.toNat * 2 ^ 4) : BitVec 28) 2 2 = true := ezfld he (by omega)
  have ez_8 : zeroAt (BitVec.ofNat 28 (o.k.toNat * 2 ^ 0 + o.kp.toNat * 2 ^ 4) : BitVec 28) 8 20 = true := ezfld he (by omega)
  simp only [parseSQF, extSQF, f_s, f_v, f_w, f_c, f_d, e_k, e_kp, ez_2, ez_8, Bool.and_self, if_true]

theorem paySG_lt (o : SG) : paySG o < 2 ^ 20 := by
  simp only [paySG]; omega

theorem parseSG_pay {w : Syllable} {k c : Nat} (o : SG) (h : w.toNat % 2 ^ 31 = k * 2 ^ 28 + c * 2 ^ 20 + (paySG o)) :
    parseSG w (extSG o) = .ok o := by
  simp only [paySG] at h
  have f_r : field w 14 6 = o.r := fld h (by decide) (by omega)
  have f_a : field w 8 6 = o.a := fld h (by decide) (by omega)
  have f_cl : field w 4 4 = o.cl := fld h (by decide) (by omega)
  have f_o : field w 0 4 = o.o := fld h (by decide) (by omega)
  simp [parseSG, extSG, f_r, f_a, f_cl, f_o]

theorem paySO_lt (o : SO) : paySO o < 2 ^ 20 := by
  simp only [paySO]; omega

theorem parseSO_pay {w : Syllable} {k c : Nat} (o : SO) (h : w.toNat % 2 ^ 31 = k * 2 ^ 28 + c * 2 ^ 20 + (paySO o)) :
    parseSO w (extSO o) = .ok o := by
  simp only [paySO] at h
  have f_r : field w 14 6 = o.r := fld h (by decide) (by omega)
  have f_a : field w 8 6 = o.a := fld h (by decide) (by omega)
  have f_cl : field w 4 4 = o.cl := fld h (by decide) (by omega)
  have f_sco : field w 0 2 = o.sco := fld h (by decide) (by omega)
  have z_2 : zeroAt w 2 2 = true := zfld h (by decide) (by omega)
  have he : (BitVec.ofNat 28 (o.m.toNat * 2 ^ 0) : BitVec 28).toNat = o.m.toNat * 2 ^ 0 := by simp; omega
  have e_m : field (BitVec.ofNat 28 (o.m.toNat * 2 ^ 0) : BitVec 28) 0 16 = o.m := efld he (by omega)
  have ez_16 : zeroAt (BitVec.ofNat 28 (o.m.toNat * 2 ^ 0) : BitVec 28) 16 12 = true := ezfld he (by omega)
  simp only [parseSO, extSO, f_r, f_a, f_cl, f_sco, z_2, e_m, ez_16, Bool.and_self, if_true]

theorem paySY_lt (o : SY) : paySY o < 2 ^ 20 := by
  simp only [paySY]; omega

theorem parseSY_pay {w : Syllable} {k c : Nat} (o : SY) (h : w.toNat % 2 ^ 31 = k * 2 ^ 28 + c * 2 ^ 20 + (paySY o)) :
    parseSY w (extSY o) = .ok o := by
  simp only [paySY] at h
  have f_r : field w 14 6 = o.r := fld h (by decide) (by omega)
  have f_a : field w 8 6 = o.a := fld h (by decide) (by omega)
  have f_o : field w 0 8 = o.o := fld h (by decide) (by omega)
  simp [parseSY, extSY, f_r, f_a, f_o]

theorem paySA_lt (o : SA) : paySA o < 2 ^ 20 := by
  simp only [paySA]; omega

theorem parseSA_pay {w : Syllable} {k c : Nat} (o : SA) (h : w.toNat % 2 ^ 31 = k * 2 ^ 28 + c * 2 ^ 20 + (paySA o)) :
    parseSA w (extSA o) = .ok o := by
  simp only [paySA] at h
  have f_d : field w 14 6 = o.d := fld h (by decide) (by omega)
  have f_a : field w 8 6 = o.a := fld h (by decide) (by omega)
  have f_b : field w 2 6 = o.b := fld h (by decide) (by omega)
  have f_o : field w 0 2 = o.o := fld h (by decide) (by omega)
  cases o with | mk d a b o g =>
  cases g with
  | none => simp_all [parseSA, extSA]
  | some y => simp_all [parseSA, extSA, parseSAG_pack]

theorem paySAR_lt (o : SAR) : paySAR o < 2 ^ 20 := by
  simp only [paySAR]; omega

theorem parseSAR_pay {w : Syllable} {k c : Nat} (o : SAR) (h : w.toNat % 2 ^ 31 = k * 2 ^ 28 + c * 2 ^ 20 + (paySAR o)) :
    parseSAR w (extSAR o) = .ok o := by
  simp only [paySAR] at h
  have f_a : field w 8 6 = o.a := fld h (by decide) (by omega)
  have f_b : field w 2 6 = o.b := fld h (by decide) (by omega)
  have z_0 : zeroAt w 0 2 = true := zfld h (by decide) (by omega)
  have z_14 : zeroAt w 14 6 = true := zfld h (by decide) (by omega)
  cases o with | mk a b g =>
  cases g with
  | none => simp_all [parseSAR, extSAR]
  | some y => simp_all [parseSAR, extSAR, parseSAG_pack]

theorem paySU_lt (o : SU) : paySU o < 2 ^ 20 := by
  simp only [paySU]; omega

theorem parseSU_pay {w : Syllable} {k c : Nat} (o : SU) (h : w.toNat % 2 ^ 31 = k * 2 ^ 28 + c * 2 ^ 20 + (paySU o)) :
    parseSU w (extSU o) = .ok o := by
  simp only [paySU] at h
  have f_cl : field w 16 4 = o.cl := fld h (by decide) (by omega)
  have f_a : field w 8 6 = o.a := fld h (by decide) (by omega)
  have f_b : field w 2 6 = o.b := fld h (by decide) (by omega)
  have f_u : field w 1 1 = o.u := fld h (by decide) (by omega)
  have f_w : field w 0 1 = o.w := fld h (by decide) (by omega)
  have z_14 : zeroAt w 14 2 = true := zfld h (by decide) (by omega)
  simp [parseSU, extSU, f_cl, f_a, f_b, f_u, f_w, z_14]

theorem paySF_lt (o : SF) : paySF o < 2 ^ 20 := by
  simp only [paySF]; omega

theorem parseSF_pay {w : Syllable} {k c : Nat} (o : SF) (h : w.toNat % 2 ^ 31 = k * 2 ^ 28 + c * 2 ^ 20 + (paySF o)) :
    parseSF w (extSF o) = .ok o := by
  simp only [paySF] at h
  have f_sco : field w 16 2 = o.sco := fld h (by decide) (by omega)
  have f_mb : field w 0 16 = o.mb := fld h (by decide) (by omega)
  have z_18 : zeroAt w 18 2 = true := zfld h (by decide) (by omega)
  have he : (BitVec.ofNat 28 (o.ma.toNat * 2 ^ 0) : BitVec 28).toNat = o.ma.toNat * 2 ^ 0 := by simp; omega
  have e_ma : field (BitVec.ofNat 28 (o.ma.toNat * 2 ^ 0) : BitVec 28) 0 16 = o.ma := efld he (by omega)
  have ez_16 : zeroAt (BitVec.ofNat 28 (o.ma.toNat * 2 ^ 0) : BitVec 28) 16 12 = true := ezfld he (by omega)
  simp only [parseSF, extSF, f_sco, f_mb, z_18, e_ma, ez_16, Bool.and_self, if_true]

theorem paySTC_lt (o : STC) : paySTC o < 2 ^ 20 := by
  simp only [paySTC]; omega

theorem parseSTC_pay {w : Syllable} {k c : Nat} (o : STC) (h : w.toNat % 2 ^ 31 = k * 2 ^ 28 + c * 2 ^ 20 + (paySTC o)) :
    parseSTC w (extSTC o) = .ok o := by
  simp only [paySTC] at h
  have f_f : field w 11 3 = o.f := fld h (by decide) (by omega)
  have f_n : field w 5 6 = o.n := fld h (by decide) (by omega)
  have z_0 : zeroAt w 0 5 = true := zfld h (by decide) (by omega)
  have z_14 : zeroAt w 14 6 = true := zfld h (by decide) (by omega)
  simp [parseSTC, extSTC, f_f, f_n, z_0, z_14]

theorem paySH_lt (o : SH) : paySH o < 2 ^ 20 := by
  simp only [paySH]; omega

theorem parseSH_pay {w : Syllable} {k c : Nat} (o : SH) (h : w.toNat % 2 ^ 31 = k * 2 ^ 28 + c * 2 ^ 20 + (paySH o)) :
    parseSH w (extSH o) = .ok o := by
  simp only [paySH] at h
  have f_i : field w 0 16 = o.i := fld h (by decide) (by omega)
  have z_16 : zeroAt w 16 4 = true := zfld h (by decide) (by omega)
  simp [parseSH, extSH, f_i, z_16]

theorem payST_lt (o : ST) : payST o < 2 ^ 20 := by
  simp only [payST]; omega

theorem parseST_pay {w : Syllable} {k c : Nat} (o : ST) (h : w.toNat % 2 ^ 31 = k * 2 ^ 28 + c * 2 ^ 20 + (payST o)) :
    parseST w (extST o) = .ok o := by
  simp only [payST] at h
  have f_r : field w 14 6 = o.r := fld h (by decide) (by omega)
  have f_f : field w 11 3 = o.f := fld h (by decide) (by omega)
  have f_n : field w 5 6 = o.n := fld h (by decide) (by omega)
  have z_0 : zeroAt w 0 5 = true := zfld h (by decide) (by omega)
  simp [parseST, extST, f_r, f_f, f_n, z_0]

theorem paySW_lt (o : SW) : paySW o < 2 ^ 20 := by
  simp only [paySW]; omega

theorem parseSW_pay {w : Syllable} {k c : Nat} (o : SW) (h : w.toNat % 2 ^ 31 = k * 2 ^ 28 + c * 2 ^ 20 + (paySW o)) :
    parseSW w (extSW o) = .ok o := by
  simp only [paySW] at h
  have f_r : field w 14 6 = o.r := fld h (by decide) (by omega)
  have f_n : field w 0 12 = o.n := fld h (by decide) (by omega)
  have z_12 : zeroAt w 12 2 = true := zfld h (by decide) (by omega)
  simp [parseSW, extSW, f_r, f_n, z_12]

theorem paySWF_lt_106 (o : SWF) : paySWF o + 0x106 < 2 ^ 20 := by
  simp only [paySWF]; omega

theorem parseSWF_pay_106 {w : Syllable} {k c : Nat} (o : SWF) (h : w.toNat % 2 ^ 31 = k * 2 ^ 28 + c * 2 ^ 20 + (paySWF o + 0x106)) :
    parseSWF 0x106 w (extSWF o) = .ok o := by
  simp only [paySWF] at h
  have f_r : field w 14 6 = o.r := fld h (by decide) (by omega)
  have x_0 : field w 0 14 = BitVec.ofNat 14 (0x106 / 2 ^ 0) := fld h (by decide) (by simp; omega)
  simp [parseSWF, extSWF, f_r, x_0]

theorem paySWF_lt_105 (o : SWF) : paySWF o + 0x105 < 2 ^ 20 := by
  simp only [paySWF]; omega

theorem parseSWF_pay_105 {w : Syllable} {k c : Nat} (o : SWF) (h : w.toNat % 2 ^ 31 = k * 2 ^ 28 + c * 2 ^ 20 + (paySWF o + 0x105)) :
    parseSWF 0x105 w (extSWF o) = .ok o := by
  simp only [paySWF] at h
  have f_r : field w 14 6 = o.r := fld h (by decide) (by omega)
  have x_0 : field w 0 14 = BitVec.ofNat 14 (0x105 / 2 ^ 0) := fld h (by decide) (by simp; omega)
  simp [parseSWF, extSWF, f_r, x_0]

theorem paySWF_lt_27 (o : SWF) : paySWF o + 0x27 < 2 ^ 20 := by
  simp only [paySWF]; omega

theorem parseSWF_pay_27 {w : Syllable} {k c : Nat} (o : SWF) (h : w.toNat % 2 ^ 31 = k * 2 ^ 28 + c * 2 ^ 20 + (paySWF o + 0x27)) :
    parseSWF 0x27 w (extSWF o) = .ok o := by
  simp only [paySWF] at h
  have f_r : field w 14 6 = o.r := fld h (by decide) (by omega)
  have x_0 : field w 0 14 = BitVec.ofNat 14 (0x27 / 2 ^ 0) := fld h (by decide) (by simp; omega)
  simp [parseSWF, extSWF, f_r, x_0]

theorem paySWF_lt_26 (o : SWF) : paySWF o + 0x26 < 2 ^ 20 := by
  simp only [paySWF]; omega

theorem parseSWF_pay_26 {w : Syllable} {k c : Nat} (o : SWF) (h : w.toNat % 2 ^ 31 = k * 2 ^ 28 + c * 2 ^ 20 + (paySWF o + 0x26)) :
    parseSWF 0x26 w (extSWF o) = .ok o := by
  simp only [paySWF] at h
  have f_r : field w 14 6 = o.r := fld h (by decide) (by omega)
  have x_0 : field w 0 14 = BitVec.ofNat 14 (0x26 / 2 ^ 0) := fld h (by decide) (by simp; omega)
  simp [parseSWF, extSWF, f_r, x_0]

theorem paySWF_lt_20 (o : SWF) : paySWF o + 0x20 < 2 ^ 20 := by
  simp only [paySWF]; omega

theorem parseSWF_pay_20 {w : Syllable} {k c : Nat} (o : SWF) (h : w.toNat % 2 ^ 31 = k * 2 ^ 28 + c * 2 ^ 20 + (paySWF o + 0x20)) :
    parseSWF 0x20 w (extSWF o) = .ok o := by
  simp only [paySWF] at h
  have f_r : field w 14 6 = o.r := fld h (by decide) (by omega)
  have x_0 : field w 0 14 = BitVec.ofNat 14 (0x20 / 2 ^ 0) := fld h (by decide) (by simp; omega)
  simp [parseSWF, extSWF, f_r, x_0]

theorem paySWF_lt_38 (o : SWF) : paySWF o + 0x38 < 2 ^ 20 := by
  simp only [paySWF]; omega

theorem parseSWF_pay_38 {w : Syllable} {k c : Nat} (o : SWF) (h : w.toNat % 2 ^ 31 = k * 2 ^ 28 + c * 2 ^ 20 + (paySWF o + 0x38)) :
    parseSWF 0x38 w (extSWF o) = .ok o := by
  simp only [paySWF] at h
  have f_r : field w 14 6 = o.r := fld h (by decide) (by omega)
  have x_0 : field w 0 14 = BitVec.ofNat 14 (0x38 / 2 ^ 0) := fld h (by decide) (by simp; omega)
  simp [parseSWF, extSWF, f_r, x_0]

theorem paySZ_lt (o : SZ) : paySZ o < 2 ^ 20 := by
  simp only [paySZ]; omega

theorem parseSZ_pay {w : Syllable} {k c : Nat} (o : SZ) (h : w.toNat % 2 ^ 31 = k * 2 ^ 28 + c * 2 ^ 20 + (paySZ o)) :
    parseSZ w (extSZ o) = .ok o := by
  simp only [paySZ] at h
  have f_r : field w 14 6 = o.r := fld h (by decide) (by omega)
  have f_a : field w 8 6 = o.a := fld h (by decide) (by omega)
  have f_t : field w 0 8 = o.t := fld h (by decide) (by omega)
  simp [parseSZ, extSZ, f_r, f_a, f_t]

theorem payS2P_lt (o : S2P) : payS2P o < 2 ^ 20 := by
  simp only [payS2P]; omega

theorem parseS2P_pay {w : Syllable} {k c : Nat} (o : S2P) (h : w.toNat % 2 ^ 31 = k * 2 ^ 28 + c * 2 ^ 20 + (payS2P o)) :
    parseS2P w (extS2P o) = .ok o := by
  simp only [payS2P] at h
  have f_r : field w 14 6 = o.r := fld h (by decide) (by omega)
  have f_a : field w 8 6 = o.a := fld h (by decide) (by omega)
  have z_0 : zeroAt w 0 8 = true := zfld h (by decide) (by omega)
  simp [parseS2P, extS2P, f_r, f_a, z_0]

theorem payS2_lt (o : S2) : payS2 o < 2 ^ 20 := by
  simp only [payS2]; omega

theorem parseS2_pay {w : Syllable} {k c : Nat} (o : S2) (h : w.toNat % 2 ^ 31 = k * 2 ^ 28 + c * 2 ^ 20 + (payS2 o)) :
    parseS2 w (extS2 o) = .ok o := by
  simp only [payS2] at h
  have f_r : field w 14 6 = o.r := fld h (by decide) (by omega)
  have f_a : field w 8 6 = o.a := fld h (by decide) (by omega)
  have f_k : field w 4 4 = o.k := fld h (by decide) (by omega)
  have z_0 : zeroAt w 0 4 = true := zfld h (by decide) (by omega)
  simp [parseS2, extS2, f_r, f_a, f_k, z_0]

theorem paySRD_lt (o : SRD) : paySRD o < 2 ^ 20 := by
  simp only [paySRD]; omega

theorem parseSRD_pay {w : Syllable} {k c : Nat} (o : SRD) (h : w.toNat % 2 ^ 31 = k * 2 ^ 28 + c * 2 ^ 20 + (paySRD o)) :
    parseSRD w (extSRD o) = .ok o := by
  simp only [paySRD] at h
  have f_a : field w 8 6 = o.a := fld h (by decide) (by omega)
  have f_b : field w 2 6 = o.b := fld h (by decide) (by omega)
  have z_0 : zeroAt w 0 2 = true := zfld h (by decide) (by omega)
  have z_14 : zeroAt w 14 6 = true := zfld h (by decide) (by omega)
  simp [parseSRD, extSRD, f_a, f_b, z_0, z_14]

theorem payVR_lt (o : VR) : payVR o < 2 ^ 20 := by
  simp only [payVR]; omega

theorem parseVR_pay {w : Syllable} {k c : Nat} (o : VR) (h : w.toNat % 2 ^ 31 = k * 2 ^ 28 + c * 2 ^ 20 + (payVR o)) :
    parseVR o.v w (extVR o) = .ok o := by
  simp only [payVR] at h
  have f_d : field w 15 5 = o.d := fld h (by decide) (by omega)
  have f_a : field w 10 5 = o.a := fld h (by decide) (by omega)
  have f_b : field w 5 5 = o.b := fld h (by decide) (by omega)
  have f_m : field w 2 3 = o.m := fld h (by decide) (by omega)
  have f_t : field w 0 2 = o.t := fld h (by decide) (by omega)
  cases o with | mk v d a b m t g =>
  cases g with
  | none => simp_all [parseVR, extVR]
  | some y => simp_all [parseVR, extVR, parseVRG_pack]

theorem payVN_lt (o : VN) : payVN o < 2 ^ 20 := by
  simp [payVN]

theorem parseVN_pay {w : Syllable} {k c : Nat} (o : VN) (h : w.toNat % 2 ^ 31 = k * 2 ^ 28 + c * 2 ^ 20 + (payVN o)) :
    parseVN o.v w (extVN o) = .ok o := by
  simp only [payVN] at h
  have z_0 : zeroAt w 0 20 = true := zfld h (by decide) (by omega)
  simp [parseVN, extVN, z_0]

theorem payVM_lt (o : VM) : payVM o < 2 ^ 20 := by
  simp only [payVM]; omega

theorem parseVM_pay_0 {w : Syllable} {k c : Nat} (o : VM) (h : w.toNat % 2 ^ 31 = k * 2 ^ 28 + c * 2 ^ 20 + (payVM o)) :
    parseVM o.v 0x0 w (extVM o) = .ok o := by
  simp only [payVM] at h
  have f_d : field w 15 5 = o.d := fld h (by decide) (by omega)
  have f_a : field w 10 5 = o.a := fld h (by decide) (by omega)
  have f_b : field w 5 5 = o.b := fld h (by decide) (by omega)
  have f_m : field w 2 3 = o.m := fld h (by decide) (by omega)
  have x_0 : field w 0 2 = BitVec.ofNat 2 (0x0 / 2 ^ 0) := fld h (by decide) (by simp; omega)
  cases o with | mk v d a b m g =>
  cases g with
  | none => simp_all [parseVM, extVM]
  | some y => simp_all [parseVM, extVM, parseVMG_pack]

theorem payVM_lt_1 (o : VM) : payVM o + 0x1 < 2 ^ 20 := by
  simp only [payVM]; omega

theorem parseVM_pay_1 {w : Syllable} {k c : Nat} (o : VM) (h : w.toNat % 2 ^ 31 = k * 2 ^ 28 + c * 2 ^ 20 + (payVM o + 0x1)) :
    parseVM o.v 0x1 w (extVM o) = .ok o := by
  simp only [payVM] at h
  have f_d : field w 15 5 = o.d := fld h (by decide) (by omega)
  have f_a : field w 10 5 = o.a := fld h (by decide) (by omega)
  have f_b : field w 5 5 = o.b := fld h (by decide) (by omega)
  have f_m : field w 2 3 = o.m := fld h (by decide) (by omega)
  have x_0 : field w 0 2 = BitVec.ofNat 2 (0x1 / 2 ^ 0) := fld h (by decide) (by simp; omega)
  cases o with | mk v d a b m g =>
  cases g with
  | none => simp_all [parseVM, extVM]
  | some y => simp_all [parseVM, extVM, parseVMG_pack]

theorem payMA_lt (o : MA) : payMA o < 2 ^ 20 := by
  simp only [payMA]; omega

theorem parseMA_pay {w : Syllable} {k c : Nat} (o : MA) (h : w.toNat % 2 ^ 31 = k * 2 ^ 28 + c * 2 ^ 20 + (payMA o)) :
    parseMA w (extMA o) = .ok o := by
  simp only [payMA] at h
  have f_z : field w 10 10 = o.z := fld h (by decide) (by omega)
  have f_ga : field w 6 4 = o.ga := fld h (by decide) (by omega)
  have f_gb : field w 2 4 = o.gb := fld h (by decide) (by omega)
  have f_p : field w 0 2 = o.p := fld h (by decide) (by omega)
  simp [parseMA, extMA, f_z, f_ga, f_gb, f_p]

theorem payMAS_lt (o : MAS) : payMAS o < 2 ^ 20 := by
  simp only [payMAS]; omega

theorem parseMAS_pay {w : Syllable} {k c : Nat} (o : MAS) (h : w.toNat % 2 ^ 31 = k * 2 ^ 28 + c * 2 ^ 20 + (payMAS o)) :
    parseMAS w (extMAS o) = .ok o := by
  simp only [payMAS] at h
  have f_z : field w 10 10 = o.z := fld h (by decide) (by omega)
  have f_ga : field w 6 4 = o.ga := fld h (by decide) (by omega)
  have f_gb : field w 2 4 = o.gb := fld h (by decide) (by omega)
  have f_p : field w 0 2 = o.p := fld h (by decide) (by omega)
  have he : (BitVec.ofNat 28 (o.md.toNat * 2 ^ 0 + o.mc.toNat * 2 ^ 20) : BitVec 28).toNat = o.md.toNat * 2 ^ 0 + o.mc.toNat * 2 ^ 20 := by simp; omega
  have e_md : field (BitVec.ofNat 28 (o.md.toNat * 2 ^ 0 + o.mc.toNat * 2 ^ 20) : BitVec 28) 0 20 = o.md := efld he (by omega)
  have e_mc : field (BitVec.ofNat 28 (o.md.toNat * 2 ^ 0 + o.mc.toNat * 2 ^ 20) : BitVec 28) 20 3 = o.mc := efld he (by omega)
  have ez_23 : zeroAt (BitVec.ofNat 28 (o.md.toNat * 2 ^ 0 + o.mc.toNat * 2 ^ 20) : BitVec 28) 23 5 = true := ezfld he (by omega)
  simp only [parseMAS, extMAS, f_z, f_ga, f_gb, f_p, e_md, e_mc, ez_23, if_true]

theorem payMZ_lt (o : MZ) : payMZ o < 2 ^ 20 := by
  simp only [payMZ]; omega

theorem parseMZ_pay {w : Syllable} {k c : Nat} (o : MZ) (h : w.toNat % 2 ^ 31 = k * 2 ^ 28 + c * 2 ^ 20 + (payMZ o)) :
    parseMZ w (extMZ o) = .ok o := by
  simp only [payMZ] at h
  have f_z : field w 10 10 = o.z := fld h (by decide) (by omega)
  have z_0 : zeroAt w 0 10 = true := zfld h (by decide) (by omega)
  simp [parseMZ, extMZ, f_z, z_0]

theorem payMLD_lt (o : MLD) : payMLD o < 2 ^ 20 := by
  simp only [payMLD]; omega

theorem parseMLD_pay {w : Syllable} {k c : Nat} (o : MLD) (h : w.toNat % 2 ^ 31 = k * 2 ^ 28 + c * 2 ^ 20 + (payMLD o)) :
    parseMLD w (extMLD o) = .ok o := by
  simp only [payMLD] at h
  have f_z : field w 10 10 = o.z := fld h (by decide) (by omega)
  have f_g : field w 6 4 = o.g := fld h (by decide) (by omega)
  have z_0 : zeroAt w 0 6 = true := zfld h (by decide) (by omega)
  simp [parseMLD, extMLD, f_z, f_g, z_0]

theorem payMT_lt (o : MT) : payMT o < 2 ^ 20 := by
  simp only [payMT]; omega

theorem parseMT_pay {w : Syllable} {k c : Nat} (o : MT) (h : w.toNat % 2 ^ 31 = k * 2 ^ 28 + c * 2 ^ 20 + (payMT o)) :
    parseMT w (extMT o) = .ok o := by
  simp only [payMT] at h
  have f_z : field w 10 10 = o.z := fld h (by decide) (by omega)
  have f_y : field w 0 10 = o.y := fld h (by decide) (by omega)
  simp [parseMT, extMT, f_z, f_y]

theorem payMG_lt (o : MG) : payMG o < 2 ^ 20 := by
  simp only [payMG]; omega

theorem parseMG_pay {w : Syllable} {k c : Nat} (o : MG) (h : w.toNat % 2 ^ 31 = k * 2 ^ 28 + c * 2 ^ 20 + (payMG o)) :
    parseMG w (extMG o) = .ok o := by
  simp only [payMG] at h
  have f_z : field w 10 10 = o.z := fld h (by decide) (by omega)
  have f_g : field w 6 4 = o.g := fld h (by decide) (by omega)
  have f_p : field w 0 2 = o.p := fld h (by decide) (by omega)
  have z_2 : zeroAt w 2 4 = true := zfld h (by decide) (by omega)
  simp [parseMG, extMG, f_z, f_g, f_p, z_2]

theorem payMGX_lt (o : MGX) : payMGX o < 2 ^ 20 := by
  simp only [payMGX]; omega

theorem parseMGX_pay {w : Syllable} {k c : Nat} (o : MGX) (h : w.toNat % 2 ^ 31 = k * 2 ^ 28 + c * 2 ^ 20 + (payMGX o)) :
    parseMGX w (extMGX o) = .ok o := by
  simp only [payMGX] at h
  have f_z : field w 10 10 = o.z := fld h (by decide) (by omega)
  have f_g : field w 6 4 = o.g := fld h (by decide) (by omega)
  have f_p : field w 0 2 = o.p := fld h (by decide) (by omega)
  have z_2 : zeroAt w 2 4 = true := zfld h (by decide) (by omega)
  have he : (BitVec.ofNat 28 (o.pa.toNat * 2 ^ 0) : BitVec 28).toNat = o.pa.toNat * 2 ^ 0 := by simp; omega
  have e_pa : field (BitVec.ofNat 28 (o.pa.toNat * 2 ^ 0) : BitVec 28) 0 20 = o.pa := efld he (by omega)
  have ez_20 : zeroAt (BitVec.ofNat 28 (o.pa.toNat * 2 ^ 0) : BitVec 28) 20 8 = true := ezfld he (by omega)
  simp only [parseMGX, extMGX, f_z, f_g, f_p, z_2, e_pa, ez_20, Bool.and_self, if_true]

theorem payMD_lt (o : MD) : payMD o < 2 ^ 20 := by
  simp only [payMD]; omega

theorem parseMD_pay {w : Syllable} {k c : Nat} (o : MD) (h : w.toNat % 2 ^ 31 = k * 2 ^ 28 + c * 2 ^ 20 + (payMD o)) :
    parseMD w (extMD o) = .ok o := by
  simp only [payMD] at h
  have f_g : field w 16 4 = o.g := fld h (by decide) (by omega)
  have f_f : field w 15 1 = o.f := fld h (by decide) (by omega)
  have f_c : field w 11 4 = o.c := fld h (by decide) (by omega)
  have z_0 : zeroAt w 0 11 = true := zfld h (by decide) (by omega)
  simp [parseMD, extMD, f_g, f_f, f_c, z_0]

theorem payMK_lt (o : MK) : payMK o < 2 ^ 20 := by
  simp only [payMK]; omega

theorem parseMK_pay {w : Syllable} {k c : Nat} (o : MK) (h : w.toNat % 2 ^ 31 = k * 2 ^ 28 + c * 2 ^ 20 + (payMK o)) :
    parseMK w (extMK o) = .ok o := by
  simp only [payMK] at h
  have f_k : field w 16 4 = o.k := fld h (by decide) (by omega)
  have z_0 : zeroAt w 0 16 = true := zfld h (by decide) (by omega)
  simp [parseMK, extMK, f_k, z_0]

theorem payCX_lt (o : CX) : payCX o < 2 ^ 20 := by
  simp only [payCX]; omega

theorem parseCX_pay {w : Syllable} {k c : Nat} (o : CX) (h : w.toNat % 2 ^ 31 = k * 2 ^ 28 + c * 2 ^ 20 + (payCX o)) :
    parseCX o.v w (extCX o) = .ok o := by
  simp only [payCX] at h
  have f_d : field w 14 6 = o.d := fld h (by decide) (by omega)
  have f_a : field w 8 6 = o.a := fld h (by decide) (by omega)
  have f_l : field w 2 6 = o.l := fld h (by decide) (by omega)
  have z_0 : zeroAt w 0 2 = true := zfld h (by decide) (by omega)
  simp [parseCX, extCX, f_d, f_a, f_l, z_0]

theorem payCX0_lt (o : CX0) : payCX0 o < 2 ^ 20 := by
  simp only [payCX0]; omega

theorem parseCX0_pay {w : Syllable} {k c : Nat} (o : CX0) (h : w.toNat % 2 ^ 31 = k * 2 ^ 28 + c * 2 ^ 20 + (payCX0 o)) :
    parseCX0 o.v w (extCX0 o) = .ok o := by
  simp only [payCX0] at h
  have f_d : field w 14 6 = o.d := fld h (by decide) (by omega)
  have f_a : field w 8 6 = o.a := fld h (by decide) (by omega)
  have z_0 : zeroAt w 0 8 = true := zfld h (by decide) (by omega)
  simp [parseCX0, extCX0, f_d, f_a, z_0]

theorem payCZ_lt (o : CZ) : payCZ o < 2 ^ 20 := by
  simp only [payCZ]; omega

theorem parseCZ_pay {w : Syllable} {k c : Nat} (o : CZ) (h : w.toNat % 2 ^ 31 = k * 2 ^ 28 + c * 2 ^ 20 + (payCZ o)) :
    parseCZ o.v w (extCZ o) = .ok o := by
  simp only [payCZ] at h
  have f_r : field w 15 5 = o.r := fld h (by decide) (by omega)
  have f_z : field w 5 10 = o.z := fld h (by decide) (by omega)
  have f_h : field w 0 5 = o.h := fld h (by decide) (by omega)
  simp [parseCZ, extCZ, f_r, f_z, f_h]

theorem payCXK_lt (o : CXK) : payCXK o < 2 ^ 20 := by
  simp only [payCXK]; omega

theorem parseCXK_pay {w : Syllable} {k c : Nat} (o : CXK) (h : w.toNat % 2 ^ 31 = k * 2 ^ 28 + c * 2 ^ 20 + (payCXK o)) :
    parseCXK o.v w (extCXK o) = .ok o := by
  simp only [payCXK] at h
  have f_d : field w 14 6 = o.d := fld h (by decide) (by omega)
  have f_l : field w 2 6 = o.l := fld h (by decide) (by omega)
  have z_0 : zeroAt w 0 2 = true := zfld h (by decide) (by omega)
  have z_8 : zeroAt w 8 6 = true := zfld h (by decide) (by omega)
  simp [parseCXK, extCXK, f_d, f_l, z_0, z_8]

theorem payCA_lt (o : CA) : payCA o < 2 ^ 20 := by
  simp only [payCA]; omega

theorem parseCA_pay {w : Syllable} {k c : Nat} (o : CA) (h : w.toNat % 2 ^ 31 = k * 2 ^ 28 + c * 2 ^ 20 + (payCA o)) :
    parseCA o.v w (extCA o) = .ok o := by
  simp only [payCA] at h
  have f_d : field w 16 4 = o.d := fld h (by decide) (by omega)
  have f_a : field w 12 4 = o.a := fld h (by decide) (by omega)
  have f_i : field w 0 12 = o.i := fld h (by decide) (by omega)
  simp [parseCA, extCA, f_d, f_a, f_i]

theorem payCM_lt (o : CM) : payCM o < 2 ^ 20 := by
  simp only [payCM]; omega

theorem parseCM_pay {w : Syllable} {k c : Nat} (o : CM) (h : w.toNat % 2 ^ 31 = k * 2 ^ 28 + c * 2 ^ 20 + (payCM o)) :
    parseCM o.v w (extCM o) = .ok o := by
  simp only [payCM] at h
  have f_d : field w 16 4 = o.d := fld h (by decide) (by omega)
  have f_i : field w 0 16 = o.i := fld h (by decide) (by omega)
  simp [parseCM, extCM, f_d, f_i]

theorem payCE_lt (o : CE) : payCE o < 2 ^ 20 := by
  simp only [payCE]; omega

theorem parseCE_pay {w : Syllable} {k c : Nat} (o : CE) (h : w.toNat % 2 ^ 31 = k * 2 ^ 28 + c * 2 ^ 20 + (payCE o)) :
    parseCE o.v w (extCE o) = .ok o := by
  simp only [payCE] at h
  have f_d : field w 16 4 = o.d := fld h (by decide) (by omega)
  have f_a : field w 12 4 = o.a := fld h (by decide) (by omega)
  have f_b : field w 8 4 = o.b := fld h (by decide) (by omega)
  have f_sh : field w 6 2 = o.sh := fld h (by decide) (by omega)
  have z_0 : zeroAt w 0 6 = true := zfld h (by decide) (by omega)
  simp [parseCE, extCE, f_d, f_a, f_b, f_sh, z_0]

theorem payCT2_lt (o : CT2) : payCT2 o < 2 ^ 20 := by
  simp only [payCT2]; omega

theorem parseCT2_pay {w : Syllable} {k c : Nat} (o : CT2) (h : w.toNat % 2 ^ 31 = k * 2 ^ 28 + c * 2 ^ 20 + (payCT2 o)) :
    parseCT2 o.v w (extCT2 o) = .ok o := by
  simp only [payCT2] at h
  have f_r : field w 16 4 = o.r := fld h (by decide) (by omega)
  have f_a : field w 12 4 = o.a := fld h (by decide) (by omega)
  have z_0 : zeroAt w 0 12 = true := zfld h (by decide) (by omega)
  simp [parseCT2, extCT2, f_r, f_a, z_0]

theorem payCTI_lt (o : CTI) : payCTI o < 2 ^ 20 := by
  simp only [payCTI]; omega

theorem parseCTI_pay {w : Syllable} {k c : Nat} (o : CTI) (h : w.toNat % 2 ^ 31 = k * 2 ^ 28 + c * 2 ^ 20 + (payCTI o)) :
    parseCTI o.v w (extCTI o) = .ok o := by
  simp only [payCTI] at h
  have f_a : field w 12 4 = o.a := fld h (by decide) (by omega)
  have f_b : field w 8 4 = o.b := fld h (by decide) (by omega)
  have z_0 : zeroAt w 0 8 = true := zfld h (by decide) (by omega)
  have z_16 : zeroAt w 16 4 = true := zfld h (by decide) (by omega)
  simp [parseCTI, extCTI, f_a, f_b, z_0, z_16]

theorem payCTD_lt (o : CTD) : payCTD o < 2 ^ 20 := by
  simp only [payCTD]; omega

theorem parseCTD_pay {w : Syllable} {k c : Nat} (o : CTD) (h : w.toNat % 2 ^ 31 = k * 2 ^ 28 + c * 2 ^ 20 + (payCTD o)) :
    parseCTD o.v w (extCTD o) = .ok o := by
  simp only [payCTD] at h
  have f_a : field w 12 4 = o.a := fld h (by decide) (by omega)
  have z_0 : zeroAt w 0 12 = true := zfld h (by decide) (by omega)
  have z_16 : zeroAt w 16 4 = true := zfld h (by decide) (by omega)
  simp [parseCTD, extCTD, f_a, z_0, z_16]

theorem payCTB_lt (o : CTB) : payCTB o < 2 ^ 20 := by
  simp only [payCTB]; omega

theorem parseCTB_pay_0 {w : Syllable} {k c : Nat} (o : CTB) (h : w.toNat % 2 ^ 31 = k * 2 ^ 28 + c * 2 ^ 20 + (payCTB o)) :
    parseCTB o.v 0x0 w (extCTB o) = .ok o := by
  simp only [payCTB] at h
  have f_r : field w 16 4 = o.r := fld h (by decide) (by omega)
  have f_b : field w 8 4 = o.b := fld h (by decide) (by omega)
  have x_0 : field w 0 8 = BitVec.ofNat 8 (0x0 / 2 ^ 0) := fld h (by decide) (by simp; omega)
  have x_12 : field w 12 4 = BitVec.ofNat 4 (0x0 / 2 ^ 12) := fld h (by decide) (by simp; omega)
  simp [parseCTB, extCTB, f_r, f_b, x_0, x_12]

theorem payCTB_lt_80 (o : CTB) : payCTB o + 0x80 < 2 ^ 20 := by
  simp only [payCTB]; omega

theorem parseCTB_pay_80 {w : Syllable} {k c : Nat} (o : CTB) (h : w.toNat % 2 ^ 31 = k * 2 ^ 28 + c * 2 ^ 20 + (payCTB o + 0x80)) :
    parseCTB o.v 0x80 w (extCTB o) = .ok o := by
  simp only [payCTB] at h
  have f_r : field w 16 4 = o.r := fld h (by decide) (by omega)
  have f_b : field w 8 4 = o.b := fld h (by decide) (by omega)
  have x_0 : field w 0 8 = BitVec.ofNat 8 (0x80 / 2 ^ 0) := fld h (by decide) (by simp; omega)
  have x_12 : field w 12 4 = BitVec.ofNat 4 (0x80 / 2 ^ 12) := fld h (by decide) (by simp; omega)
  simp [parseCTB, extCTB, f_r, f_b, x_0, x_12]

theorem payCN_lt (o : CN) : payCN o < 2 ^ 20 := by
  simp [payCN]

theorem parseCN_pay {w : Syllable} {k c : Nat} (o : CN) (h : w.toNat % 2 ^ 31 = k * 2 ^ 28 + c * 2 ^ 20 + (payCN o)) :
    parseCN o.v w (extCN o) = .ok o := by
  simp only [payCN] at h
  have z_0 : zeroAt w 0 20 = true := zfld h (by decide) (by omega)
  simp [parseCN, extCN, z_0]

theorem payCQ_lt (o : CQ) : payCQ o < 2 ^ 20 := by
  simp only [payCQ]; omega

theorem parseCQ_pay {w : Syllable} {k c : Nat} (o : CQ) (h : w.toNat % 2 ^ 31 = k * 2 ^ 28 + c * 2 ^ 20 + (payCQ o)) :
    parseCQ o.v w (extCQ o) = .ok o := by
  simp only [payCQ] at h
  have f_r : field w 16 4 = o.r := fld h (by decide) (by omega)
  have f_nj : field w 15 1 = o.nj := fld h (by decide) (by omega)
  have f_ev : field w 14 1 = o.ev := fld h (by decide) (by omega)
  have z_0 : zeroAt w 0 14 = true := zfld h (by decide) (by omega)
  cases o with | mk v r nj ev m =>
  cases m with
  | none => simp_all [parseCQ, extCQ]
  | some y =>
    have he : (BitVec.ofNat 28 (y.toNat * 2 ^ 0) : BitVec 28).toNat = y.toNat := by simp; omega
    have e_y : field (BitVec.ofNat 28 (y.toNat * 2 ^ 0) : BitVec 28) 0 16 = y := efld he (by omega)
    have ez_16 : zeroAt (BitVec.ofNat 28 (y.toNat * 2 ^ 0) : BitVec 28) 16 12 = true := ezfld he (by omega)
    simp only [parseCQ, extCQ, Option.map_some, f_r, f_nj, f_ev, z_0, e_y, ez_16, Bool.and_self, if_true]

theorem payCWA_lt (o : CWA) : payCWA o < 2 ^ 20 := by
  simp only [payCWA]; omega

theorem parseCWA_pay {w : Syllable} {k c : Nat} (o : CWA) (h : w.toNat % 2 ^ 31 = k * 2 ^ 28 + c * 2 ^ 20 + (payCWA o)) :
    parseCWA o.v w (extCWA o) = .ok o := by
  simp only [payCWA] at h
  have f_r : field w 16 4 = o.r := fld h (by decide) (by omega)
  have f_q : field w 14 2 = o.q := fld h (by decide) (by omega)
  have z_0 : zeroAt w 0 14 = true := zfld h (by decide) (by omega)
  simp [parseCWA, extCWA, f_r, f_q, z_0]

theorem payCWF_lt (o : CWF) : payCWF o < 2 ^ 20 := by
  simp only [payCWF]; omega

theorem parseCWF_pay {w : Syllable} {k c : Nat} (o : CWF) (h : w.toNat % 2 ^ 31 = k * 2 ^ 28 + c * 2 ^ 20 + (payCWF o)) :
    parseCWF o.v w (extCWF o) = .ok o := by
  simp only [payCWF] at h
  have f_qm : field w 10 4 = o.qm := fld h (by decide) (by omega)
  have z_0 : zeroAt w 0 10 = true := zfld h (by decide) (by omega)
  have z_14 : zeroAt w 14 6 = true := zfld h (by decide) (by omega)
  simp [parseCWF, extCWF, f_qm, z_0, z_14]

theorem payCW_lt (o : CW) : payCW o < 2 ^ 20 := by
  simp only [payCW]; omega

theorem parseCW_pay {w : Syllable} {k c : Nat} (o : CW) (h : w.toNat % 2 ^ 31 = k * 2 ^ 28 + c * 2 ^ 20 + (payCW o)) :
    parseCW o.v w (extCW o) = .ok o := by
  simp only [payCW] at h
  have f_r : field w 16 4 = o.r := fld h (by decide) (by omega)
  have f_q : field w 14 2 = o.q := fld h (by decide) (by omega)
  have z_0 : zeroAt w 0 14 = true := zfld h (by decide) (by omega)
  simp [parseCW, extCW, f_r, f_q, z_0]

end Sys2Proof.Laws.Encode
end

