-- ==== Sys2Proof/Laws/Meaning.lean ====
section
/-!
SUPPORT. What the shared operations of the meanings can do: sequencing, reading and writing registers, faults, and the outcome of a meaning.
-/
namespace Sys2Proof.Machine

/-! Sequencing -/

/-- What a meaning answers in a state. -/
abbrev M.at {α : Type} (m : M α) (s : State) : Except Stop (α × State) := m s

theorem bind_ok {α β : Type} {m : M α} {f : α → M β} {s t : State} {a : α} (h : m s = .ok (a, t)) : (m >>= f) s = f a t := by
  show (do let x ← m s; f x.1 x.2 : Except Stop (β × State)) = _
  rw [h]; rfl

theorem bind_error {α β : Type} {m : M α} {f : α → M β} {s : State} {e : Stop} (h : m s = .error e) : (m >>= f) s = .error e := by
  show (do let x ← m s; f x.1 x.2 : Except Stop (β × State)) = _
  rw [h]; rfl

/-- A sequence that answers ran both parts. -/
theorem bind_cases {α β : Type} {m : M α} {f : α → M β} {s t : State} {b : β} (h : (m >>= f) s = .ok (b, t)) :
    ∃ a u, m s = .ok (a, u) ∧ f a u = .ok (b, t) := by
  cases e : m s with
  | error x => rw [bind_error e] at h; cases h
  | ok p => exact ⟨p.1, p.2, rfl, by rw [← bind_ok (f := f) e]; exact h⟩

theorem pure_at {α : Type} (a : α) (s : State) : (pure a : M α) s = .ok (a, s) := rfl
theorem get_at (s : State) : (get : M State) s = .ok (s, s) := rfl
theorem set_at (s t : State) : (set t : M Unit) s = .ok ((), t) := rfl
theorem modify_at (g : State → State) (s : State) : (modify g : M Unit) s = .ok ((), g s) := rfl
theorem throw_at {α : Type} (e : Stop) (s : State) : (throw e : M α) s = .error e := rfl
theorem core_at (s : State) : core s = .ok (s.core, s) := rfl
theorem setCore_at (g : Core → Core) (s : State) : setCore g s = .ok ((), { s with core := g s.core }) := rfl
theorem later_at (e : Effect) (s : State) : later e s = .ok ((), { s with core := { s.core with defer := s.core.defer ++ [e] } }) := rfl
theorem stall_at {α : Type} (s : State) : (stall : M α) s = .error (.stall 0) := rfl
theorem freeVal_at (n : Nat) (s : State) :
    freeVal n s = .ok (BitVec.ofNat n (Config.freeBits s.fresh).toNat, { s with fresh := s.fresh + 1 }) := rfl
theorem chooseOf_at (n : Nat) (s : State) : chooseOf n s = .ok (Config.choice s.fresh % n, { s with fresh := s.fresh + 1 }) := rfl

/-- What binds the named state operations one after the other. -/
theorem get_bind {β : Type} (f : State → M β) (s : State) : ((get : M State) >>= f) s = f s s := rfl
theorem core_bind {β : Type} (f : Core → M β) (s : State) : (core >>= f) s = f s.core s := rfl
theorem pure_bind_at {α β : Type} (a : α) (f : α → M β) (s : State) : ((pure a : M α) >>= f) s = f a s := rfl
theorem set_bind {β : Type} (t : State) (f : Unit → M β) (s : State) : ((set t : M Unit) >>= f) s = f () t := rfl
theorem modify_bind {β : Type} (g : State → State) (f : Unit → M β) (s : State) : ((modify g : M Unit) >>= f) s = f () (g s) := rfl
theorem setCore_bind {β : Type} (g : Core → Core) (f : Unit → M β) (s : State) : (setCore g >>= f) s = f () { s with core := g s.core } := rfl

/-! The outcome of a meaning -/

theorem finish_ok {m : M Unit} {s t : State} (p : s.powered = true) (h : m s.begun = .ok ((), t)) : finish m s = .next t := by
  have e : m.run s.begun = .ok ((), t) := h
  unfold finish
  rw [if_pos p, e]

theorem finish_fault {m : M Unit} {s : State} {f : FaultInfo} (p : s.powered = true) (h : m s.begun = .error (.fault f)) :
    finish m s = .next { s.raise f with core := { (s.raise f).core with mark := .trapped f } } := by
  have e : m.run s.begun = .error (.fault f) := h
  unfold finish
  rw [if_pos p, e]

theorem finish_unpowered {m : M Unit} {s : State} (p : s.powered = false) : finish m s = .fault .poweredOff := by
  simp [finish, p]

/-- A powered meaning always answers a next state: it completed, took a fault or is held. -/
theorem finish_next (m : M Unit) {s : State} (p : s.powered = true) : ∃ t, finish m s = .next t := by
  unfold finish
  rw [if_pos p]
  split <;> exact ⟨_, rfl⟩

/-! Registers -/

theorem readReg_ready {f : File} {n : Nat} {s : State} (h : s.core.ready (f, n) = true) : readReg f n s = .ok (s.core.reg (f, n), s) := by
  simp only [Core.ready, Bool.and_eq_true, Bool.not_eq_true'] at h
  simp only [readReg, core_bind, h.1, h.2]
  rfl

theorem readReg_pending {f : File} {n : Nat} {s : State} (h : s.core.pending (s.core.phys f n) = true) : readReg f n s = .error (.stall 0) := by
  simp only [readReg, core_bind, h, if_true]
  rfl

/-- Before a bound the register's value is free (R120). -/
theorem readReg_early {f : File} {n : Nat} {s : State} (h : s.core.pending (s.core.phys f n) = false) (e : s.core.inFlight (s.core.phys f n) = true) :
    readReg f n s = .ok (s.core.early f (s.core.phys f n) (BitVec.ofNat 2048 (Config.freeBits s.fresh).toNat), { s with fresh := s.fresh + 1 }) := by
  simp only [readReg, core_bind, h, e, if_true]
  rfl

theorem writeReg_free {f : File} {n v lat : Nat} {srcs : List RegCell} {s : State} (h : s.core.free (f, n) = true) :
    writeReg f n v srcs lat s =
      .ok ((), { s with core := { s.core with defer := s.core.defer ++ [.reg (s.core.phys f n) (result v srcs) lat] } }) := by
  simp only [Core.free, Bool.not_eq_true'] at h
  simp only [writeReg, writeCell, core_bind, h]
  rfl

theorem writeReg_pending {f : File} {n v lat : Nat} {srcs : List RegCell} {s : State} (h : s.core.pending (s.core.phys f n) = true) :
    writeReg f n v srcs lat s = .error (.stall 0) := by
  simp only [writeReg, writeCell, core_bind, h, if_true]
  rfl

theorem target_free {f : File} {n : Nat} {s : State} (h : s.core.free (f, n) = true) : target f n s = .ok (s.core.phys f n, s) := by
  simp only [Core.free, Bool.not_eq_true'] at h
  simp only [target, core_bind, h]
  rfl

theorem check_true (s : State) : check true s = .ok ((), s) := rfl
theorem check_of {b : Bool} (h : b = true) (s : State) : check b s = .ok ((), s) := by rw [h]; rfl
theorem check_false {b : Bool} (h : b = false) (s : State) : check b s = .error (.fault (s.core.syllableFault 0x02)) := by rw [h]; rfl
theorem needS_s {s : State} (h : s.core.level = .s) : needS s = .ok ((), s) := by
  simp only [needS, core_bind, h, if_true]; rfl
theorem needS_u {s : State} (h : s.core.level = .u) : needS s = .error (.fault (s.core.syllableFault 0x04)) := by
  simp only [needS, core_bind, h]; rfl

/-! The starting state reads as the state it comes from. -/

@[simp] theorem begun_phys (s : State) (f : File) (n : Nat) : s.begun.core.phys f n = s.core.phys f n := rfl
@[simp] theorem begun_pending (s : State) (k : Nat) : s.begun.core.pending k = s.core.pending k := rfl
@[simp] theorem begun_inFlight (s : State) (k : Nat) : s.begun.core.inFlight k = s.core.inFlight k := rfl
@[simp] theorem begun_reg (s : State) (r : Reg) : s.begun.core.reg r = s.core.reg r := rfl
theorem begun_ready {s : State} {r : Reg} (h : s.core.ready r = true) : s.begun.core.ready r = true := h
theorem begun_free {s : State} {r : Reg} (h : s.core.free r = true) : s.begun.core.free r = true := h
theorem begun_leaves (s : State) (es : List Effect) : s.begun.leaves es = s.leaves es := rfl

/-- The outcome of a form that reads ready registers and writes one. -/
theorem finish_write {m : M Unit} {s : State} {f : File} {n v lat : Nat} {srcs : List RegCell} (p : s.powered = true)
    (h : m s.begun = writeReg f n v srcs lat s.begun) (w : s.core.free (f, n) = true) :
    finish m s = .next (s.leaves [.reg (s.core.phys f n) (result v srcs) lat]) :=
  finish_ok p (h.trans (writeReg_free (begun_free w)))

end Sys2Proof.Machine
end

