-- ==== Sys2Proof/Laws/Memory.lean ====
section
/-!
SUPPORT. Sparse stores: reading after a write, and that every memory operation keeps the canonical form.
-/
namespace Sys2Proof

/-! Sparse maps -/

theorem SMap.get_put {α : Type} (d : α) (m : SMap α) (k j : Nat) (v : α) :
    SMap.get d (SMap.put m k v) j = if k = j then v else SMap.get d m j := by
  induction m with
  | nil => rfl
  | cons c r ih =>
    simp only [SMap.put]
    split
    · simp only [SMap.get]
    · split
      · rename_i _ h
        subst h
        simp only [SMap.get]
        split <;> rfl
      · simp only [SMap.get, ih]
        split
        · rename_i h1 h2 h3
          rw [if_neg (by omega)]
        · rfl

theorem SMap.get_drop {α : Type} (d : α) (m : SMap α) (k j : Nat) :
    SMap.get d (SMap.drop m k) j = if k = j then d else SMap.get d m j := by
  induction m with
  | nil => simp [SMap.drop, SMap.get]
  | cons c r ih =>
    simp only [SMap.drop, List.filter_cons] at ih ⊢
    by_cases h : c.1 = k
    · subst h
      simp only [bne_self_eq_false, Bool.false_eq_true, if_false, ih, SMap.get]
      split <;> rfl
    · rw [if_pos (by simpa using h)]
      simp only [SMap.get, ih]
      split
      · rw [if_neg (by omega)]
      · rfl

/-- A key reads what was last written to it, and a write leaves every other key alone. -/
theorem SMap.get_set {α : Type} [DecidableEq α] (d : α) (m : SMap α) (k j : Nat) (v : α) :
    SMap.get d (SMap.set d m k v) j = if k = j then v else SMap.get d m j := by
  unfold SMap.set
  split
  · rename_i h
    rw [SMap.get_drop, h]
  · exact SMap.get_put d m k j v

theorem SMap.wfFrom_le {α : Type} [DecidableEq α] {d : α} {m : SMap α} {a b : Nat} (h : a ≤ b) (w : SMap.wfFrom d b m = true) :
    SMap.wfFrom d a m = true := by
  cases m with
  | nil => rfl
  | cons c r =>
    simp only [SMap.wfFrom, Bool.and_eq_true, decide_eq_true_eq] at w ⊢
    exact ⟨⟨by omega, w.1.2⟩, w.2⟩

theorem SMap.wfFrom_filter {α : Type} [DecidableEq α] {d : α} (p : Nat × α → Bool) {m : SMap α} {lo : Nat} (w : SMap.wfFrom d lo m = true) :
    SMap.wfFrom d lo (List.filter p m) = true := by
  induction m generalizing lo with
  | nil => rfl
  | cons c r ih =>
    simp only [SMap.wfFrom, Bool.and_eq_true, decide_eq_true_eq] at w
    simp only [List.filter_cons]
    split
    · simp only [SMap.wfFrom, Bool.and_eq_true, decide_eq_true_eq]
      exact ⟨w.1, ih w.2⟩
    · exact SMap.wfFrom_le (by omega) (ih w.2)

theorem SMap.wfFrom_put {α : Type} [DecidableEq α] {d v : α} (n : v ≠ d) {m : SMap α} {lo k : Nat} (h : lo ≤ k) (w : SMap.wfFrom d lo m = true) :
    SMap.wfFrom d lo (SMap.put m k v) = true := by
  induction m generalizing lo with
  | nil => simp [SMap.put, SMap.wfFrom, h, n]
  | cons c r ih =>
    simp only [SMap.wfFrom, Bool.and_eq_true, decide_eq_true_eq] at w
    simp only [SMap.put]
    split
    · simp only [SMap.wfFrom, Bool.and_eq_true, decide_eq_true_eq]
      exact ⟨⟨h, n⟩, ⟨by omega, w.1.2⟩, w.2⟩
    · split
      · simp only [SMap.wfFrom, Bool.and_eq_true, decide_eq_true_eq]
        rename_i e
        exact ⟨⟨h, n⟩, e ▸ w.2⟩
      · simp only [SMap.wfFrom, Bool.and_eq_true, decide_eq_true_eq]
        exact ⟨w.1, ih (by omega) w.2⟩

theorem SMap.wf_filter {α : Type} [DecidableEq α] {d : α} (p : Nat × α → Bool) {m : SMap α} (w : SMap.wf d m = true) :
    SMap.wf d (List.filter p m) = true := SMap.wfFrom_filter p w

theorem SMap.wf_set {α : Type} [DecidableEq α] {d : α} {m : SMap α} (k : Nat) (v : α) (w : SMap.wf d m = true) :
    SMap.wf d (SMap.set d m k v) = true := by
  unfold SMap.set
  split
  · exact SMap.wf_filter _ w
  · rename_i n
    exact SMap.wfFrom_put n (Nat.zero_le k) w

/-- Canonical stores that read alike are the same store. -/
theorem SMap.get_below {α : Type} [DecidableEq α] {d : α} {m : SMap α} {lo k : Nat} (w : SMap.wfFrom d lo m = true) (h : k < lo) : SMap.get d m k = d := by
  induction m generalizing lo with
  | nil => rfl
  | cons c r ih =>
    simp only [SMap.wfFrom, Bool.and_eq_true, decide_eq_true_eq] at w
    simp only [SMap.get]
    rw [if_neg (by omega)]
    exact ih w.2 (by omega)

namespace Machine

/-! The stores of the device -/

theorem larderPut_wf {m : SMap (Option Byte)} (pa : Nat) (bs : List Byte) (w : SMap.wf none m = true) : SMap.wf none (larderPut m pa bs) = true := by
  induction bs generalizing m pa with
  | nil => exact w
  | cons b r ih => exact ih (pa + 1) (SMap.wf_set pa (some b) w)

theorem memPut_wf {m : SMap Byte} (a : Nat) (bs : List Byte) (w : SMap.wf 0 m = true) : SMap.wf 0 (memPut m a bs) = true := by
  induction bs generalizing m a with
  | nil => exact w
  | cons b r ih => exact ih (a + 1) (SMap.wf_set a b w)

/-- A change of a state that keeps its stores canonical. -/
abbrev Keeps (g : State → State) : Prop := ∀ s, s.storesOk → (g s).storesOk

theorem storesOk_of {s t : State} (h : s.storesOk) (m : t.mem = s.mem) (p : t.pantry = s.pantry) (l : t.larder = s.larder) : t.storesOk := by
  unfold State.storesOk at *
  rw [m, p, l]
  exact h

theorem foldl_keeps {α : Type} (f : State → α → State) (h : ∀ a, Keeps (fun s => f s a)) (l : List α) : Keeps (fun s => l.foldl f s) := by
  intro s ok
  induction l generalizing s with
  | nil => exact ok
  | cons a r ih => exact ih (f s a) (h a s ok)

theorem larder_keeps (m : SMap (Option Byte) → SMap (Option Byte)) (h : ∀ x, SMap.wf none x = true → SMap.wf none (m x) = true) :
    Keeps (fun s => { s with larder := m s.larder }) := fun s ok => ⟨ok.1, ok.2.1, h s.larder ok.2.2⟩

theorem modCore_stores (s : State) (n : Nat) (f : Core → Core) :
    (s.modCore n f).mem = s.mem ∧ (s.modCore n f).pantry = s.pantry ∧ (s.modCore n f).larder = s.larder := by
  unfold State.modCore
  split <;> exact ⟨rfl, rfl, rfl⟩

theorem modCore_keeps (n : Nat) (f : Core → Core) : Keeps (fun s => s.modCore n f) := fun s ok =>
  storesOk_of ok (modCore_stores s n f).1 (modCore_stores s n f).2.1 (modCore_stores s n f).2.2

theorem focusOn_stores (s : State) (n : Nat) : (s.focusOn n).mem = s.mem ∧ (s.focusOn n).pantry = s.pantry ∧ (s.focusOn n).larder = s.larder := by
  unfold State.focusOn
  split <;> exact ⟨rfl, rfl, rfl⟩

theorem focusOn_keeps (n : Nat) : Keeps (fun s => s.focusOn n) := fun s ok =>
  storesOk_of ok (focusOn_stores s n).1 (focusOn_stores s n).2.1 (focusOn_stores s n).2.2

theorem hitWatch_keeps (line : Nat) : Keeps (fun s => s.hitWatch line) := by
  intro s ok
  refine foldl_keeps _ (fun c t h => ?_) s.cores s ok
  simp only
  split
  · exact modCore_keeps _ _ t h
  · exact h

theorem writeBack_keeps (line : Nat) : Keeps (fun s => s.writeBack line) := by
  intro s ok
  refine ⟨?_, ok.2.1, SMap.wf_filter _ ok.2.2⟩
  have h : ∀ (l : List (Nat × Option Byte)) (m : SMap Byte), SMap.wf 0 m = true →
      SMap.wf 0 (l.foldl (fun m p => match p.2 with | some b => SMap.set 0 m p.1 b | none => m) m) = true := by
    intro l
    induction l with
    | nil => exact fun m w => w
    | cons p r ih =>
      intro m w
      simp only [List.foldl_cons]
      split
      · exact ih _ (SMap.wf_set _ _ w)
      · exact ih _ w
  exact h _ _ ok.1

/-- Spoiled spills change sessions and free values only. -/
theorem spoilSpills_stores (s : State) (pa n : Nat) :
    (s.spoilSpills pa n).mem = s.mem ∧ (s.spoilSpills pa n).pantry = s.pantry ∧ (s.spoilSpills pa n).larder = s.larder := by
  unfold State.spoilSpills
  split <;> exact ⟨rfl, rfl, rfl⟩

theorem spoilSpills_keeps (pa n : Nat) : Keeps (fun s => s.spoilSpills pa n) := fun s ok =>
  storesOk_of ok (spoilSpills_stores s pa n).1 (spoilSpills_stores s pa n).2.1 (spoilSpills_stores s pa n).2.2

/-- With no record spilled, a write into any address spoils none. -/
@[simp] theorem spoilSpills_of_none {s : State} (h : s.sessions.all (fun x => x.recs.all (fun r => !r.spilled)) = true) (pa n : Nat) :
    s.spoilSpills pa n = s := by
  unfold State.spoilSpills
  rw [if_pos h]

theorem applyDeltas_keeps (u : UpdLine) : Keeps (fun s => s.applyDeltas u) := by
  intro s ok
  simp only [State.applyDeltas]
  generalize u.deltas = l
  induction l generalizing s with
  | nil => exact ok
  | cons p r ih => exact ih _ ⟨ok.1, ok.2.1, larderPut_wf _ _ ok.2.2⟩

theorem mergeOf_keeps (n line : Nat) : Keeps (fun s => s.mergeOf n line) := by
  intro s ok
  simp only [State.mergeOf]
  split
  · exact ok
  · exact hitWatch_keeps line _ (modCore_keeps _ _ _ (applyDeltas_keeps _ _ (spoilSpills_keeps _ _ s ok)))

theorem recall_keeps (line : Nat) : Keeps (fun s => s.recall line) :=
  fun s ok => foldl_keeps (fun s (c : Core) => s.mergeOf c.id line) (fun c => mergeOf_keeps c.id line) s.cores s ok

theorem resolve_keeps (line : Nat) : Keeps (fun s => s.resolve line) := by
  intro s ok
  simp only [State.resolve]
  split
  · exact ok
  · exact ⟨ok.1, ok.2.1, larderPut_wf _ _ ok.2.2⟩

theorem settle_keeps (line : Nat) : Keeps (fun s => s.settle line) := fun s ok => resolve_keeps line _ (recall_keeps line s ok)

theorem larderRead_keeps (pa n : Nat) : Keeps (fun s => (s.larderRead pa n).2) :=
  fun s ok => foldl_keeps State.settle settle_keeps (linesOf pa n) s ok

theorem larderWrite_keeps (pa : Nat) (bs : List Byte) : Keeps (fun s => s.larderWrite pa bs) := by
  intro s ok
  simp only [State.larderWrite]
  split
  · exact ok
  · have h := spoilSpills_keeps pa bs.length _ (foldl_keeps State.settle settle_keeps (linesOf pa bs.length) s ok)
    exact foldl_keeps State.hitWatch hitWatch_keeps _ _ ⟨h.1, h.2.1, larderPut_wf _ _ h.2.2⟩

theorem discardLine_keeps (line : Nat) : Keeps (fun s => s.discardLine line) := fun _ ok => ⟨ok.1, ok.2.1, SMap.wf_filter _ ok.2.2⟩

/-- Making room among a slice's shadows changes no store of bytes. -/
theorem roomOnChip_stores (s : State) (line : Nat) :
    (s.roomOnChip line).mem = s.mem ∧ (s.roomOnChip line).pantry = s.pantry ∧ (s.roomOnChip line).larder = s.larder := by
  simp only [State.roomOnChip]
  split
  · split <;> exact ⟨rfl, rfl, rfl⟩
  · exact ⟨rfl, rfl, rfl⟩

/-- A spilled line's return changes no store of bytes. -/
theorem backOnChip_stores (s : State) (line : Nat) :
    (s.backOnChip line).mem = s.mem ∧ (s.backOnChip line).pantry = s.pantry ∧ (s.backOnChip line).larder = s.larder := by
  simp only [State.backOnChip]
  split
  · exact ⟨rfl, rfl, rfl⟩
  · exact roomOnChip_stores s line

theorem exactAdd_keeps {s t : State} {f pa : Nat} {xs : List Nat} (h : s.exactAdd f pa xs = some t) (ok : s.storesOk) : t.storesOk := by
  have r := spoilSpills_keeps pa (4 * xs.length) _ (recall_keeps (pa / 128) s ok)
  simp only [State.exactAdd] at h
  split at h
  · cases h
  · injection h with h
    subst h
    refine hitWatch_keeps _ _ ?_
    split
    · have e := backOnChip_stores ((s.recall (pa / 128)).spoilSpills pa (4 * xs.length)) (pa / 128)
      exact storesOk_of r e.1 e.2.1 e.2.2
    · have e := roomOnChip_stores ((s.recall (pa / 128)).spoilSpills pa (4 * xs.length)) (pa / 128)
      exact storesOk_of r e.1 e.2.1 e.2.2

theorem pantryPut_keeps (c a : Nat) (bs : List Byte) : Keeps (fun s => s.pantryPut c a bs) := by
  intro s ok
  induction bs generalizing s a with
  | nil => exact ok
  | cons b r ih =>
    simp only [State.pantryPut]
    apply ih
    split
    · exact ok
    · exact ⟨ok.1, SMap.wf_set _ _ ok.2.1, ok.2.2⟩

/-- Bytes put into a pantry change neither memory nor the Larder. -/
theorem pantryPut_frame (s : State) (c a : Nat) (bs : List Byte) :
    (s.pantryPut c a bs).mem = s.mem ∧ (s.pantryPut c a bs).larder = s.larder := by
  induction bs generalizing s a with
  | nil => exact ⟨rfl, rfl⟩
  | cons b r ih =>
    simp only [State.pantryPut]
    split
    · exact ih _ _
    · exact ih _ _

/-- Taking free values changes no store. -/
theorem free_keeps : (∀ n, Keeps (fun s => (s.freeBytes n).2)) ∧ Keeps (fun s => s.freeTileAt.2) := ⟨fun _ _ ok => ok, fun _ ok => ok⟩

theorem spoilBytes_keeps (ws : List (Nat × Nat × Nat)) : Keeps (fun s => s.spoilBytes ws) := by
  intro s ok
  simp only [State.spoilBytes]
  exact foldl_keeps _ (fun b t h => pantryPut_keeps b.1 b.2.1 (t.freeBytes (b.2.2 - b.2.1)).1 _ (free_keeps.1 _ t h)) ws s ok

theorem spoilSteered_keeps (n id : Nat) : Keeps (fun s => s.spoilSteered n id) := by
  intro s ok
  simp only [State.spoilSteered]
  refine foldl_keeps _ (fun x t h => ?_) _ s ok
  exact modCore_keeps _ _ _ (free_keeps.2 t h)

theorem spoilResult_keeps (n : Nat) (t : ReadFor) : Keeps (fun s => s.spoilResult n t) := by
  intro s ok
  have h := spoilBytes_keeps (t.ranges (s.coreAt n)) _ (modCore_keeps n (fun c => { c with reads := c.reads.filter (fun r => r.target != t) }) s ok)
  simp only [State.spoilResult]
  split
  · exact modCore_keeps _ _ _ (free_keeps.2 _ h)
  · exact h
  · exact spoilSteered_keeps _ _ _ h

/-- Spoiled results keep the stores canonical, however many there are. -/
theorem spoilReads_keeps (n : Nat) (self : Option Nat) (ws : List (Nat × Nat × Nat)) : Keeps (fun s => State.spoilReads n self ws s) := by
  induction n generalizing self ws with
  | zero => exact fun _ ok => ok
  | succ n ih =>
    intro s ok
    simp only [State.spoilReads]
    split
    · exact ok
    · exact ih _ _ _ (foldl_keeps _ (fun _ => spoilResult_keeps _ _) _ s ok)

theorem pantryWriteFor_keeps (self : Option Nat) (c a : Nat) (bs : List Byte) : Keeps (fun s => s.pantryWriteFor self c a bs) :=
  fun s ok => spoilReads_keeps _ _ _ _ (pantryPut_keeps c a bs s ok)

theorem pantryWrite_keeps (c a : Nat) (bs : List Byte) : Keeps (fun s => s.pantryWrite c a bs) := pantryWriteFor_keeps none c a bs

/-- With no read open, no write meets one. -/
theorem undisturbed_of_no_reads {s : State} (h : s.cores.all (fun c => c.reads.isEmpty) = true) (self : Option Nat) (ws : List (Nat × Nat × Nat)) :
    s.undisturbed self ws := by
  unfold State.undisturbed State.spoiled
  have e : s.cores.flatMap (fun c => (c.reads.filter (fun r => ws.any (fun w => r.meets c self w))).map (fun r => (c.id, r.target))) = [] := by
    simp only [List.all_eq_true, List.isEmpty_iff] at h
    simp only [List.flatMap_eq_nil_iff]
    intro c m
    rw [h c m]
    rfl
  rw [e]
  rfl

/-- Where no read meets a write, nothing is spoiled (R193). -/
@[simp] theorem spoilReads_of_undisturbed {s : State} {self : Option Nat} {ws : List (Nat × Nat × Nat)} (h : s.undisturbed self ws) (n : Nat) :
    State.spoilReads n self ws s = s := by
  unfold State.undisturbed at h
  cases n with
  | zero => rfl
  | succ n => simp only [State.spoilReads, h]

theorem pantryRead_keeps (self : Option Nat) (c a n : Nat) : Keeps (fun s => (s.pantryReadFor self c a n).2) := by
  intro s ok
  simp only [State.pantryReadFor]
  split
  · exact ok
  · exact ok

/-- Translation changes TLBs only: memory, the Larder and the pantries stay. -/
theorem lookup_stores {s t : State} {c f va : Nat} {m : Mapping} (h : s.lookup c f va = some (m, t)) :
    t.mem = s.mem ∧ t.pantry = s.pantry ∧ t.larder = s.larder := by
  simp only [State.lookup] at h
  split at h
  · injection h with h
    injection h with _ h
    subst h
    exact ⟨rfl, rfl, rfl⟩
  · split at h
    · injection h with h
      injection h with _ h
      subst h
      exact modCore_stores s _ _
    · split at h
      · cases h
      · injection h with h
        injection h with _ h
        subst h
        exact modCore_stores s _ _

theorem xlate_stores {s t : State} {c f va pa : Nat} {n : Need} (h : s.xlate c f va n = .ok (pa, t)) :
    t.mem = s.mem ∧ t.pantry = s.pantry ∧ t.larder = s.larder := by
  simp only [State.xlate] at h
  split at h
  · cases h
  · split at h
    · cases h
    · rename_i e
      have g := lookup_stores e
      split at h
      · injection h with h
        injection h with _ h
        subst h
        exact g
      · cases h

theorem xlate_keeps {s t : State} {c f va pa : Nat} {n : Need} (h : s.xlate c f va n = .ok (pa, t)) (ok : s.storesOk) : t.storesOk :=
  storesOk_of ok (xlate_stores h).1 (xlate_stores h).2.1 (xlate_stores h).2.2

theorem ownStore_keeps (pa : Nat) (bs : List Byte) : Keeps (fun s => s.ownStore pa bs) := by
  intro s ok
  exact larderWrite_keeps pa bs s ok

theorem writeWith_keeps {put : State → Nat → List Byte → State} (keeps : ∀ pa bs, Keeps (fun s => put s pa bs))
    {s t : State} {c f va : Nat} {bs : List Byte} (h : writeWith put s c f va bs = .ok t) (ok : s.storesOk) : t.storesOk := by
  simp only [writeWith] at h
  split at h
  · cases h
  · rename_i e
    split at h
    · cases h
    · rename_i e'
      have k := xlate_keeps e' (xlate_keeps e ok)
      split at h
      · injection h with h
        subst h
        exact keeps _ _ _ k
      · injection h with h
        subst h
        exact keeps _ _ _ (keeps _ _ _ k)

theorem writeVirtual_keeps {s t : State} {c f va : Nat} {bs : List Byte} (h : writeVirtual s c f va bs = .ok t) (ok : s.storesOk) :
    t.storesOk :=
  writeWith_keeps larderWrite_keeps h ok

theorem writeSelf_keeps {s t : State} {c f va : Nat} {bs : List Byte} (h : writeSelf s c f va bs = .ok t) (ok : s.storesOk) : t.storesOk :=
  writeWith_keeps ownStore_keeps h ok

theorem readVirtual_keeps {s t : State} {c f va n : Nat} {bs : List Byte} (h : readVirtual s c f va n = .ok (bs, t)) (ok : s.storesOk) : t.storesOk := by
  simp only [readVirtual] at h
  split at h
  · cases h
  · rename_i e
    split at h
    · cases h
    · rename_i e'
      have k := xlate_keeps e' (xlate_keeps e ok)
      split at h
      · injection h with h
        have h2 := congrArg Prod.snd h
        subst h2
        exact larderRead_keeps _ _ _ k
      · injection h with h
        have h2 := congrArg Prod.snd h
        subst h2
        exact larderRead_keeps _ _ _ (larderRead_keeps _ _ _ k)

/-- An access to the own attic takes free values and changes nothing else; it has as many bytes as before (R129). -/
theorem atticBytes_stores (s : State) (n va : Nat) (bs : List Byte) :
    (s.atticBytes n va bs).1.length = bs.length ∧ (s.atticBytes n va bs).2 = { s with fresh := (s.atticBytes n va bs).2.fresh } := by
  unfold State.atticBytes
  dsimp only
  split
  · exact ⟨by simp, rfl⟩
  · exact ⟨rfl, rfl⟩

theorem atticBytes_keeps (n va : Nat) (bs : List Byte) : Keeps (fun s => (s.atticBytes n va bs).2) := by
  intro s ok
  have h := (atticBytes_stores s n va bs).2
  exact storesOk_of ok (Eq.trans (congrArg State.mem h) rfl) (Eq.trans (congrArg State.pantry h) rfl) (Eq.trans (congrArg State.larder h) rfl)

/-- Outside the attic an access is what it is (R129). -/
@[simp] theorem atticBytes_of_clear {s : State} {n va : Nat} {bs : List Byte} (h : (s.coreAt n).meetsAttic va bs.length = false) :
    s.atticBytes n va bs = (bs, s) := by
  simp [State.atticBytes, h]

/-- Reset memory lists nothing. -/
theorem reset_memory_wf : Memory.wf State.reset.mem = true := rfl

end Machine

end Sys2Proof
end

