-- ==== Sys2Proof/Laws/PerInstr.lean ====
section
/-!
SUPPORT. The family `Encoding`: decoding what the encoder wrote gives every well-formed operation back (R239, R249 to R259), and a row that
is no operation of a bundle has no syllables.
-/
set_option maxRecDepth 4000

namespace Sys2Proof.Laws.Encoding
open Sys2Proof Sys2Proof.Laws.Encode

/-- The round trip of one row: rows that share a word decode to the first of them (log 7). -/
def Statement (i : Instr) : Prop := Trip i

theorem deviceReset : Statement .deviceReset := of_wordless rfl (fun _ => rfl)

theorem functionLevelReset (fn : Fin 9) : Statement (.functionLevelReset fn) := of_wordless rfl (fun _ => rfl)

theorem jobgoStart (fn : Fin 9) (token : BitVec 32) : Statement (.jobgoStart fn token) := of_wordless rfl (fun _ => rfl)

theorem jobgoCancel (fn : Fin 9) : Statement (.jobgoCancel fn) := of_wordless rfl (fun _ => rfl)

theorem jobgoSuspend (fn : Fin 9) : Statement (.jobgoSuspend fn) := of_wordless rfl (fun _ => rfl)

theorem jobgoResume (fn : Fin 9) : Statement (.jobgoResume fn) := of_wordless rfl (fun _ => rfl)

theorem jobgoRefused (fn : Fin 9) : Statement (.jobgoRefused fn) := of_wordless rfl (fun _ => rfl)

theorem registerWrite (fn : Fin 9) (off size : Nat) (val : BitVec 64) : Statement (.registerWrite fn off size val) := of_wordless rfl (fun _ => rfl)

theorem msixUnmask (fn : Fin 9) (vec : Fin 16) : Statement (.msixUnmask fn vec) := of_wordless rfl (fun _ => rfl)

theorem bar2Write (fn : Fin 9) (off : Nat) (data : List Byte) : Statement (.bar2Write fn off data) := of_wordless rfl (fun _ => rfl)

theorem bar2Read (fn : Fin 9) (off n : Nat) : Statement (.bar2Read fn off n) := of_wordless rfl (fun _ => rfl)

theorem quote (fn : Fin 9) (inlen : Nat) : Statement (.quote fn inlen) := of_wordless rfl (fun _ => rfl)

theorem assign (fn : Fin 9) (inlen : Nat) : Statement (.assign fn inlen) := of_wordless rfl (fun _ => rfl)

theorem ckptauth (fn : Fin 9) (inlen : Nat) : Statement (.ckptauth fn inlen) := of_wordless rfl (fun _ => rfl)

theorem devnum (fn : Fin 9) (inlen : Nat) : Statement (.devnum fn inlen) := of_wordless rfl (fun _ => rfl)

theorem gform (fn : Fin 9) (inlen : Nat) : Statement (.gform fn inlen) := of_wordless rfl (fun _ => rfl)

theorem gdissolve (fn : Fin 9) (inlen : Nat) : Statement (.gdissolve fn inlen) := of_wordless rfl (fun _ => rfl)

theorem ckptsend (fn : Fin 9) (inlen : Nat) : Statement (.ckptsend fn inlen) := of_wordless rfl (fun _ => rfl)

theorem tune (inlen : Nat) : Statement (.tune inlen) := of_wordless rfl (fun _ => rfl)

theorem clkcap (inlen : Nat) : Statement (.clkcap inlen) := of_wordless rfl (fun _ => rfl)

theorem log (inlen : Nat) : Statement (.log inlen) := of_wordless rfl (fun _ => rfl)

theorem unknownCommand (fn : Fin 9) (service : Bool) (cmd : BitVec 16) : Statement (.unknownCommand fn service cmd) := of_wordless rfl (fun _ => rfl)

theorem mailboxComplete (fn : Fin 9) (service : Bool) : Statement (.mailboxComplete fn service) := of_wordless rfl (fun _ => rfl)

theorem jobValidation (fn : Fin 9) : Statement (.jobValidation fn) := of_wordless rfl (fun _ => rfl)

theorem thermalStep (die : Fin 4) (milliDeg : Nat) : Statement (.thermalStep die milliDeg) := of_wordless rfl (fun _ => rfl)

theorem thermalTrip (die : Fin 4) : Statement (.thermalTrip die) := of_wordless rfl (fun _ => rfl)

theorem machineCheck (fn : Fin 9) : Statement (.machineCheck fn) := of_wordless rfl (fun _ => rfl)

theorem tuningPassComplete (res : TuneRes) (rung : BitVec 2) : Statement (.tuningPassComplete res rung) := of_wordless rfl (fun _ => rfl)

theorem gangHold (launch gang pos : Nat) : Statement (.gangHold launch gang pos) := of_wordless rfl (fun _ => rfl)

theorem commit (launch gang : Nat) : Statement (.commit launch gang) := of_wordless rfl (fun _ => rfl)

theorem holdRefused (launch gang : Nat) : Statement (.holdRefused launch gang) := of_wordless rfl (fun _ => rfl)

theorem backoffElapsed (launch gang : Nat) : Statement (.backoffElapsed launch gang) := of_wordless rfl (fun _ => rfl)

theorem freeCoreReport (die : Fin 4) : Statement (.freeCoreReport die) := of_wordless rfl (fun _ => rfl)

theorem divert : Statement .divert := of_wordless rfl (fun _ => rfl)

theorem fullSave : Statement .fullSave := of_wordless rfl (fun _ => rfl)

theorem pbudgetExpiry : Statement .pbudgetExpiry := of_wordless rfl (fun _ => rfl)

theorem taskResume (task core : Nat) : Statement (.taskResume task core) := of_wordless rfl (fun _ => rfl)

theorem eventHandlerEntry : Statement .eventHandlerEntry := of_wordless rfl (fun _ => rfl)

theorem deferredPreciseFault : Statement .deferredPreciseFault := of_wordless rfl (fun _ => rfl)

theorem emulationTrap : Statement .emulationTrap := of_wordless rfl (fun _ => rfl)

theorem steeredComplete (id : Nat) : Statement (.steeredComplete id) := of_wordless rfl (fun _ => rfl)

theorem loadReturn (id : Nat) : Statement (.loadReturn id) := of_wordless rfl (fun _ => rfl)

theorem specialFunctionResult (id : Nat) : Statement (.specialFunctionResult id) := of_wordless rfl (fun _ => rfl)

theorem storePerformed (id : Nat) : Statement (.storePerformed id) := of_wordless rfl (fun _ => rfl)

theorem pcarveDrainEnd : Statement .pcarveDrainEnd := of_wordless rfl (fun _ => rfl)

theorem queueEntryStart (q : Fin 4) : Statement (.queueEntryStart q) := of_wordless rfl (fun _ => rfl)

theorem queueEntryComplete (q : Fin 4) (num : Nat) : Statement (.queueEntryComplete q num) := of_wordless rfl (fun _ => rfl)

theorem decompBlock : Statement .decompBlock := of_wordless rfl (fun _ => rfl)

theorem put (p : Packet) : Statement (.put p) := of_wordless rfl (fun _ => rfl)

theorem putsig (p : Packet) : Statement (.putsig p) := of_wordless rfl (fun _ => rfl)

theorem get (p : Packet) : Statement (.get p) := of_wordless rfl (fun _ => rfl)

theorem getresp (p : Packet) : Statement (.getresp p) := of_wordless rfl (fun _ => rfl)

theorem putmc (p : Packet) : Statement (.putmc p) := of_wordless rfl (fun _ => rfl)

theorem ack (p : Packet) : Statement (.ack p) := of_wordless rfl (fun _ => rfl)

theorem nack (p : Packet) : Statement (.nack p) := of_wordless rfl (fun _ => rfl)

theorem red (p : Packet) : Statement (.red p) := of_wordless rfl (fun _ => rfl)

theorem fetchAndOp (p : Packet) : Statement (.fetchAndOp p) := of_wordless rfl (fun _ => rfl)

theorem compareAndSwap (p : Packet) : Statement (.compareAndSwap p) := of_wordless rfl (fun _ => rfl)

theorem listEnqueue (p : Packet) : Statement (.listEnqueue p) := of_wordless rfl (fun _ => rfl)

theorem listDequeue (p : Packet) : Statement (.listDequeue p) := of_wordless rfl (fun _ => rfl)

theorem pointerChase (p : Packet) : Statement (.pointerChase p) := of_wordless rfl (fun _ => rfl)

theorem exactReduce (p : Packet) : Statement (.exactReduce p) := of_wordless rfl (fun _ => rfl)

theorem signalAdd (p : Packet) : Statement (.signalAdd p) := of_wordless rfl (fun _ => rfl)

theorem boundedCopy (p : Packet) : Statement (.boundedCopy p) := of_wordless rfl (fun _ => rfl)

theorem celresp (p : Packet) : Statement (.celresp p) := of_wordless rfl (fun _ => rfl)

theorem ckpt (p : Packet) : Statement (.ckpt p) := of_wordless rfl (fun _ => rfl)

theorem e2eTimeout (conn : Conn) (seq : BitVec 16) : Statement (.e2eTimeout conn seq) := of_wordless rfl (fun _ => rfl)

theorem responseTimeout (conn : Conn) (seq : BitVec 16) : Statement (.responseTimeout conn seq) := of_wordless rfl (fun _ => rfl)

theorem linkCrcError (port : Fin 12) (failed : Nat) (retrained : Bool) : Statement (.linkCrcError port failed retrained) := of_wordless rfl (fun _ => rfl)

theorem reductionTimeout (idx : Nat) : Statement (.reductionTimeout idx) := of_wordless rfl (fun _ => rfl)

theorem gwaveStart (session : Nat) : Statement (.gwaveStart session) := of_wordless rfl (fun _ => rfl)

theorem gxfer (p : Packet) : Statement (.gxfer p) := of_wordless rfl (fun _ => rfl)

theorem gbreq (p : Packet) : Statement (.gbreq p) := of_wordless rfl (fun _ => rfl)

theorem gwave (p : Packet) : Statement (.gwave p) := of_wordless rfl (fun _ => rfl)

theorem gwrep (p : Packet) : Statement (.gwrep p) := of_wordless rfl (fun _ => rfl)

theorem gterm (p : Packet) : Statement (.gterm p) := of_wordless rfl (fun _ => rfl)

theorem gcancel (p : Packet) : Statement (.gcancel p) := of_wordless rfl (fun _ => rfl)

theorem granaryRefill (session : Nat) : Statement (.granaryRefill session) := of_wordless rfl (fun _ => rfl)

theorem nop : Statement .nop :=
  trip_s rfl rfl rfl rfl rfl rfl (by decide) (by decide) (fun w h => by
    have e := opcode (k := 0) (c := 0x00) (pay := 0) (by decide) (by decide) h
    unfold decodeS; rw [e]
    exact parseNone_ok (k := 0) (c := 0x00) .nop h)

theorem add (o : SR3) : Statement (.add o) :=
  trip_s rfl rfl rfl rfl rfl rfl (by decide) (paySR3_lt o) (fun w h => by
    have e := opcode (by decide) (paySR3_lt o) h
    unfold decodeS; rw [e]
    exact congrArg (Except.map Instr.add) (parseSR3_pay o h))

theorem sub (o : SR3) : Statement (.sub o) :=
  trip_s rfl rfl rfl rfl rfl rfl (by decide) (paySR3_lt o) (fun w h => by
    have e := opcode (by decide) (paySR3_lt o) h
    unfold decodeS; rw [e]
    exact congrArg (Except.map Instr.sub) (parseSR3_pay o h))

theorem mul (o : SR3) : Statement (.mul o) :=
  trip_s rfl rfl rfl rfl rfl rfl (by decide) (paySR3_lt o) (fun w h => by
    have e := opcode (by decide) (paySR3_lt o) h
    unfold decodeS; rw [e]
    exact congrArg (Except.map Instr.mul) (parseSR3_pay o h))

theorem mulh (o : SR3) : Statement (.mulh o) :=
  trip_s rfl rfl rfl rfl rfl rfl (by decide) (paySR3_lt o) (fun w h => by
    have e := opcode (by decide) (paySR3_lt o) h
    unfold decodeS; rw [e]
    exact congrArg (Except.map Instr.mulh) (parseSR3_pay o h))

theorem mulhu (o : SR3) : Statement (.mulhu o) :=
  trip_s rfl rfl rfl rfl rfl rfl (by decide) (paySR3_lt o) (fun w h => by
    have e := opcode (by decide) (paySR3_lt o) h
    unfold decodeS; rw [e]
    exact congrArg (Except.map Instr.mulhu) (parseSR3_pay o h))

theorem div (o : SR3) : Statement (.div o) :=
  trip_s rfl rfl rfl rfl rfl rfl (by decide) (paySR3_lt o) (fun w h => by
    have e := opcode (by decide) (paySR3_lt o) h
    unfold decodeS; rw [e]
    exact congrArg (Except.map Instr.div) (parseSR3_pay o h))

theorem divu (o : SR3) : Statement (.divu o) :=
  trip_s rfl rfl rfl rfl rfl rfl (by decide) (paySR3_lt o) (fun w h => by
    have e := opcode (by decide) (paySR3_lt o) h
    unfold decodeS; rw [e]
    exact congrArg (Except.map Instr.divu) (parseSR3_pay o h))

theorem rem (o : SR3) : Statement (.rem o) :=
  trip_s rfl rfl rfl rfl rfl rfl (by decide) (paySR3_lt o) (fun w h => by
    have e := opcode (by decide) (paySR3_lt o) h
    unfold decodeS; rw [e]
    exact congrArg (Except.map Instr.rem) (parseSR3_pay o h))

theorem remu (o : SR3) : Statement (.remu o) :=
  trip_s rfl rfl rfl rfl rfl rfl (by decide) (paySR3_lt o) (fun w h => by
    have e := opcode (by decide) (paySR3_lt o) h
    unfold decodeS; rw [e]
    exact congrArg (Except.map Instr.remu) (parseSR3_pay o h))

theorem and (o : SR3) : Statement (.and o) :=
  trip_s rfl rfl rfl rfl rfl rfl (by decide) (paySR3_lt o) (fun w h => by
    have e := opcode (by decide) (paySR3_lt o) h
    unfold decodeS; rw [e]
    exact congrArg (Except.map Instr.and) (parseSR3_pay o h))

theorem or (o : SR3) : Statement (.or o) :=
  trip_s rfl rfl rfl rfl rfl rfl (by decide) (paySR3_lt o) (fun w h => by
    have e := opcode (by decide) (paySR3_lt o) h
    unfold decodeS; rw [e]
    exact congrArg (Except.map Instr.or) (parseSR3_pay o h))

theorem xor (o : SR3) : Statement (.xor o) :=
  trip_s rfl rfl rfl rfl rfl rfl (by decide) (paySR3_lt o) (fun w h => by
    have e := opcode (by decide) (paySR3_lt o) h
    unfold decodeS; rw [e]
    exact congrArg (Except.map Instr.xor) (parseSR3_pay o h))

theorem andn (o : SR3) : Statement (.andn o) :=
  trip_s rfl rfl rfl rfl rfl rfl (by decide) (paySR3_lt o) (fun w h => by
    have e := opcode (by decide) (paySR3_lt o) h
    unfold decodeS; rw [e]
    exact congrArg (Except.map Instr.andn) (parseSR3_pay o h))

theorem shl (o : SR3) : Statement (.shl o) :=
  trip_s rfl rfl rfl rfl rfl rfl (by decide) (paySR3_lt o) (fun w h => by
    have e := opcode (by decide) (paySR3_lt o) h
    unfold decodeS; rw [e]
    exact congrArg (Except.map Instr.shl) (parseSR3_pay o h))

theorem shr (o : SR3) : Statement (.shr o) :=
  trip_s rfl rfl rfl rfl rfl rfl (by decide) (paySR3_lt o) (fun w h => by
    have e := opcode (by decide) (paySR3_lt o) h
    unfold decodeS; rw [e]
    exact congrArg (Except.map Instr.shr) (parseSR3_pay o h))

theorem sra (o : SR3) : Statement (.sra o) :=
  trip_s rfl rfl rfl rfl rfl rfl (by decide) (paySR3_lt o) (fun w h => by
    have e := opcode (by decide) (paySR3_lt o) h
    unfold decodeS; rw [e]
    exact congrArg (Except.map Instr.sra) (parseSR3_pay o h))

theorem rotl (o : SR3) : Statement (.rotl o) :=
  trip_s rfl rfl rfl rfl rfl rfl (by decide) (paySR3_lt o) (fun w h => by
    have e := opcode (by decide) (paySR3_lt o) h
    unfold decodeS; rw [e]
    exact congrArg (Except.map Instr.rotl) (parseSR3_pay o h))

theorem min (o : SR3) : Statement (.min o) :=
  trip_s rfl rfl rfl rfl rfl rfl (by decide) (paySR3_lt o) (fun w h => by
    have e := opcode (by decide) (paySR3_lt o) h
    unfold decodeS; rw [e]
    exact congrArg (Except.map Instr.min) (parseSR3_pay o h))

theorem max (o : SR3) : Statement (.max o) :=
  trip_s rfl rfl rfl rfl rfl rfl (by decide) (paySR3_lt o) (fun w h => by
    have e := opcode (by decide) (paySR3_lt o) h
    unfold decodeS; rw [e]
    exact congrArg (Except.map Instr.max) (parseSR3_pay o h))

theorem minu (o : SR3) : Statement (.minu o) :=
  trip_s rfl rfl rfl rfl rfl rfl (by decide) (paySR3_lt o) (fun w h => by
    have e := opcode (by decide) (paySR3_lt o) h
    unfold decodeS; rw [e]
    exact congrArg (Except.map Instr.minu) (parseSR3_pay o h))

theorem maxu (o : SR3) : Statement (.maxu o) :=
  trip_s rfl rfl rfl rfl rfl rfl (by decide) (paySR3_lt o) (fun w h => by
    have e := opcode (by decide) (paySR3_lt o) h
    unfold decodeS; rw [e]
    exact congrArg (Except.map Instr.maxu) (parseSR3_pay o h))

theorem clz (o : SR2) : Statement (.clz o) :=
  trip_s rfl rfl rfl rfl rfl rfl (by decide) (paySR2_lt o) (fun w h => by
    have e := opcode (by decide) (paySR2_lt o) h
    unfold decodeS; rw [e]
    exact congrArg (Except.map Instr.clz) (parseSR2_pay o h))

theorem ctz (o : SR2) : Statement (.ctz o) :=
  trip_s rfl rfl rfl rfl rfl rfl (by decide) (paySR2_lt o) (fun w h => by
    have e := opcode (by decide) (paySR2_lt o) h
    unfold decodeS; rw [e]
    exact congrArg (Except.map Instr.ctz) (parseSR2_pay o h))

theorem popc (o : SR2) : Statement (.popc o) :=
  trip_s rfl rfl rfl rfl rfl rfl (by decide) (paySR2_lt o) (fun w h => by
    have e := opcode (by decide) (paySR2_lt o) h
    unfold decodeS; rw [e]
    exact congrArg (Except.map Instr.popc) (parseSR2_pay o h))

theorem sext (o : SRX) : Statement (.sext o) :=
  trip_s rfl rfl rfl rfl rfl rfl (by decide) (paySRX_lt o) (fun w h => by
    have e := opcode (by decide) (paySRX_lt o) h
    unfold decodeS; rw [e]
    exact congrArg (Except.map Instr.sext) (parseSRX_pay o h))

theorem zext (o : SRX) : Statement (.zext o) :=
  trip_s rfl rfl rfl rfl rfl rfl (by decide) (paySRX_lt o) (fun w h => by
    have e := opcode (by decide) (paySRX_lt o) h
    unfold decodeS; rw [e]
    exact congrArg (Except.map Instr.zext) (parseSRX_pay o h))

theorem lea (o : SR4) : Statement (.lea o) :=
  trip_s rfl rfl rfl rfl rfl rfl (by decide) (paySR4_lt o) (fun w h => by
    have e := opcode (by decide) (paySR4_lt o) h
    unfold decodeS; rw [e]
    exact congrArg (Except.map Instr.lea) (parseSR4_pay o h))

theorem sel (o : SX) : Statement (.sel o) :=
  trip_s rfl rfl rfl rfl rfl rfl (by decide) (paySX_lt o) (fun w h => by
    have e := opcode (by decide) (paySX_lt o) h
    unfold decodeS; rw [e]
    exact congrArg (Except.map Instr.sel) (parseSX_pay o h))

theorem bfx (o : SXB) : Statement (.bfx o) :=
  trip_s rfl rfl rfl rfl rfl rfl (by decide) (paySXB_lt o) (fun w h => by
    have e := opcode (by decide) (paySXB_lt o) h
    unfold decodeS; rw [e]
    exact congrArg (Except.map Instr.bfx) (parseSXB_pay o h))

theorem bfi (o : SXB) : Statement (.bfi o) :=
  trip_s rfl rfl rfl rfl rfl rfl (by decide) (paySXB_lt o) (fun w h => by
    have e := opcode (by decide) (paySXB_lt o) h
    unfold decodeS; rw [e]
    exact congrArg (Except.map Instr.bfi) (parseSXB_pay o h))

theorem addi (o : SI) : Statement (.addi o) :=
  trip_s rfl rfl rfl rfl rfl rfl (by decide) (paySI_lt o) (fun w h => by
    have e := opcode (by decide) (paySI_lt o) h
    unfold decodeS; rw [e]
    exact congrArg (Except.map Instr.addi) (parseSI_pay o h))

theorem andi (o : SI) : Statement (.andi o) :=
  trip_s rfl rfl rfl rfl rfl rfl (by decide) (paySI_lt o) (fun w h => by
    have e := opcode (by decide) (paySI_lt o) h
    unfold decodeS; rw [e]
    exact congrArg (Except.map Instr.andi) (parseSI_pay o h))

theorem ori (o : SI) : Statement (.ori o) :=
  trip_s rfl rfl rfl rfl rfl rfl (by decide) (paySI_lt o) (fun w h => by
    have e := opcode (by decide) (paySI_lt o) h
    unfold decodeS; rw [e]
    exact congrArg (Except.map Instr.ori) (parseSI_pay o h))

theorem xori (o : SI) : Statement (.xori o) :=
  trip_s rfl rfl rfl rfl rfl rfl (by decide) (paySI_lt o) (fun w h => by
    have e := opcode (by decide) (paySI_lt o) h
    unfold decodeS; rw [e]
    exact congrArg (Except.map Instr.xori) (parseSI_pay o h))

theorem shli (o : SI) : Statement (.shli o) :=
  trip_s rfl rfl rfl rfl rfl rfl (by decide) (paySI_lt o) (fun w h => by
    have e := opcode (by decide) (paySI_lt o) h
    unfold decodeS; rw [e]
    exact congrArg (Except.map Instr.shli) (parseSI_pay o h))

theorem shri (o : SI) : Statement (.shri o) :=
  trip_s rfl rfl rfl rfl rfl rfl (by decide) (paySI_lt o) (fun w h => by
    have e := opcode (by decide) (paySI_lt o) h
    unfold decodeS; rw [e]
    exact congrArg (Except.map Instr.shri) (parseSI_pay o h))

theorem srai (o : SI) : Statement (.srai o) :=
  trip_s rfl rfl rfl rfl rfl rfl (by decide) (paySI_lt o) (fun w h => by
    have e := opcode (by decide) (paySI_lt o) h
    unfold decodeS; rw [e]
    exact congrArg (Except.map Instr.srai) (parseSI_pay o h))

theorem movi (o : SM) : Statement (.movi o) :=
  trip_s rfl rfl rfl rfl rfl rfl (by decide) (paySM_lt o) (fun w h => by
    have e := opcode (by decide) (paySM_lt o) h
    unfold decodeS; rw [e]
    exact congrArg (Except.map Instr.movi) (parseSM_pay o h))

theorem cmpEq (o : SK) : Statement (.cmpEq o) :=
  trip_s rfl rfl rfl rfl rfl rfl (by decide) (paySK_lt o) (fun w h => by
    have e := opcode (by decide) (paySK_lt o) h
    unfold decodeS; rw [e]
    exact congrArg (Except.map Instr.cmpEq) (parseSK_pay o h))

theorem cmpNe (o : SK) : Statement (.cmpNe o) :=
  trip_s rfl rfl rfl rfl rfl rfl (by decide) (paySK_lt o) (fun w h => by
    have e := opcode (by decide) (paySK_lt o) h
    unfold decodeS; rw [e]
    exact congrArg (Except.map Instr.cmpNe) (parseSK_pay o h))

theorem cmpLt (o : SK) : Statement (.cmpLt o) :=
  trip_s rfl rfl rfl rfl rfl rfl (by decide) (paySK_lt o) (fun w h => by
    have e := opcode (by decide) (paySK_lt o) h
    unfold decodeS; rw [e]
    exact congrArg (Except.map Instr.cmpLt) (parseSK_pay o h))

theorem cmpLtu (o : SK) : Statement (.cmpLtu o) :=
  trip_s rfl rfl rfl rfl rfl rfl (by decide) (paySK_lt o) (fun w h => by
    have e := opcode (by decide) (paySK_lt o) h
    unfold decodeS; rw [e]
    exact congrArg (Except.map Instr.cmpLtu) (parseSK_pay o h))

theorem cmpGe (o : SK) : Statement (.cmpGe o) :=
  trip_s rfl rfl rfl rfl rfl rfl (by decide) (paySK_lt o) (fun w h => by
    have e := opcode (by decide) (paySK_lt o) h
    unfold decodeS; rw [e]
    exact congrArg (Except.map Instr.cmpGe) (parseSK_pay o h))

theorem cmpGeu (o : SK) : Statement (.cmpGeu o) :=
  trip_s rfl rfl rfl rfl rfl rfl (by decide) (paySK_lt o) (fun w h => by
    have e := opcode (by decide) (paySK_lt o) h
    unfold decodeS; rw [e]
    exact congrArg (Except.map Instr.cmpGeu) (parseSK_pay o h))

theorem cmpiEq (o : SJ) : Statement (.cmpiEq o) :=
  trip_s rfl rfl rfl rfl rfl rfl (by decide) (paySJ_lt o) (fun w h => by
    have e := opcode (by decide) (paySJ_lt o) h
    unfold decodeS; rw [e]
    exact congrArg (Except.map Instr.cmpiEq) (parseSJ_pay o h))

theorem cmpiNe (o : SJ) : Statement (.cmpiNe o) :=
  trip_s rfl rfl rfl rfl rfl rfl (by decide) (paySJ_lt o) (fun w h => by
    have e := opcode (by decide) (paySJ_lt o) h
    unfold decodeS; rw [e]
    exact congrArg (Except.map Instr.cmpiNe) (parseSJ_pay o h))

theorem cmpiLt (o : SJ) : Statement (.cmpiLt o) :=
  trip_s rfl rfl rfl rfl rfl rfl (by decide) (paySJ_lt o) (fun w h => by
    have e := opcode (by decide) (paySJ_lt o) h
    unfold decodeS; rw [e]
    exact congrArg (Except.map Instr.cmpiLt) (parseSJ_pay o h))

theorem cmpiLtu (o : SJ) : Statement (.cmpiLtu o) :=
  trip_s rfl rfl rfl rfl rfl rfl (by decide) (paySJ_lt o) (fun w h => by
    have e := opcode (by decide) (paySJ_lt o) h
    unfold decodeS; rw [e]
    exact congrArg (Except.map Instr.cmpiLtu) (parseSJ_pay o h))

theorem cmpiGe (o : SJ) : Statement (.cmpiGe o) :=
  trip_s rfl rfl rfl rfl rfl rfl (by decide) (paySJ_lt o) (fun w h => by
    have e := opcode (by decide) (paySJ_lt o) h
    unfold decodeS; rw [e]
    exact congrArg (Except.map Instr.cmpiGe) (parseSJ_pay o h))

theorem cmpiGeu (o : SJ) : Statement (.cmpiGeu o) :=
  trip_s rfl rfl rfl rfl rfl rfl (by decide) (paySJ_lt o) (fun w h => by
    have e := opcode (by decide) (paySJ_lt o) h
    unfold decodeS; rw [e]
    exact congrArg (Except.map Instr.cmpiGeu) (parseSJ_pay o h))

theorem pand (o : SP) : Statement (.pand o) :=
  trip_s rfl rfl rfl rfl rfl rfl (by decide) (paySP_lt o) (fun w h => by
    have e := opcode (by decide) (paySP_lt o) h
    unfold decodeS; rw [e]
    exact congrArg (Except.map Instr.pand) (parseSP_pay o h))

theorem por (o : SP) : Statement (.por o) :=
  trip_s rfl rfl rfl rfl rfl rfl (by decide) (paySP_lt o) (fun w h => by
    have e := opcode (by decide) (paySP_lt o) h
    unfold decodeS; rw [e]
    exact congrArg (Except.map Instr.por) (parseSP_pay o h))

theorem pxor (o : SP) : Statement (.pxor o) :=
  trip_s rfl rfl rfl rfl rfl rfl (by decide) (paySP_lt o) (fun w h => by
    have e := opcode (by decide) (paySP_lt o) h
    unfold decodeS; rw [e]
    exact congrArg (Except.map Instr.pxor) (parseSP_pay o h))

theorem pnot (o : SP1) : Statement (.pnot o) :=
  trip_s rfl rfl rfl rfl rfl rfl (by decide) (paySP1_lt o) (fun w h => by
    have e := opcode (by decide) (paySP1_lt o) h
    unfold decodeS; rw [e]
    exact congrArg (Except.map Instr.pnot) (parseSP1_pay o h))

theorem br (o : SB) : Statement (.br o) :=
  trip_s rfl rfl rfl rfl rfl rfl (by decide) (paySB_lt o) (fun w h => by
    have e := opcode (by decide) (paySB_lt o) h
    unfold decodeS; rw [e]
    exact congrArg (Except.map Instr.br) (parseSB_pay o h))

theorem brk (o : SC) : Statement (.brk o) :=
  trip_s rfl rfl rfl rfl rfl rfl (by decide) (paySC_lt o) (fun w h => by
    have e := opcode (by decide) (paySC_lt o) h
    unfold decodeS; rw [e]
    exact congrArg (Except.map Instr.brk) (parseSC_pay o h))

theorem jmp (o : S1) : Statement (.jmp o) :=
  trip_s rfl rfl rfl rfl rfl rfl (by decide) (payS1_lt o) (fun w h => by
    have e := opcode (by decide) (payS1_lt o) h
    unfold decodeS; rw [e]
    exact congrArg (Except.map Instr.jmp) (parseS1_pay o h))

theorem call (o : SB) : Statement (.call o) :=
  trip_s rfl rfl rfl rfl rfl rfl (by decide) (paySB_lt o) (fun w h => by
    have e := opcode (by decide) (paySB_lt o) h
    unfold decodeS; rw [e]
    exact congrArg (Except.map Instr.call) (parseSB_pay o h))

theorem callr (o : S1) : Statement (.callr o) :=
  trip_s rfl rfl rfl rfl rfl rfl (by decide) (payS1_lt o) (fun w h => by
    have e := opcode (by decide) (payS1_lt o) h
    unfold decodeS; rw [e]
    exact congrArg (Except.map Instr.callr) (parseS1_pay o h))

theorem ret : Statement .ret :=
  trip_s rfl rfl rfl rfl rfl rfl (by decide) (by decide) (fun w h => by
    have e := opcode (k := 0) (c := 0x45) (pay := 0) (by decide) (by decide) h
    unfold decodeS; rw [e]
    exact parseNone_ok (k := 0) (c := 0x45) .ret h)

theorem lnest (o : SL) : Statement (.lnest o) :=
  trip_s rfl rfl rfl rfl rfl rfl (by decide) (paySL_lt o) (fun w h => by
    have e := opcode (by decide) (paySL_lt o) h
    unfold decodeS; rw [e]
    exact congrArg (Except.map Instr.lnest) (parseSL_pay o h))

theorem lexit : Statement .lexit :=
  trip_s rfl rfl rfl rfl rfl rfl (by decide) (by decide) (fun w h => by
    have e := opcode (k := 0) (c := 0x47) (pay := 0) (by decide) (by decide) h
    unfold decodeS; rw [e]
    exact parseNone_ok (k := 0) (c := 0x47) .lexit h)

theorem acq (o : SQ) : Statement (.acq o) :=
  trip_s rfl rfl rfl rfl rfl rfl (by decide) (paySQ_lt o) (fun w h => by
    have e := opcode (by decide) (paySQ_lt o) h
    unfold decodeS; rw [e]
    exact congrArg (Except.map Instr.acq) (parseSQ_pay o h))

theorem acqF (o : SQF) : Statement (.acqF o) :=
  trip_s rfl rfl rfl rfl rfl rfl (by decide) (paySQF_lt o) (fun w h => by
    have e := opcode (by decide) (paySQF_lt o) h
    unfold decodeS; rw [e]
    exact congrArg (Except.map Instr.acqF) (parseSQF_pay o h))

theorem rel : Statement .rel :=
  trip_s rfl rfl rfl rfl rfl rfl (by decide) (by decide) (fun w h => by
    have e := opcode (k := 0) (c := 0x4a) (pay := 0) (by decide) (by decide) h
    unfold decodeS; rw [e]
    exact parseNone_ok (k := 0) (c := 0x4a) .rel h)

theorem ldB (o : SG) : Statement (.ldB o) :=
  trip_s rfl rfl rfl rfl rfl rfl (by decide) (paySG_lt o) (fun w h => by
    have e := opcode (by decide) (paySG_lt o) h
    unfold decodeS; rw [e]
    exact congrArg (Except.map Instr.ldB) (parseSG_pay o h))

theorem ldBU (o : SG) : Statement (.ldBU o) :=
  trip_s rfl rfl rfl rfl rfl rfl (by decide) (paySG_lt o) (fun w h => by
    have e := opcode (by decide) (paySG_lt o) h
    unfold decodeS; rw [e]
    exact congrArg (Except.map Instr.ldBU) (parseSG_pay o h))

theorem ldH (o : SG) : Statement (.ldH o) :=
  trip_s rfl rfl rfl rfl rfl rfl (by decide) (paySG_lt o) (fun w h => by
    have e := opcode (by decide) (paySG_lt o) h
    unfold decodeS; rw [e]
    exact congrArg (Except.map Instr.ldH) (parseSG_pay o h))

theorem ldHU (o : SG) : Statement (.ldHU o) :=
  trip_s rfl rfl rfl rfl rfl rfl (by decide) (paySG_lt o) (fun w h => by
    have e := opcode (by decide) (paySG_lt o) h
    unfold decodeS; rw [e]
    exact congrArg (Except.map Instr.ldHU) (parseSG_pay o h))

theorem ldW (o : SG) : Statement (.ldW o) :=
  trip_s rfl rfl rfl rfl rfl rfl (by decide) (paySG_lt o) (fun w h => by
    have e := opcode (by decide) (paySG_lt o) h
    unfold decodeS; rw [e]
    exact congrArg (Except.map Instr.ldW) (parseSG_pay o h))

theorem ldWU (o : SG) : Statement (.ldWU o) :=
  trip_s rfl rfl rfl rfl rfl rfl (by decide) (paySG_lt o) (fun w h => by
    have e := opcode (by decide) (paySG_lt o) h
    unfold decodeS; rw [e]
    exact congrArg (Except.map Instr.ldWU) (parseSG_pay o h))

theorem ldD (o : SG) : Statement (.ldD o) :=
  trip_s rfl rfl rfl rfl rfl rfl (by decide) (paySG_lt o) (fun w h => by
    have e := opcode (by decide) (paySG_lt o) h
    unfold decodeS; rw [e]
    exact congrArg (Except.map Instr.ldD) (parseSG_pay o h))

theorem stB (o : SG) : Statement (.stB o) :=
  trip_s rfl rfl rfl rfl rfl rfl (by decide) (paySG_lt o) (fun w h => by
    have e := opcode (by decide) (paySG_lt o) h
    unfold decodeS; rw [e]
    exact congrArg (Except.map Instr.stB) (parseSG_pay o h))

theorem stH (o : SG) : Statement (.stH o) :=
  trip_s rfl rfl rfl rfl rfl rfl (by decide) (paySG_lt o) (fun w h => by
    have e := opcode (by decide) (paySG_lt o) h
    unfold decodeS; rw [e]
    exact congrArg (Except.map Instr.stH) (parseSG_pay o h))

theorem stW (o : SG) : Statement (.stW o) :=
  trip_s rfl rfl rfl rfl rfl rfl (by decide) (paySG_lt o) (fun w h => by
    have e := opcode (by decide) (paySG_lt o) h
    unfold decodeS; rw [e]
    exact congrArg (Except.map Instr.stW) (parseSG_pay o h))

theorem stD (o : SG) : Statement (.stD o) :=
  trip_s rfl rfl rfl rfl rfl rfl (by decide) (paySG_lt o) (fun w h => by
    have e := opcode (by decide) (paySG_lt o) h
    unfold decodeS; rw [e]
    exact congrArg (Except.map Instr.stD) (parseSG_pay o h))

theorem ldaW (o : SO) : Statement (.ldaW o) :=
  trip_s rfl rfl rfl rfl rfl rfl (by decide) (paySO_lt o) (fun w h => by
    have e := opcode (by decide) (paySO_lt o) h
    unfold decodeS; rw [e]
    exact congrArg (Except.map Instr.ldaW) (parseSO_pay o h))

theorem ldaD (o : SO) : Statement (.ldaD o) :=
  trip_s rfl rfl rfl rfl rfl rfl (by decide) (paySO_lt o) (fun w h => by
    have e := opcode (by decide) (paySO_lt o) h
    unfold decodeS; rw [e]
    exact congrArg (Except.map Instr.ldaD) (parseSO_pay o h))

theorem stlW (o : SO) : Statement (.stlW o) :=
  trip_s rfl rfl rfl rfl rfl rfl (by decide) (paySO_lt o) (fun w h => by
    have e := opcode (by decide) (paySO_lt o) h
    unfold decodeS; rw [e]
    exact congrArg (Except.map Instr.stlW) (parseSO_pay o h))

theorem stlD (o : SO) : Statement (.stlD o) :=
  trip_s rfl rfl rfl rfl rfl rfl (by decide) (paySO_lt o) (fun w h => by
    have e := opcode (by decide) (paySO_lt o) h
    unfold decodeS; rw [e]
    exact congrArg (Except.map Instr.stlD) (parseSO_pay o h))

theorem ldpB (o : SY) : Statement (.ldpB o) :=
  trip_s rfl rfl rfl rfl rfl rfl (by decide) (paySY_lt o) (fun w h => by
    have e := opcode (by decide) (paySY_lt o) h
    unfold decodeS; rw [e]
    exact congrArg (Except.map Instr.ldpB) (parseSY_pay o h))

theorem ldpBU (o : SY) : Statement (.ldpBU o) :=
  trip_s rfl rfl rfl rfl rfl rfl (by decide) (paySY_lt o) (fun w h => by
    have e := opcode (by decide) (paySY_lt o) h
    unfold decodeS; rw [e]
    exact congrArg (Except.map Instr.ldpBU) (parseSY_pay o h))

theorem ldpH (o : SY) : Statement (.ldpH o) :=
  trip_s rfl rfl rfl rfl rfl rfl (by decide) (paySY_lt o) (fun w h => by
    have e := opcode (by decide) (paySY_lt o) h
    unfold decodeS; rw [e]
    exact congrArg (Except.map Instr.ldpH) (parseSY_pay o h))

theorem ldpHU (o : SY) : Statement (.ldpHU o) :=
  trip_s rfl rfl rfl rfl rfl rfl (by decide) (paySY_lt o) (fun w h => by
    have e := opcode (by decide) (paySY_lt o) h
    unfold decodeS; rw [e]
    exact congrArg (Except.map Instr.ldpHU) (parseSY_pay o h))

theorem ldpW (o : SY) : Statement (.ldpW o) :=
  trip_s rfl rfl rfl rfl rfl rfl (by decide) (paySY_lt o) (fun w h => by
    have e := opcode (by decide) (paySY_lt o) h
    unfold decodeS; rw [e]
    exact congrArg (Except.map Instr.ldpW) (parseSY_pay o h))

theorem ldpWU (o : SY) : Statement (.ldpWU o) :=
  trip_s rfl rfl rfl rfl rfl rfl (by decide) (paySY_lt o) (fun w h => by
    have e := opcode (by decide) (paySY_lt o) h
    unfold decodeS; rw [e]
    exact congrArg (Except.map Instr.ldpWU) (parseSY_pay o h))

theorem ldpD (o : SY) : Statement (.ldpD o) :=
  trip_s rfl rfl rfl rfl rfl rfl (by decide) (paySY_lt o) (fun w h => by
    have e := opcode (by decide) (paySY_lt o) h
    unfold decodeS; rw [e]
    exact congrArg (Except.map Instr.ldpD) (parseSY_pay o h))

theorem stpB (o : SY) : Statement (.stpB o) :=
  trip_s rfl rfl rfl rfl rfl rfl (by decide) (paySY_lt o) (fun w h => by
    have e := opcode (by decide) (paySY_lt o) h
    unfold decodeS; rw [e]
    exact congrArg (Except.map Instr.stpB) (parseSY_pay o h))

theorem stpH (o : SY) : Statement (.stpH o) :=
  trip_s rfl rfl rfl rfl rfl rfl (by decide) (paySY_lt o) (fun w h => by
    have e := opcode (by decide) (paySY_lt o) h
    unfold decodeS; rw [e]
    exact congrArg (Except.map Instr.stpH) (parseSY_pay o h))

theorem stpW (o : SY) : Statement (.stpW o) :=
  trip_s rfl rfl rfl rfl rfl rfl (by decide) (paySY_lt o) (fun w h => by
    have e := opcode (by decide) (paySY_lt o) h
    unfold decodeS; rw [e]
    exact congrArg (Except.map Instr.stpW) (parseSY_pay o h))

theorem stpD (o : SY) : Statement (.stpD o) :=
  trip_s rfl rfl rfl rfl rfl rfl (by decide) (paySY_lt o) (fun w h => by
    have e := opcode (by decide) (paySY_lt o) h
    unfold decodeS; rw [e]
    exact congrArg (Except.map Instr.stpD) (parseSY_pay o h))

theorem amoAdd (o : SA) : Statement (.amoAdd o) :=
  trip_s rfl rfl rfl rfl rfl rfl (by decide) (paySA_lt o) (fun w h => by
    have e := opcode (by decide) (paySA_lt o) h
    unfold decodeS; rw [e]
    exact congrArg (Except.map Instr.amoAdd) (parseSA_pay o h))

theorem amoAnd (o : SA) : Statement (.amoAnd o) :=
  trip_s rfl rfl rfl rfl rfl rfl (by decide) (paySA_lt o) (fun w h => by
    have e := opcode (by decide) (paySA_lt o) h
    unfold decodeS; rw [e]
    exact congrArg (Except.map Instr.amoAnd) (parseSA_pay o h))

theorem amoOr (o : SA) : Statement (.amoOr o) :=
  trip_s rfl rfl rfl rfl rfl rfl (by decide) (paySA_lt o) (fun w h => by
    have e := opcode (by decide) (paySA_lt o) h
    unfold decodeS; rw [e]
    exact congrArg (Except.map Instr.amoOr) (parseSA_pay o h))

theorem amoXor (o : SA) : Statement (.amoXor o) :=
  trip_s rfl rfl rfl rfl rfl rfl (by decide) (paySA_lt o) (fun w h => by
    have e := opcode (by decide) (paySA_lt o) h
    unfold decodeS; rw [e]
    exact congrArg (Except.map Instr.amoXor) (parseSA_pay o h))

theorem amoMin (o : SA) : Statement (.amoMin o) :=
  trip_s rfl rfl rfl rfl rfl rfl (by decide) (paySA_lt o) (fun w h => by
    have e := opcode (by decide) (paySA_lt o) h
    unfold decodeS; rw [e]
    exact congrArg (Except.map Instr.amoMin) (parseSA_pay o h))

theorem amoMax (o : SA) : Statement (.amoMax o) :=
  trip_s rfl rfl rfl rfl rfl rfl (by decide) (paySA_lt o) (fun w h => by
    have e := opcode (by decide) (paySA_lt o) h
    unfold decodeS; rw [e]
    exact congrArg (Except.map Instr.amoMax) (parseSA_pay o h))

theorem amoMinu (o : SA) : Statement (.amoMinu o) :=
  trip_s rfl rfl rfl rfl rfl rfl (by decide) (paySA_lt o) (fun w h => by
    have e := opcode (by decide) (paySA_lt o) h
    unfold decodeS; rw [e]
    exact congrArg (Except.map Instr.amoMinu) (parseSA_pay o h))

theorem amoMaxu (o : SA) : Statement (.amoMaxu o) :=
  trip_s rfl rfl rfl rfl rfl rfl (by decide) (paySA_lt o) (fun w h => by
    have e := opcode (by decide) (paySA_lt o) h
    unfold decodeS; rw [e]
    exact congrArg (Except.map Instr.amoMaxu) (parseSA_pay o h))

theorem amoSwap (o : SA) : Statement (.amoSwap o) :=
  trip_s rfl rfl rfl rfl rfl rfl (by decide) (paySA_lt o) (fun w h => by
    have e := opcode (by decide) (paySA_lt o) h
    unfold decodeS; rw [e]
    exact congrArg (Except.map Instr.amoSwap) (parseSA_pay o h))

theorem cas (o : SA) : Statement (.cas o) :=
  trip_s rfl rfl rfl rfl rfl rfl (by decide) (paySA_lt o) (fun w h => by
    have e := opcode (by decide) (paySA_lt o) h
    unfold decodeS; rw [e]
    exact congrArg (Except.map Instr.cas) (parseSA_pay o h))

theorem cas2 (o : SA) : Statement (.cas2 o) :=
  trip_s rfl rfl rfl rfl rfl rfl (by decide) (paySA_lt o) (fun w h => by
    have e := opcode (by decide) (paySA_lt o) h
    unfold decodeS; rw [e]
    exact congrArg (Except.map Instr.cas2) (parseSA_pay o h))

theorem redx (o : SAR) : Statement (.redx o) :=
  trip_s rfl rfl rfl rfl rfl rfl (by decide) (paySAR_lt o) (fun w h => by
    have e := opcode (by decide) (paySAR_lt o) h
    unfold decodeS; rw [e]
    exact congrArg (Except.map Instr.redx) (parseSAR_pay o h))

theorem uadd (o : SU) : Statement (.uadd o) :=
  trip_s rfl rfl rfl rfl rfl rfl (by decide) (paySU_lt o) (fun w h => by
    have e := opcode (by decide) (paySU_lt o) h
    unfold decodeS; rw [e]
    exact congrArg (Except.map Instr.uadd) (parseSU_pay o h))

theorem umin (o : SU) : Statement (.umin o) :=
  trip_s rfl rfl rfl rfl rfl rfl (by decide) (paySU_lt o) (fun w h => by
    have e := opcode (by decide) (paySU_lt o) h
    unfold decodeS; rw [e]
    exact congrArg (Except.map Instr.umin) (parseSU_pay o h))

theorem umax (o : SU) : Statement (.umax o) :=
  trip_s rfl rfl rfl rfl rfl rfl (by decide) (paySU_lt o) (fun w h => by
    have e := opcode (by decide) (paySU_lt o) h
    unfold decodeS; rw [e]
    exact congrArg (Except.map Instr.umax) (parseSU_pay o h))

theorem uand (o : SU) : Statement (.uand o) :=
  trip_s rfl rfl rfl rfl rfl rfl (by decide) (paySU_lt o) (fun w h => by
    have e := opcode (by decide) (paySU_lt o) h
    unfold decodeS; rw [e]
    exact congrArg (Except.map Instr.uand) (parseSU_pay o h))

theorem uor (o : SU) : Statement (.uor o) :=
  trip_s rfl rfl rfl rfl rfl rfl (by decide) (paySU_lt o) (fun w h => by
    have e := opcode (by decide) (paySU_lt o) h
    unfold decodeS; rw [e]
    exact congrArg (Except.map Instr.uor) (parseSU_pay o h))

theorem uxor (o : SU) : Statement (.uxor o) :=
  trip_s rfl rfl rfl rfl rfl rfl (by decide) (paySU_lt o) (fun w h => by
    have e := opcode (by decide) (paySU_lt o) h
    unfold decodeS; rw [e]
    exact congrArg (Except.map Instr.uxor) (parseSU_pay o h))

theorem uminF (o : SU) : Statement (.uminF o) :=
  trip_s rfl rfl rfl rfl rfl rfl (by decide) (paySU_lt o) (fun w h => by
    have e := opcode (by decide) (paySU_lt o) h
    unfold decodeS; rw [e]
    exact congrArg (Except.map Instr.uminF) (parseSU_pay o h))

theorem umaxF (o : SU) : Statement (.umaxF o) :=
  trip_s rfl rfl rfl rfl rfl rfl (by decide) (paySU_lt o) (fun w h => by
    have e := opcode (by decide) (paySU_lt o) h
    unfold decodeS; rw [e]
    exact congrArg (Except.map Instr.umaxF) (parseSU_pay o h))

theorem fence (o : SF) : Statement (.fence o) :=
  trip_s rfl rfl rfl rfl rfl rfl (by decide) (paySF_lt o) (fun w h => by
    have e := opcode (by decide) (paySF_lt o) h
    unfold decodeS; rw [e]
    exact congrArg (Except.map Instr.fence) (parseSF_pay o h))

theorem tclr (o : STC) : Statement (.tclr o) :=
  trip_s rfl rfl rfl rfl rfl rfl (by decide) (paySTC_lt o) (fun w h => by
    have e := opcode (by decide) (paySTC_lt o) h
    unfold decodeS; rw [e]
    exact congrArg (Except.map Instr.tclr) (parseSTC_pay o h))

theorem tsync (o : SH) : Statement (.tsync o) :=
  trip_s rfl rfl rfl rfl rfl rfl (by decide) (paySH_lt o) (fun w h => by
    have e := opcode (by decide) (paySH_lt o) h
    unfold decodeS; rw [e]
    exact congrArg (Except.map Instr.tsync) (parseSH_pay o h))

theorem tquery (o : ST) : Statement (.tquery o) :=
  trip_s rfl rfl rfl rfl rfl rfl (by decide) (payST_lt o) (fun w h => by
    have e := opcode (by decide) (payST_lt o) h
    unfold decodeS; rw [e]
    exact congrArg (Except.map Instr.tquery) (parseST_pay o h))

theorem wfe : Statement .wfe :=
  trip_s rfl rfl rfl rfl rfl rfl (by decide) (by decide) (fun w h => by
    have e := opcode (k := 0) (c := 0x90) (pay := 0) (by decide) (by decide) h
    unfold decodeS; rw [e]
    exact parseNone_ok (k := 0) (c := 0x90) .wfe h)

theorem sev (o : S1) : Statement (.sev o) :=
  trip_s rfl rfl rfl rfl rfl rfl (by decide) (payS1_lt o) (fun w h => by
    have e := opcode (by decide) (payS1_lt o) h
    unfold decodeS; rw [e]
    exact congrArg (Except.map Instr.sev) (parseS1_pay o h))

theorem watch (o : S1) : Statement (.watch o) :=
  trip_s rfl rfl rfl rfl rfl rfl (by decide) (payS1_lt o) (fun w h => by
    have e := opcode (by decide) (payS1_lt o) h
    unfold decodeS; rw [e]
    exact congrArg (Except.map Instr.watch) (parseS1_pay o h))

theorem trap (o : SH) : Statement (.trap o) :=
  trip_s rfl rfl rfl rfl rfl rfl (by decide) (paySH_lt o) (fun w h => by
    have e := opcode (by decide) (paySH_lt o) h
    unfold decodeS; rw [e]
    exact congrArg (Except.map Instr.trap) (parseSH_pay o h))

theorem retu : Statement .retu :=
  trip_s rfl rfl rfl rfl rfl rfl (by decide) (by decide) (fun w h => by
    have e := opcode (k := 0) (c := 0x94) (pay := 0) (by decide) (by decide) h
    unfold decodeS; rw [e]
    exact parseNone_ok (k := 0) (c := 0x94) .retu h)

theorem cread (o : SW) : Statement (.cread o) :=
  trip_s rfl rfl rfl rfl rfl rfl (by decide) (paySW_lt o) (fun w h => by
    have e := opcode (by decide) (paySW_lt o) h
    unfold decodeS; rw [e]
    exact congrArg (Except.map Instr.cread) (parseSW_pay o h))

theorem cwrite (o : SW) : Statement (.cwrite o) := by
  show Trip _
  simp only [Trip, show (Instr.cwrite o).wordless = false from rfl]
  intro h stop
  have hf : crNamed o.n.toNat = false := by
    have : (Instr.cwrite o).formOk = true := by simp only [Instr.wf, Bool.and_eq_true] at h; exact h.1
    simpa [Instr.formOk, Instr.vr?] using this
  have hd : ∀ w : Syllable, w.toNat % 2 ^ 31 = 0 * 2 ^ 28 + 0x96 * 2 ^ 20 + paySW o → decodeS w none = .ok (.cwrite o) := by
    intro w h
    have e := opcode (by decide) (paySW_lt o) h
    have g : (field w 0 14).toNat = o.n.toNat := by
      have : field w 0 14 = BitVec.ofNat 14 o.n.toNat := fld h (by decide) (by simp [paySW]; omega)
      rw [this]; simp; omega
    have q : (parseSW w none).map Instr.cwrite = .ok (.cwrite o) := congrArg (Except.map Instr.cwrite) (parseSW_pay o h)
    unfold decodeS; rw [e]
    show (match (field w 0 14).toNat with
      | 0x106 => (parseSWF 0x106 w none).map Instr.mapreq
      | 0x105 => (parseSWF 0x105 w none).map Instr.pgrant
      | 0x027 => (parseSWF 0x27 w none).map Instr.watchRegister
      | 0x026 => (parseSWF 0x26 w none).map Instr.evlatchWrite
      | 0x020 => (parseSWF 0x20 w none).map Instr.trapbaseWrite
      | 0x038 => (parseSWF 0x38 w none).map Instr.lnctlWrite
      | _ => (parseSW w none).map Instr.cwrite) = _
    rw [g]
    split <;> first | exact q | (rename_i n; rw [n] at hf; exact absurd hf (by decide))
  rw [slotPos_plain rfl rfl rfl (by decide) (by decide) (paySW_lt o), encode_op rfl]
  exact op_round stop (by decide) (paySW_lt o) rfl h (fun w q => congrArg checkInstr (hd w q))
theorem mapreq (o : SWF) : Statement (.mapreq o) :=
  trip_s rfl rfl rfl rfl rfl rfl (by decide) (paySWF_lt_106 o) (fun w h => by
    have e := opcode (by decide) (paySWF_lt_106 o) h
    unfold decodeS; rw [e]
    have n : (field w 0 14).toNat = 0x106 := by
      have g : field w 0 14 = 0x106#14 := fld h (by decide) (by simp [paySWF]; omega)
      rw [g]; rfl
    show (match (field w 0 14).toNat with
      | 0x106 => (parseSWF 0x106 w none).map Instr.mapreq
      | 0x105 => (parseSWF 0x105 w none).map Instr.pgrant
      | 0x027 => (parseSWF 0x27 w none).map Instr.watchRegister
      | 0x026 => (parseSWF 0x26 w none).map Instr.evlatchWrite
      | 0x020 => (parseSWF 0x20 w none).map Instr.trapbaseWrite
      | 0x038 => (parseSWF 0x38 w none).map Instr.lnctlWrite
      | _ => (parseSW w none).map Instr.cwrite) = _
    rw [n]
    exact congrArg (Except.map Instr.mapreq) (parseSWF_pay_106 o h))

theorem pgrant (o : SWF) : Statement (.pgrant o) :=
  trip_s rfl rfl rfl rfl rfl rfl (by decide) (paySWF_lt_105 o) (fun w h => by
    have e := opcode (by decide) (paySWF_lt_105 o) h
    unfold decodeS; rw [e]
    have n : (field w 0 14).toNat = 0x105 := by
      have g : field w 0 14 = 0x105#14 := fld h (by decide) (by simp [paySWF]; omega)
      rw [g]; rfl
    show (match (field w 0 14).toNat with
      | 0x106 => (parseSWF 0x106 w none).map Instr.mapreq
      | 0x105 => (parseSWF 0x105 w none).map Instr.pgrant
      | 0x027 => (parseSWF 0x27 w none).map Instr.watchRegister
      | 0x026 => (parseSWF 0x26 w none).map Instr.evlatchWrite
      | 0x020 => (parseSWF 0x20 w none).map Instr.trapbaseWrite
      | 0x038 => (parseSWF 0x38 w none).map Instr.lnctlWrite
      | _ => (parseSW w none).map Instr.cwrite) = _
    rw [n]
    exact congrArg (Except.map Instr.pgrant) (parseSWF_pay_105 o h))

theorem watchRegister (o : SWF) : Statement (.watchRegister o) :=
  trip_s rfl rfl rfl rfl rfl rfl (by decide) (paySWF_lt_27 o) (fun w h => by
    have e := opcode (by decide) (paySWF_lt_27 o) h
    unfold decodeS; rw [e]
    have n : (field w 0 14).toNat = 0x27 := by
      have g : field w 0 14 = 0x27#14 := fld h (by decide) (by simp [paySWF]; omega)
      rw [g]; rfl
    show (match (field w 0 14).toNat with
      | 0x106 => (parseSWF 0x106 w none).map Instr.mapreq
      | 0x105 => (parseSWF 0x105 w none).map Instr.pgrant
      | 0x027 => (parseSWF 0x27 w none).map Instr.watchRegister
      | 0x026 => (parseSWF 0x26 w none).map Instr.evlatchWrite
      | 0x020 => (parseSWF 0x20 w none).map Instr.trapbaseWrite
      | 0x038 => (parseSWF 0x38 w none).map Instr.lnctlWrite
      | _ => (parseSW w none).map Instr.cwrite) = _
    rw [n]
    exact congrArg (Except.map Instr.watchRegister) (parseSWF_pay_27 o h))

theorem evlatchWrite (o : SWF) : Statement (.evlatchWrite o) :=
  trip_s rfl rfl rfl rfl rfl rfl (by decide) (paySWF_lt_26 o) (fun w h => by
    have e := opcode (by decide) (paySWF_lt_26 o) h
    unfold decodeS; rw [e]
    have n : (field w 0 14).toNat = 0x26 := by
      have g : field w 0 14 = 0x26#14 := fld h (by decide) (by simp [paySWF]; omega)
      rw [g]; rfl
    show (match (field w 0 14).toNat with
      | 0x106 => (parseSWF 0x106 w none).map Instr.mapreq
      | 0x105 => (parseSWF 0x105 w none).map Instr.pgrant
      | 0x027 => (parseSWF 0x27 w none).map Instr.watchRegister
      | 0x026 => (parseSWF 0x26 w none).map Instr.evlatchWrite
      | 0x020 => (parseSWF 0x20 w none).map Instr.trapbaseWrite
      | 0x038 => (parseSWF 0x38 w none).map Instr.lnctlWrite
      | _ => (parseSW w none).map Instr.cwrite) = _
    rw [n]
    exact congrArg (Except.map Instr.evlatchWrite) (parseSWF_pay_26 o h))

theorem trapbaseWrite (o : SWF) : Statement (.trapbaseWrite o) :=
  trip_s rfl rfl rfl rfl rfl rfl (by decide) (paySWF_lt_20 o) (fun w h => by
    have e := opcode (by decide) (paySWF_lt_20 o) h
    unfold decodeS; rw [e]
    have n : (field w 0 14).toNat = 0x20 := by
      have g : field w 0 14 = 0x20#14 := fld h (by decide) (by simp [paySWF]; omega)
      rw [g]; rfl
    show (match (field w 0 14).toNat with
      | 0x106 => (parseSWF 0x106 w none).map Instr.mapreq
      | 0x105 => (parseSWF 0x105 w none).map Instr.pgrant
      | 0x027 => (parseSWF 0x27 w none).map Instr.watchRegister
      | 0x026 => (parseSWF 0x26 w none).map Instr.evlatchWrite
      | 0x020 => (parseSWF 0x20 w none).map Instr.trapbaseWrite
      | 0x038 => (parseSWF 0x38 w none).map Instr.lnctlWrite
      | _ => (parseSW w none).map Instr.cwrite) = _
    rw [n]
    exact congrArg (Except.map Instr.trapbaseWrite) (parseSWF_pay_20 o h))

theorem lnctlWrite (o : SWF) : Statement (.lnctlWrite o) :=
  trip_s rfl rfl rfl rfl rfl rfl (by decide) (paySWF_lt_38 o) (fun w h => by
    have e := opcode (by decide) (paySWF_lt_38 o) h
    unfold decodeS; rw [e]
    have n : (field w 0 14).toNat = 0x38 := by
      have g : field w 0 14 = 0x38#14 := fld h (by decide) (by simp [paySWF]; omega)
      rw [g]; rfl
    show (match (field w 0 14).toNat with
      | 0x106 => (parseSWF 0x106 w none).map Instr.mapreq
      | 0x105 => (parseSWF 0x105 w none).map Instr.pgrant
      | 0x027 => (parseSWF 0x27 w none).map Instr.watchRegister
      | 0x026 => (parseSWF 0x26 w none).map Instr.evlatchWrite
      | 0x020 => (parseSWF 0x20 w none).map Instr.trapbaseWrite
      | 0x038 => (parseSWF 0x38 w none).map Instr.lnctlWrite
      | _ => (parseSW w none).map Instr.cwrite) = _
    rw [n]
    exact congrArg (Except.map Instr.lnctlWrite) (parseSWF_pay_38 o h))

theorem capr (o : SZ) : Statement (.capr o) :=
  trip_s rfl rfl rfl rfl rfl rfl (by decide) (paySZ_lt o) (fun w h => by
    have e := opcode (by decide) (paySZ_lt o) h
    unfold decodeS; rw [e]
    exact congrArg (Except.map Instr.capr) (parseSZ_pay o h))

theorem wpush (o : S2P) : Statement (.wpush o) :=
  trip_s rfl rfl rfl rfl rfl rfl (by decide) (payS2P_lt o) (fun w h => by
    have e := opcode (by decide) (payS2P_lt o) h
    unfold decodeS; rw [e]
    exact congrArg (Except.map Instr.wpush) (parseS2P_pay o h))

theorem wpushF (o : S2P) : Statement (.wpushF o) :=
  trip_s rfl rfl rfl rfl rfl rfl (by decide) (payS2P_lt o) (fun w h => by
    have e := opcode (by decide) (payS2P_lt o) h
    unfold decodeS; rw [e]
    exact congrArg (Except.map Instr.wpushF) (parseS2P_pay o h))

theorem wpop (o : S2) : Statement (.wpop o) :=
  trip_s rfl rfl rfl rfl rfl rfl (by decide) (payS2_lt o) (fun w h => by
    have e := opcode (by decide) (payS2_lt o) h
    unfold decodeS; rw [e]
    exact congrArg (Except.map Instr.wpop) (parseS2_pay o h))

theorem wpopW (o : S2) : Statement (.wpopW o) :=
  trip_s rfl rfl rfl rfl rfl rfl (by decide) (payS2_lt o) (fun w h => by
    have e := opcode (by decide) (payS2_lt o) h
    unfold decodeS; rw [e]
    exact congrArg (Except.map Instr.wpopW) (parseS2_pay o h))

theorem wdone : Statement .wdone :=
  trip_s rfl rfl rfl rfl rfl rfl (by decide) (by decide) (fun w h => by
    have e := opcode (k := 0) (c := 0xa4) (pay := 0) (by decide) (by decide) h
    unfold decodeS; rw [e]
    exact parseNone_ok (k := 0) (c := 0xa4) .wdone h)

theorem wdoneY (o : S1) : Statement (.wdoneY o) :=
  trip_s rfl rfl rfl rfl rfl rfl (by decide) (payS1_lt o) (fun w h => by
    have e := opcode (by decide) (payS1_lt o) h
    unfold decodeS; rw [e]
    exact congrArg (Except.map Instr.wdoneY) (parseS1_pay o h))

theorem whold (o : SH) : Statement (.whold o) :=
  trip_s rfl rfl rfl rfl rfl rfl (by decide) (paySH_lt o) (fun w h => by
    have e := opcode (by decide) (paySH_lt o) h
    unfold decodeS; rw [e]
    exact congrArg (Except.map Instr.whold) (parseSH_pay o h))

theorem wfloor (o : S1) : Statement (.wfloor o) :=
  trip_s rfl rfl rfl rfl rfl rfl (by decide) (payS1_lt o) (fun w h => by
    have e := opcode (by decide) (payS1_lt o) h
    unfold decodeS; rw [e]
    exact congrArg (Except.map Instr.wfloor) (parseS1_pay o h))

theorem wjoin (o : S1) : Statement (.wjoin o) :=
  trip_s rfl rfl rfl rfl rfl rfl (by decide) (payS1_lt o) (fun w h => by
    have e := opcode (by decide) (payS1_lt o) h
    unfold decodeS; rw [e]
    exact congrArg (Except.map Instr.wjoin) (parseS1_pay o h))

theorem wleave : Statement .wleave :=
  trip_s rfl rfl rfl rfl rfl rfl (by decide) (by decide) (fun w h => by
    have e := opcode (k := 0) (c := 0xa9) (pay := 0) (by decide) (by decide) h
    unfold decodeS; rw [e]
    exact parseNone_ok (k := 0) (c := 0xa9) .wleave h)

theorem launch (o : S1) : Statement (.launch o) :=
  trip_s rfl rfl rfl rfl rfl rfl (by decide) (payS1_lt o) (fun w h => by
    have e := opcode (by decide) (payS1_lt o) h
    unfold decodeS; rw [e]
    exact congrArg (Except.map Instr.launch) (parseS1_pay o h))

theorem phase (o : SH) : Statement (.phase o) :=
  trip_s rfl rfl rfl rfl rfl rfl (by decide) (paySH_lt o) (fun w h => by
    have e := opcode (by decide) (paySH_lt o) h
    unfold decodeS; rw [e]
    exact congrArg (Except.map Instr.phase) (parseSH_pay o h))

theorem cancelL (o : SH) : Statement (.cancelL o) :=
  trip_s rfl rfl rfl rfl rfl rfl (by decide) (paySH_lt o) (fun w h => by
    have e := opcode (by decide) (paySH_lt o) h
    unfold decodeS; rw [e]
    exact congrArg (Except.map Instr.cancelL) (parseSH_pay o h))

theorem cancelG (o : SH) : Statement (.cancelG o) :=
  trip_s rfl rfl rfl rfl rfl rfl (by decide) (paySH_lt o) (fun w h => by
    have e := opcode (by decide) (paySH_lt o) h
    unfold decodeS; rw [e]
    exact congrArg (Except.map Instr.cancelG) (parseSH_pay o h))

theorem cancelP (o : SH) : Statement (.cancelP o) :=
  trip_s rfl rfl rfl rfl rfl rfl (by decide) (paySH_lt o) (fun w h => by
    have e := opcode (by decide) (paySH_lt o) h
    unfold decodeS; rw [e]
    exact congrArg (Except.map Instr.cancelP) (parseSH_pay o h))

theorem cancelJ (o : SH) : Statement (.cancelJ o) :=
  trip_s rfl rfl rfl rfl rfl rfl (by decide) (paySH_lt o) (fun w h => by
    have e := opcode (by decide) (paySH_lt o) h
    unfold decodeS; rw [e]
    exact congrArg (Except.map Instr.cancelJ) (parseSH_pay o h))

theorem cwait (o : SH) : Statement (.cwait o) :=
  trip_s rfl rfl rfl rfl rfl rfl (by decide) (paySH_lt o) (fun w h => by
    have e := opcode (by decide) (paySH_lt o) h
    unfold decodeS; rw [e]
    exact congrArg (Except.map Instr.cwait) (parseSH_pay o h))

theorem gbar : Statement .gbar :=
  trip_s rfl rfl rfl rfl rfl rfl (by decide) (by decide) (fun w h => by
    have e := opcode (k := 0) (c := 0xb7) (pay := 0) (by decide) (by decide) h
    unfold decodeS; rw [e]
    exact parseNone_ok (k := 0) (c := 0xb7) .gbar h)

theorem tend : Statement .tend :=
  trip_s rfl rfl rfl rfl rfl rfl (by decide) (by decide) (fun w h => by
    have e := opcode (k := 0) (c := 0xb8) (pay := 0) (by decide) (by decide) h
    unfold decodeS; rw [e]
    exact parseNone_ok (k := 0) (c := 0xb8) .tend h)

theorem pdone : Statement .pdone :=
  trip_s rfl rfl rfl rfl rfl rfl (by decide) (by decide) (fun w h => by
    have e := opcode (k := 0) (c := 0xb9) (pay := 0) (by decide) (by decide) h
    unfold decodeS; rw [e]
    exact parseNone_ok (k := 0) (c := 0xb9) .pdone h)

theorem ldisc (o : SRD) : Statement (.ldisc o) :=
  trip_s rfl rfl rfl rfl rfl rfl (by decide) (paySRD_lt o) (fun w h => by
    have e := opcode (by decide) (paySRD_lt o) h
    unfold decodeS; rw [e]
    exact congrArg (Except.map Instr.ldisc) (parseSRD_pay o h))

theorem tlbinv (o : S1) : Statement (.tlbinv o) :=
  trip_s rfl rfl rfl rfl rfl rfl (by decide) (payS1_lt o) (fun w h => by
    have e := opcode (by decide) (payS1_lt o) h
    unfold decodeS; rw [e]
    exact congrArg (Except.map Instr.tlbinv) (parseS1_pay o h))

theorem vadd (o : VR) : Statement (.vadd o) :=
  trip_v rfl rfl rfl rfl rfl (by decide) (payVR_lt o) (fun w h => by
    have e := opcode (by decide) (payVR_lt o) h
    unfold decodeV; rw [e]
    exact congrArg (Except.map Instr.vadd) (parseVR_pay o h))

theorem vsub (o : VR) : Statement (.vsub o) :=
  trip_v rfl rfl rfl rfl rfl (by decide) (payVR_lt o) (fun w h => by
    have e := opcode (by decide) (payVR_lt o) h
    unfold decodeV; rw [e]
    exact congrArg (Except.map Instr.vsub) (parseVR_pay o h))

theorem vmul (o : VR) : Statement (.vmul o) :=
  trip_v rfl rfl rfl rfl rfl (by decide) (payVR_lt o) (fun w h => by
    have e := opcode (by decide) (payVR_lt o) h
    unfold decodeV; rw [e]
    exact congrArg (Except.map Instr.vmul) (parseVR_pay o h))

theorem vmulh (o : VR) : Statement (.vmulh o) :=
  trip_v rfl rfl rfl rfl rfl (by decide) (payVR_lt o) (fun w h => by
    have e := opcode (by decide) (payVR_lt o) h
    unfold decodeV; rw [e]
    exact congrArg (Except.map Instr.vmulh) (parseVR_pay o h))

theorem vmad (o : VR) : Statement (.vmad o) :=
  trip_v rfl rfl rfl rfl rfl (by decide) (payVR_lt o) (fun w h => by
    have e := opcode (by decide) (payVR_lt o) h
    unfold decodeV; rw [e]
    exact congrArg (Except.map Instr.vmad) (parseVR_pay o h))

theorem vmin (o : VR) : Statement (.vmin o) :=
  trip_v rfl rfl rfl rfl rfl (by decide) (payVR_lt o) (fun w h => by
    have e := opcode (by decide) (payVR_lt o) h
    unfold decodeV; rw [e]
    exact congrArg (Except.map Instr.vmin) (parseVR_pay o h))

theorem vmax (o : VR) : Statement (.vmax o) :=
  trip_v rfl rfl rfl rfl rfl (by decide) (payVR_lt o) (fun w h => by
    have e := opcode (by decide) (payVR_lt o) h
    unfold decodeV; rw [e]
    exact congrArg (Except.map Instr.vmax) (parseVR_pay o h))

theorem vabs (o : VR) : Statement (.vabs o) :=
  trip_v rfl rfl rfl rfl rfl (by decide) (payVR_lt o) (fun w h => by
    have e := opcode (by decide) (payVR_lt o) h
    unfold decodeV; rw [e]
    exact congrArg (Except.map Instr.vabs) (parseVR_pay o h))

theorem vneg (o : VR) : Statement (.vneg o) :=
  trip_v rfl rfl rfl rfl rfl (by decide) (payVR_lt o) (fun w h => by
    have e := opcode (by decide) (payVR_lt o) h
    unfold decodeV; rw [e]
    exact congrArg (Except.map Instr.vneg) (parseVR_pay o h))

theorem vand (o : VR) : Statement (.vand o) :=
  trip_v rfl rfl rfl rfl rfl (by decide) (payVR_lt o) (fun w h => by
    have e := opcode (by decide) (payVR_lt o) h
    unfold decodeV; rw [e]
    exact congrArg (Except.map Instr.vand) (parseVR_pay o h))

theorem vor (o : VR) : Statement (.vor o) :=
  trip_v rfl rfl rfl rfl rfl (by decide) (payVR_lt o) (fun w h => by
    have e := opcode (by decide) (payVR_lt o) h
    unfold decodeV; rw [e]
    exact congrArg (Except.map Instr.vor) (parseVR_pay o h))

theorem vxor (o : VR) : Statement (.vxor o) :=
  trip_v rfl rfl rfl rfl rfl (by decide) (payVR_lt o) (fun w h => by
    have e := opcode (by decide) (payVR_lt o) h
    unfold decodeV; rw [e]
    exact congrArg (Except.map Instr.vxor) (parseVR_pay o h))

theorem vshl (o : VR) : Statement (.vshl o) :=
  trip_v rfl rfl rfl rfl rfl (by decide) (payVR_lt o) (fun w h => by
    have e := opcode (by decide) (payVR_lt o) h
    unfold decodeV; rw [e]
    exact congrArg (Except.map Instr.vshl) (parseVR_pay o h))

theorem vshr (o : VR) : Statement (.vshr o) :=
  trip_v rfl rfl rfl rfl rfl (by decide) (payVR_lt o) (fun w h => by
    have e := opcode (by decide) (payVR_lt o) h
    unfold decodeV; rw [e]
    exact congrArg (Except.map Instr.vshr) (parseVR_pay o h))

theorem vsra (o : VR) : Statement (.vsra o) :=
  trip_v rfl rfl rfl rfl rfl (by decide) (payVR_lt o) (fun w h => by
    have e := opcode (by decide) (payVR_lt o) h
    unfold decodeV; rw [e]
    exact congrArg (Except.map Instr.vsra) (parseVR_pay o h))

theorem vadds (o : VR) : Statement (.vadds o) :=
  trip_v rfl rfl rfl rfl rfl (by decide) (payVR_lt o) (fun w h => by
    have e := opcode (by decide) (payVR_lt o) h
    unfold decodeV; rw [e]
    exact congrArg (Except.map Instr.vadds) (parseVR_pay o h))

theorem vsubs (o : VR) : Statement (.vsubs o) :=
  trip_v rfl rfl rfl rfl rfl (by decide) (payVR_lt o) (fun w h => by
    have e := opcode (by decide) (payVR_lt o) h
    unfold decodeV; rw [e]
    exact congrArg (Except.map Instr.vsubs) (parseVR_pay o h))

theorem vqshr (o : VR) : Statement (.vqshr o) :=
  trip_v rfl rfl rfl rfl rfl (by decide) (payVR_lt o) (fun w h => by
    have e := opcode (by decide) (payVR_lt o) h
    unfold decodeV; rw [e]
    exact congrArg (Except.map Instr.vqshr) (parseVR_pay o h))

theorem vdot2 (o : VR) : Statement (.vdot2 o) :=
  trip_v rfl rfl rfl rfl rfl (by decide) (payVR_lt o) (fun w h => by
    have e := opcode (by decide) (payVR_lt o) h
    unfold decodeV; rw [e]
    exact congrArg (Except.map Instr.vdot2) (parseVR_pay o h))

theorem vpack (o : VR) : Statement (.vpack o) :=
  trip_v rfl rfl rfl rfl rfl (by decide) (payVR_lt o) (fun w h => by
    have e := opcode (by decide) (payVR_lt o) h
    unfold decodeV; rw [e]
    exact congrArg (Except.map Instr.vpack) (parseVR_pay o h))

theorem vunpk (o : VR) : Statement (.vunpk o) :=
  trip_v rfl rfl rfl rfl rfl (by decide) (payVR_lt o) (fun w h => by
    have e := opcode (by decide) (payVR_lt o) h
    unfold decodeV; rw [e]
    exact congrArg (Except.map Instr.vunpk) (parseVR_pay o h))

theorem vsel (o : VR) : Statement (.vsel o) :=
  trip_v rfl rfl rfl rfl rfl (by decide) (payVR_lt o) (fun w h => by
    have e := opcode (by decide) (payVR_lt o) h
    unfold decodeV; rw [e]
    exact congrArg (Except.map Instr.vsel) (parseVR_pay o h))

theorem vcmpEq (o : VR) : Statement (.vcmpEq o) :=
  trip_v rfl rfl rfl rfl rfl (by decide) (payVR_lt o) (fun w h => by
    have e := opcode (by decide) (payVR_lt o) h
    unfold decodeV; rw [e]
    exact congrArg (Except.map Instr.vcmpEq) (parseVR_pay o h))

theorem vcmpNe (o : VR) : Statement (.vcmpNe o) :=
  trip_v rfl rfl rfl rfl rfl (by decide) (payVR_lt o) (fun w h => by
    have e := opcode (by decide) (payVR_lt o) h
    unfold decodeV; rw [e]
    exact congrArg (Except.map Instr.vcmpNe) (parseVR_pay o h))

theorem vcmpLt (o : VR) : Statement (.vcmpLt o) :=
  trip_v rfl rfl rfl rfl rfl (by decide) (payVR_lt o) (fun w h => by
    have e := opcode (by decide) (payVR_lt o) h
    unfold decodeV; rw [e]
    exact congrArg (Except.map Instr.vcmpLt) (parseVR_pay o h))

theorem vcmpLtu (o : VR) : Statement (.vcmpLtu o) :=
  trip_v rfl rfl rfl rfl rfl (by decide) (payVR_lt o) (fun w h => by
    have e := opcode (by decide) (payVR_lt o) h
    unfold decodeV; rw [e]
    exact congrArg (Except.map Instr.vcmpLtu) (parseVR_pay o h))

theorem vcmpGe (o : VR) : Statement (.vcmpGe o) :=
  trip_v rfl rfl rfl rfl rfl (by decide) (payVR_lt o) (fun w h => by
    have e := opcode (by decide) (payVR_lt o) h
    unfold decodeV; rw [e]
    exact congrArg (Except.map Instr.vcmpGe) (parseVR_pay o h))

theorem vcmpGeu (o : VR) : Statement (.vcmpGeu o) :=
  trip_v rfl rfl rfl rfl rfl (by decide) (payVR_lt o) (fun w h => by
    have e := opcode (by decide) (payVR_lt o) h
    unfold decodeV; rw [e]
    exact congrArg (Except.map Instr.vcmpGeu) (parseVR_pay o h))

theorem vredAdd (o : VR) : Statement (.vredAdd o) :=
  trip_v rfl rfl rfl rfl rfl (by decide) (payVR_lt o) (fun w h => by
    have e := opcode (by decide) (payVR_lt o) h
    unfold decodeV; rw [e]
    exact congrArg (Except.map Instr.vredAdd) (parseVR_pay o h))

theorem vredMin (o : VR) : Statement (.vredMin o) :=
  trip_v rfl rfl rfl rfl rfl (by decide) (payVR_lt o) (fun w h => by
    have e := opcode (by decide) (payVR_lt o) h
    unfold decodeV; rw [e]
    exact congrArg (Except.map Instr.vredMin) (parseVR_pay o h))

theorem vredMax (o : VR) : Statement (.vredMax o) :=
  trip_v rfl rfl rfl rfl rfl (by decide) (payVR_lt o) (fun w h => by
    have e := opcode (by decide) (payVR_lt o) h
    unfold decodeV; rw [e]
    exact congrArg (Except.map Instr.vredMax) (parseVR_pay o h))

theorem vnop (o : VN) : Statement (.vnop o) :=
  trip_v rfl rfl rfl rfl rfl (by decide) (payVN_lt o) (fun w h => by
    have e := opcode (by decide) (payVN_lt o) h
    unfold decodeV; rw [e]
    exact congrArg (Except.map Instr.vnop) (parseVN_pay o h))

theorem fadd (o : VR) : Statement (.fadd o) :=
  trip_v rfl rfl rfl rfl rfl (by decide) (payVR_lt o) (fun w h => by
    have e := opcode (by decide) (payVR_lt o) h
    unfold decodeV; rw [e]
    exact congrArg (Except.map Instr.fadd) (parseVR_pay o h))

theorem fsub (o : VR) : Statement (.fsub o) :=
  trip_v rfl rfl rfl rfl rfl (by decide) (payVR_lt o) (fun w h => by
    have e := opcode (by decide) (payVR_lt o) h
    unfold decodeV; rw [e]
    exact congrArg (Except.map Instr.fsub) (parseVR_pay o h))

theorem fmul (o : VR) : Statement (.fmul o) :=
  trip_v rfl rfl rfl rfl rfl (by decide) (payVR_lt o) (fun w h => by
    have e := opcode (by decide) (payVR_lt o) h
    unfold decodeV; rw [e]
    exact congrArg (Except.map Instr.fmul) (parseVR_pay o h))

theorem ffma (o : VR) : Statement (.ffma o) :=
  trip_v rfl rfl rfl rfl rfl (by decide) (payVR_lt o) (fun w h => by
    have e := opcode (by decide) (payVR_lt o) h
    unfold decodeV; rw [e]
    exact congrArg (Except.map Instr.ffma) (parseVR_pay o h))

theorem fmin (o : VR) : Statement (.fmin o) :=
  trip_v rfl rfl rfl rfl rfl (by decide) (payVR_lt o) (fun w h => by
    have e := opcode (by decide) (payVR_lt o) h
    unfold decodeV; rw [e]
    exact congrArg (Except.map Instr.fmin) (parseVR_pay o h))

theorem fmax (o : VR) : Statement (.fmax o) :=
  trip_v rfl rfl rfl rfl rfl (by decide) (payVR_lt o) (fun w h => by
    have e := opcode (by decide) (payVR_lt o) h
    unfold decodeV; rw [e]
    exact congrArg (Except.map Instr.fmax) (parseVR_pay o h))

theorem fabs (o : VR) : Statement (.fabs o) :=
  trip_v rfl rfl rfl rfl rfl (by decide) (payVR_lt o) (fun w h => by
    have e := opcode (by decide) (payVR_lt o) h
    unfold decodeV; rw [e]
    exact congrArg (Except.map Instr.fabs) (parseVR_pay o h))

theorem fneg (o : VR) : Statement (.fneg o) :=
  trip_v rfl rfl rfl rfl rfl (by decide) (payVR_lt o) (fun w h => by
    have e := opcode (by decide) (payVR_lt o) h
    unfold decodeV; rw [e]
    exact congrArg (Except.map Instr.fneg) (parseVR_pay o h))

theorem fcmpEq (o : VR) : Statement (.fcmpEq o) :=
  trip_v rfl rfl rfl rfl rfl (by decide) (payVR_lt o) (fun w h => by
    have e := opcode (by decide) (payVR_lt o) h
    unfold decodeV; rw [e]
    exact congrArg (Except.map Instr.fcmpEq) (parseVR_pay o h))

theorem fcmpNe (o : VR) : Statement (.fcmpNe o) :=
  trip_v rfl rfl rfl rfl rfl (by decide) (payVR_lt o) (fun w h => by
    have e := opcode (by decide) (payVR_lt o) h
    unfold decodeV; rw [e]
    exact congrArg (Except.map Instr.fcmpNe) (parseVR_pay o h))

theorem fcmpLt (o : VR) : Statement (.fcmpLt o) :=
  trip_v rfl rfl rfl rfl rfl (by decide) (payVR_lt o) (fun w h => by
    have e := opcode (by decide) (payVR_lt o) h
    unfold decodeV; rw [e]
    exact congrArg (Except.map Instr.fcmpLt) (parseVR_pay o h))

theorem fcmpLe (o : VR) : Statement (.fcmpLe o) :=
  trip_v rfl rfl rfl rfl rfl (by decide) (payVR_lt o) (fun w h => by
    have e := opcode (by decide) (payVR_lt o) h
    unfold decodeV; rw [e]
    exact congrArg (Except.map Instr.fcmpLe) (parseVR_pay o h))

theorem fcmpUn (o : VR) : Statement (.fcmpUn o) :=
  trip_v rfl rfl rfl rfl rfl (by decide) (payVR_lt o) (fun w h => by
    have e := opcode (by decide) (payVR_lt o) h
    unfold decodeV; rw [e]
    exact congrArg (Except.map Instr.fcmpUn) (parseVR_pay o h))

theorem fcvt (o : VR) : Statement (.fcvt o) :=
  trip_v rfl rfl rfl rfl rfl (by decide) (payVR_lt o) (fun w h => by
    have e := opcode (by decide) (payVR_lt o) h
    unfold decodeV; rw [e]
    exact congrArg (Except.map Instr.fcvt) (parseVR_pay o h))

theorem fdiv (o : VR) : Statement (.fdiv o) :=
  trip_v rfl rfl rfl rfl rfl (by decide) (payVR_lt o) (fun w h => by
    have e := opcode (by decide) (payVR_lt o) h
    unfold decodeV; rw [e]
    exact congrArg (Except.map Instr.fdiv) (parseVR_pay o h))

theorem fred (o : VR) : Statement (.fred o) :=
  trip_v rfl rfl rfl rfl rfl (by decide) (payVR_lt o) (fun w h => by
    have e := opcode (by decide) (payVR_lt o) h
    unfold decodeV; rw [e]
    exact congrArg (Except.map Instr.fred) (parseVR_pay o h))

theorem fexp (o : VR) : Statement (.fexp o) :=
  trip_v rfl rfl rfl rfl rfl (by decide) (payVR_lt o) (fun w h => by
    have e := opcode (by decide) (payVR_lt o) h
    unfold decodeV; rw [e]
    exact congrArg (Except.map Instr.fexp) (parseVR_pay o h))

theorem fexp2 (o : VR) : Statement (.fexp2 o) :=
  trip_v rfl rfl rfl rfl rfl (by decide) (payVR_lt o) (fun w h => by
    have e := opcode (by decide) (payVR_lt o) h
    unfold decodeV; rw [e]
    exact congrArg (Except.map Instr.fexp2) (parseVR_pay o h))

theorem flog (o : VR) : Statement (.flog o) :=
  trip_v rfl rfl rfl rfl rfl (by decide) (payVR_lt o) (fun w h => by
    have e := opcode (by decide) (payVR_lt o) h
    unfold decodeV; rw [e]
    exact congrArg (Except.map Instr.flog) (parseVR_pay o h))

theorem flog2 (o : VR) : Statement (.flog2 o) :=
  trip_v rfl rfl rfl rfl rfl (by decide) (payVR_lt o) (fun w h => by
    have e := opcode (by decide) (payVR_lt o) h
    unfold decodeV; rw [e]
    exact congrArg (Except.map Instr.flog2) (parseVR_pay o h))

theorem fsin (o : VR) : Statement (.fsin o) :=
  trip_v rfl rfl rfl rfl rfl (by decide) (payVR_lt o) (fun w h => by
    have e := opcode (by decide) (payVR_lt o) h
    unfold decodeV; rw [e]
    exact congrArg (Except.map Instr.fsin) (parseVR_pay o h))

theorem fcos (o : VR) : Statement (.fcos o) :=
  trip_v rfl rfl rfl rfl rfl (by decide) (payVR_lt o) (fun w h => by
    have e := opcode (by decide) (payVR_lt o) h
    unfold decodeV; rw [e]
    exact congrArg (Except.map Instr.fcos) (parseVR_pay o h))

theorem ftanh (o : VR) : Statement (.ftanh o) :=
  trip_v rfl rfl rfl rfl rfl (by decide) (payVR_lt o) (fun w h => by
    have e := opcode (by decide) (payVR_lt o) h
    unfold decodeV; rw [e]
    exact congrArg (Except.map Instr.ftanh) (parseVR_pay o h))

theorem fsigm (o : VR) : Statement (.fsigm o) :=
  trip_v rfl rfl rfl rfl rfl (by decide) (payVR_lt o) (fun w h => by
    have e := opcode (by decide) (payVR_lt o) h
    unfold decodeV; rw [e]
    exact congrArg (Except.map Instr.fsigm) (parseVR_pay o h))

theorem ferf (o : VR) : Statement (.ferf o) :=
  trip_v rfl rfl rfl rfl rfl (by decide) (payVR_lt o) (fun w h => by
    have e := opcode (by decide) (payVR_lt o) h
    unfold decodeV; rw [e]
    exact congrArg (Except.map Instr.ferf) (parseVR_pay o h))

theorem frcp (o : VR) : Statement (.frcp o) :=
  trip_v rfl rfl rfl rfl rfl (by decide) (payVR_lt o) (fun w h => by
    have e := opcode (by decide) (payVR_lt o) h
    unfold decodeV; rw [e]
    exact congrArg (Except.map Instr.frcp) (parseVR_pay o h))

theorem frsq (o : VR) : Statement (.frsq o) :=
  trip_v rfl rfl rfl rfl rfl (by decide) (payVR_lt o) (fun w h => by
    have e := opcode (by decide) (payVR_lt o) h
    unfold decodeV; rw [e]
    exact congrArg (Except.map Instr.frsq) (parseVR_pay o h))

theorem fsqrt (o : VR) : Statement (.fsqrt o) :=
  trip_v rfl rfl rfl rfl rfl (by decide) (payVR_lt o) (fun w h => by
    have e := opcode (by decide) (payVR_lt o) h
    unfold decodeV; rw [e]
    exact congrArg (Except.map Instr.fsqrt) (parseVR_pay o h))

theorem xsadd (o : VR) : Statement (.xsadd o) :=
  trip_v rfl rfl rfl rfl rfl (by decide) (payVR_lt o) (fun w h => by
    have e := opcode (by decide) (payVR_lt o) h
    unfold decodeV; rw [e]
    exact congrArg (Except.map Instr.xsadd) (parseVR_pay o h))

theorem xsfold (o : VR) : Statement (.xsfold o) :=
  trip_v rfl rfl rfl rfl rfl (by decide) (payVR_lt o) (fun w h => by
    have e := opcode (by decide) (payVR_lt o) h
    unfold decodeV; rw [e]
    exact congrArg (Except.map Instr.xsfold) (parseVR_pay o h))

theorem xsround (o : VR) : Statement (.xsround o) :=
  trip_v rfl rfl rfl rfl rfl (by decide) (payVR_lt o) (fun w h => by
    have e := opcode (by decide) (payVR_lt o) h
    unfold decodeV; rw [e]
    exact congrArg (Except.map Instr.xsround) (parseVR_pay o h))

theorem xpmul (o : VR) : Statement (.xpmul o) :=
  trip_v rfl rfl rfl rfl rfl (by decide) (payVR_lt o) (fun w h => by
    have e := opcode (by decide) (payVR_lt o) h
    unfold decodeV; rw [e]
    exact congrArg (Except.map Instr.xpmul) (parseVR_pay o h))

theorem xpadd (o : VR) : Statement (.xpadd o) :=
  trip_v rfl rfl rfl rfl rfl (by decide) (payVR_lt o) (fun w h => by
    have e := opcode (by decide) (payVR_lt o) h
    unfold decodeV; rw [e]
    exact congrArg (Except.map Instr.xpadd) (parseVR_pay o h))

theorem xpround (o : VR) : Statement (.xpround o) :=
  trip_v rfl rfl rfl rfl rfl (by decide) (payVR_lt o) (fun w h => by
    have e := opcode (by decide) (payVR_lt o) h
    unfold decodeV; rw [e]
    exact congrArg (Except.map Instr.xpround) (parseVR_pay o h))

theorem vmxq (o : VR) : Statement (.vmxq o) :=
  trip_v rfl rfl rfl rfl rfl (by decide) (payVR_lt o) (fun w h => by
    have e := opcode (by decide) (payVR_lt o) h
    unfold decodeV; rw [e]
    exact congrArg (Except.map Instr.vmxq) (parseVR_pay o h))

theorem vmxd (o : VR) : Statement (.vmxd o) :=
  trip_v rfl rfl rfl rfl rfl (by decide) (payVR_lt o) (fun w h => by
    have e := opcode (by decide) (payVR_lt o) h
    unfold decodeV; rw [e]
    exact congrArg (Except.map Instr.vmxd) (parseVR_pay o h))

theorem vshuf (o : VR) : Statement (.vshuf o) :=
  trip_v rfl rfl rfl rfl rfl (by decide) (payVR_lt o) (fun w h => by
    have e := opcode (by decide) (payVR_lt o) h
    unfold decodeV; rw [e]
    exact congrArg (Except.map Instr.vshuf) (parseVR_pay o h))

theorem vpld (o : VR) : Statement (.vpld o) :=
  trip_v rfl rfl rfl rfl rfl (by decide) (payVR_lt o) (fun w h => by
    have e := opcode (by decide) (payVR_lt o) h
    unfold decodeV; rw [e]
    exact congrArg (Except.map Instr.vpld) (parseVR_pay o h))

theorem vpsw (o : VN) : Statement (.vpsw o) :=
  trip_v rfl rfl rfl rfl rfl (by decide) (payVN_lt o) (fun w h => by
    have e := opcode (by decide) (payVN_lt o) h
    unfold decodeV; rw [e]
    exact congrArg (Except.map Instr.vpsw) (parseVN_pay o h))

theorem vbcst (o : VR) : Statement (.vbcst o) :=
  trip_v rfl rfl rfl rfl rfl (by decide) (payVR_lt o) (fun w h => by
    have e := opcode (by decide) (payVR_lt o) h
    unfold decodeV; rw [e]
    exact congrArg (Except.map Instr.vbcst) (parseVR_pay o h))

theorem mand (o : VR) : Statement (.mand o) :=
  trip_v rfl rfl rfl rfl rfl (by decide) (payVR_lt o) (fun w h => by
    have e := opcode (by decide) (payVR_lt o) h
    unfold decodeV; rw [e]
    exact congrArg (Except.map Instr.mand) (parseVR_pay o h))

theorem mor (o : VR) : Statement (.mor o) :=
  trip_v rfl rfl rfl rfl rfl (by decide) (payVR_lt o) (fun w h => by
    have e := opcode (by decide) (payVR_lt o) h
    unfold decodeV; rw [e]
    exact congrArg (Except.map Instr.mor) (parseVR_pay o h))

theorem mnot (o : VR) : Statement (.mnot o) :=
  trip_v rfl rfl rfl rfl rfl (by decide) (payVR_lt o) (fun w h => by
    have e := opcode (by decide) (payVR_lt o) h
    unfold decodeV; rw [e]
    exact congrArg (Except.map Instr.mnot) (parseVR_pay o h))

theorem mpop (o : VR) : Statement (.mpop o) :=
  trip_v rfl rfl rfl rfl rfl (by decide) (payVR_lt o) (fun w h => by
    have e := opcode (by decide) (payVR_lt o) h
    unfold decodeV; rw [e]
    exact congrArg (Except.map Instr.mpop) (parseVR_pay o h))

theorem vldp (o : VM) : Statement (.vldp o) :=
  trip_v rfl rfl rfl rfl rfl (by decide) (payVM_lt o) (fun w h => by
    have e := opcode (by decide) (payVM_lt o) h
    unfold decodeV; rw [e]
    have g : field w 0 2 = 0#2 := fld h (by decide) (by simp [payVM]; omega)
    have n : (field w 0 2 == 1) = false := by rw [g]; rfl
    have m : (field w 0 2 == 0) = true := by rw [g]; rfl
    show (if (field w 0 2 == 1) = true then (parseVM o.v 0x1 w (extVM o)).map Instr.vldpDec
      else if (field w 0 2 == 0) = true then (parseVM o.v 0 w (extVM o)).map Instr.vldp else reservedX o.v w (extVM o)) = _
    rw [n, m]
    exact congrArg (Except.map Instr.vldp) (parseVM_pay_0 o h))

theorem vldpDec (o : VM) : Statement (.vldpDec o) :=
  trip_v rfl rfl rfl rfl rfl (by decide) (payVM_lt_1 o) (fun w h => by
    have e := opcode (by decide) (payVM_lt_1 o) h
    unfold decodeV; rw [e]
    have n : (field w 0 2 == 1) = true := by
      have g : field w 0 2 = 1#2 := fld h (by decide) (by simp [payVM]; omega)
      rw [g]; rfl
    show (if (field w 0 2 == 1) = true then (parseVM o.v 0x1 w (extVM o)).map Instr.vldpDec
      else if (field w 0 2 == 0) = true then (parseVM o.v 0 w (extVM o)).map Instr.vldp else reservedX o.v w (extVM o)) = _
    rw [n]
    exact congrArg (Except.map Instr.vldpDec) (parseVM_pay_1 o h))

theorem vstp (o : VM) : Statement (.vstp o) :=
  trip_v rfl rfl rfl rfl rfl (by decide) (payVM_lt o) (fun w h => by
    have e := opcode (by decide) (payVM_lt o) h
    unfold decodeV; rw [e]
    exact congrArg (Except.map Instr.vstp) (parseVM_pay_0 o h))

theorem vld (o : VM) : Statement (.vld o) :=
  trip_v rfl rfl rfl rfl rfl (by decide) (payVM_lt o) (fun w h => by
    have e := opcode (by decide) (payVM_lt o) h
    unfold decodeV; rw [e]
    exact congrArg (Except.map Instr.vld) (parseVM_pay_0 o h))

theorem vst (o : VM) : Statement (.vst o) :=
  trip_v rfl rfl rfl rfl rfl (by decide) (payVM_lt o) (fun w h => by
    have e := opcode (by decide) (payVM_lt o) h
    unfold decodeV; rw [e]
    exact congrArg (Except.map Instr.vst) (parseVM_pay_0 o h))

theorem vgath (o : VM) : Statement (.vgath o) :=
  trip_v rfl rfl rfl rfl rfl (by decide) (payVM_lt o) (fun w h => by
    have e := opcode (by decide) (payVM_lt o) h
    unfold decodeV; rw [e]
    exact congrArg (Except.map Instr.vgath) (parseVM_pay_0 o h))

theorem vscat (o : VM) : Statement (.vscat o) :=
  trip_v rfl rfl rfl rfl rfl (by decide) (payVM_lt o) (fun w h => by
    have e := opcode (by decide) (payVM_lt o) h
    unfold decodeV; rw [e]
    exact congrArg (Except.map Instr.vscat) (parseVM_pay_0 o h))

theorem mmaBf16 (o : MA) : Statement (.mmaBf16 o) :=
  trip_m rfl rfl rfl rfl rfl rfl (by decide) (payMA_lt o) (fun w h => by
    have e := opcode (by decide) (payMA_lt o) h
    unfold decodeM; rw [e]
    exact congrArg (Except.map Instr.mmaBf16) (parseMA_pay o h))

theorem mmaF8 (o : MA) : Statement (.mmaF8 o) :=
  trip_m rfl rfl rfl rfl rfl rfl (by decide) (payMA_lt o) (fun w h => by
    have e := opcode (by decide) (payMA_lt o) h
    unfold decodeM; rw [e]
    exact congrArg (Except.map Instr.mmaF8) (parseMA_pay o h))

theorem mmaE2m1 (o : MA) : Statement (.mmaE2m1 o) :=
  trip_m rfl rfl rfl rfl rfl rfl (by decide) (payMA_lt o) (fun w h => by
    have e := opcode (by decide) (payMA_lt o) h
    unfold decodeM; rw [e]
    exact congrArg (Except.map Instr.mmaE2m1) (parseMA_pay o h))

theorem mmaI8 (o : MA) : Statement (.mmaI8 o) :=
  trip_m rfl rfl rfl rfl rfl rfl (by decide) (payMA_lt o) (fun w h => by
    have e := opcode (by decide) (payMA_lt o) h
    unfold decodeM; rw [e]
    exact congrArg (Except.map Instr.mmaI8) (parseMA_pay o h))

theorem mmaI6 (o : MA) : Statement (.mmaI6 o) :=
  trip_m rfl rfl rfl rfl rfl rfl (by decide) (payMA_lt o) (fun w h => by
    have e := opcode (by decide) (payMA_lt o) h
    unfold decodeM; rw [e]
    exact congrArg (Except.map Instr.mmaI6) (parseMA_pay o h))

theorem mmaI4 (o : MA) : Statement (.mmaI4 o) :=
  trip_m rfl rfl rfl rfl rfl rfl (by decide) (payMA_lt o) (fun w h => by
    have e := opcode (by decide) (payMA_lt o) h
    unfold decodeM; rw [e]
    exact congrArg (Except.map Instr.mmaI4) (parseMA_pay o h))

theorem mmasBf16 (o : MAS) : Statement (.mmasBf16 o) :=
  trip_m rfl rfl rfl rfl rfl rfl (by decide) (payMAS_lt o) (fun w h => by
    have e := opcode (by decide) (payMAS_lt o) h
    unfold decodeM; rw [e]
    exact congrArg (Except.map Instr.mmasBf16) (parseMAS_pay o h))

theorem mmasF8 (o : MAS) : Statement (.mmasF8 o) :=
  trip_m rfl rfl rfl rfl rfl rfl (by decide) (payMAS_lt o) (fun w h => by
    have e := opcode (by decide) (payMAS_lt o) h
    unfold decodeM; rw [e]
    exact congrArg (Except.map Instr.mmasF8) (parseMAS_pay o h))

theorem mmasE2m1 (o : MAS) : Statement (.mmasE2m1 o) :=
  trip_m rfl rfl rfl rfl rfl rfl (by decide) (payMAS_lt o) (fun w h => by
    have e := opcode (by decide) (payMAS_lt o) h
    unfold decodeM; rw [e]
    exact congrArg (Except.map Instr.mmasE2m1) (parseMAS_pay o h))

theorem mmasI8 (o : MAS) : Statement (.mmasI8 o) :=
  trip_m rfl rfl rfl rfl rfl rfl (by decide) (payMAS_lt o) (fun w h => by
    have e := opcode (by decide) (payMAS_lt o) h
    unfold decodeM; rw [e]
    exact congrArg (Except.map Instr.mmasI8) (parseMAS_pay o h))

theorem mmasI4 (o : MAS) : Statement (.mmasI4 o) :=
  trip_m rfl rfl rfl rfl rfl rfl (by decide) (payMAS_lt o) (fun w h => by
    have e := opcode (by decide) (payMAS_lt o) h
    unfold decodeM; rw [e]
    exact congrArg (Except.map Instr.mmasI4) (parseMAS_pay o h))

theorem mzero (o : MZ) : Statement (.mzero o) :=
  trip_m rfl rfl rfl rfl rfl rfl (by decide) (payMZ_lt o) (fun w h => by
    have e := opcode (by decide) (payMZ_lt o) h
    unfold decodeM; rw [e]
    exact congrArg (Except.map Instr.mzero) (parseMZ_pay o h))

theorem mload (o : MLD) : Statement (.mload o) :=
  trip_m rfl rfl rfl rfl rfl rfl (by decide) (payMLD_lt o) (fun w h => by
    have e := opcode (by decide) (payMLD_lt o) h
    unfold decodeM; rw [e]
    exact congrArg (Except.map Instr.mload) (parseMLD_pay o h))

theorem madd (o : MT) : Statement (.madd o) :=
  trip_m rfl rfl rfl rfl rfl rfl (by decide) (payMT_lt o) (fun w h => by
    have e := opcode (by decide) (payMT_lt o) h
    unfold decodeM; rw [e]
    exact congrArg (Except.map Instr.madd) (parseMT_pay o h))

theorem mcopy (o : MT) : Statement (.mcopy o) :=
  trip_m rfl rfl rfl rfl rfl rfl (by decide) (payMT_lt o) (fun w h => by
    have e := opcode (by decide) (payMT_lt o) h
    unfold decodeM; rw [e]
    exact congrArg (Except.map Instr.mcopy) (parseMT_pay o h))

theorem mtrn (o : MT) : Statement (.mtrn o) :=
  trip_m rfl rfl rfl rfl rfl rfl (by decide) (payMT_lt o) (fun w h => by
    have e := opcode (by decide) (payMT_lt o) h
    unfold decodeM; rw [e]
    exact congrArg (Except.map Instr.mtrn) (parseMT_pay o h))

theorem mrot (o : MG) : Statement (.mrot o) :=
  trip_m rfl rfl rfl rfl rfl rfl (by decide) (payMG_lt o) (fun w h => by
    have e := opcode (by decide) (payMG_lt o) h
    unfold decodeM; rw [e]
    exact congrArg (Except.map Instr.mrot) (parseMG_pay o h))

theorem mdrain (o : MG) : Statement (.mdrain o) :=
  trip_m rfl rfl rfl rfl rfl rfl (by decide) (payMG_lt o) (fun w h => by
    have e := opcode (by decide) (payMG_lt o) h
    unfold decodeM; rw [e]
    exact congrArg (Except.map Instr.mdrain) (parseMG_pay o h))

theorem mdrainx (o : MGX) : Statement (.mdrainx o) :=
  trip_m rfl rfl rfl rfl rfl rfl (by decide) (payMGX_lt o) (fun w h => by
    have e := opcode (by decide) (payMGX_lt o) h
    unfold decodeM; rw [e]
    exact congrArg (Except.map Instr.mdrainx) (parseMGX_pay o h))

theorem gset (o : MD) : Statement (.gset o) :=
  trip_m rfl rfl rfl rfl rfl rfl (by decide) (payMD_lt o) (fun w h => by
    have e := opcode (by decide) (payMD_lt o) h
    unfold decodeM; rw [e]
    exact congrArg (Except.map Instr.gset) (parseMD_pay o h))

theorem gget (o : MD) : Statement (.gget o) :=
  trip_m rfl rfl rfl rfl rfl rfl (by decide) (payMD_lt o) (fun w h => by
    have e := opcode (by decide) (payMD_lt o) h
    unfold decodeM; rw [e]
    exact congrArg (Except.map Instr.gget) (parseMD_pay o h))

theorem mcap (o : MK) : Statement (.mcap o) :=
  trip_m rfl rfl rfl rfl rfl rfl (by decide) (payMK_lt o) (fun w h => by
    have e := opcode (by decide) (payMK_lt o) h
    unfold decodeM; rw [e]
    exact congrArg (Except.map Instr.mcap) (parseMK_pay o h))

theorem mwait : Statement .mwait :=
  trip_m rfl rfl rfl rfl rfl rfl (by decide) (by decide) (fun w h => by
    have e := opcode (k := 2) (c := 0x1b) (pay := 0) (by decide) (by decide) h
    unfold decodeM; rw [e]
    exact parseNone_ok (k := 2) (c := 0x1b) .mwait h)

theorem xmovSv (o : CX) : Statement (.xmovSv o) :=
  trip_c rfl rfl rfl rfl rfl rfl (by decide) (payCX_lt o) (fun w h => by
    have e := opcode (by decide) (payCX_lt o) h
    unfold decodeC; rw [e]
    exact congrArg (Except.map Instr.xmovSv) (parseCX_pay o h))

theorem xmovVs (o : CX) : Statement (.xmovVs o) :=
  trip_c rfl rfl rfl rfl rfl rfl (by decide) (payCX_lt o) (fun w h => by
    have e := opcode (by decide) (payCX_lt o) h
    unfold decodeC; rw [e]
    exact congrArg (Except.map Instr.xmovVs) (parseCX_pay o h))

theorem xmovVw (o : CX0) : Statement (.xmovVw o) :=
  trip_c rfl rfl rfl rfl rfl rfl (by decide) (payCX0_lt o) (fun w h => by
    have e := opcode (by decide) (payCX0_lt o) h
    unfold decodeC; rw [e]
    exact congrArg (Except.map Instr.xmovVw) (parseCX0_pay o h))

theorem xmovWv (o : CX0) : Statement (.xmovWv o) :=
  trip_c rfl rfl rfl rfl rfl rfl (by decide) (payCX0_lt o) (fun w h => by
    have e := opcode (by decide) (payCX0_lt o) h
    unfold decodeC; rw [e]
    exact congrArg (Except.map Instr.xmovWv) (parseCX0_pay o h))

theorem xmovSc (o : CX0) : Statement (.xmovSc o) :=
  trip_c rfl rfl rfl rfl rfl rfl (by decide) (payCX0_lt o) (fun w h => by
    have e := opcode (by decide) (payCX0_lt o) h
    unfold decodeC; rw [e]
    exact congrArg (Except.map Instr.xmovSc) (parseCX0_pay o h))

theorem xmovCs (o : CX0) : Statement (.xmovCs o) :=
  trip_c rfl rfl rfl rfl rfl rfl (by decide) (payCX0_lt o) (fun w h => by
    have e := opcode (by decide) (payCX0_lt o) h
    unfold decodeC; rw [e]
    exact congrArg (Except.map Instr.xmovCs) (parseCX0_pay o h))

theorem xmovSd (o : CX0) : Statement (.xmovSd o) :=
  trip_c rfl rfl rfl rfl rfl rfl (by decide) (payCX0_lt o) (fun w h => by
    have e := opcode (by decide) (payCX0_lt o) h
    unfold decodeC; rw [e]
    exact congrArg (Except.map Instr.xmovSd) (parseCX0_pay o h))

theorem xmovDs (o : CX0) : Statement (.xmovDs o) :=
  trip_c rfl rfl rfl rfl rfl rfl (by decide) (payCX0_lt o) (fun w h => by
    have e := opcode (by decide) (payCX0_lt o) h
    unfold decodeC; rw [e]
    exact congrArg (Except.map Instr.xmovDs) (parseCX0_pay o h))

theorem xmovZv (o : CZ) : Statement (.xmovZv o) :=
  trip_c rfl rfl rfl rfl rfl rfl (by decide) (payCZ_lt o) (fun w h => by
    have e := opcode (by decide) (payCZ_lt o) h
    unfold decodeC; rw [e]
    exact congrArg (Except.map Instr.xmovZv) (parseCZ_pay o h))

theorem xmovVz (o : CZ) : Statement (.xmovVz o) :=
  trip_c rfl rfl rfl rfl rfl rfl (by decide) (payCZ_lt o) (fun w h => by
    have e := opcode (by decide) (payCZ_lt o) h
    unfold decodeC; rw [e]
    exact congrArg (Except.map Instr.xmovVz) (parseCZ_pay o h))

theorem xmovKv (o : CXK) : Statement (.xmovKv o) :=
  trip_c rfl rfl rfl rfl rfl rfl (by decide) (payCXK_lt o) (fun w h => by
    have e := opcode (by decide) (payCXK_lt o) h
    unfold decodeC; rw [e]
    exact congrArg (Except.map Instr.xmovKv) (parseCXK_pay o h))

theorem cadd (o : CA) : Statement (.cadd o) :=
  trip_c rfl rfl rfl rfl rfl rfl (by decide) (payCA_lt o) (fun w h => by
    have e := opcode (by decide) (payCA_lt o) h
    unfold decodeC; rw [e]
    exact congrArg (Except.map Instr.cadd) (parseCA_pay o h))

theorem cmovi (o : CM) : Statement (.cmovi o) :=
  trip_c rfl rfl rfl rfl rfl rfl (by decide) (payCM_lt o) (fun w h => by
    have e := opcode (by decide) (payCM_lt o) h
    unfold decodeC; rw [e]
    exact congrArg (Except.map Instr.cmovi) (parseCM_pay o h))

theorem clea (o : CE) : Statement (.clea o) :=
  trip_c rfl rfl rfl rfl rfl rfl (by decide) (payCE_lt o) (fun w h => by
    have e := opcode (by decide) (payCE_lt o) h
    unfold decodeC; rw [e]
    exact congrArg (Except.map Instr.clea) (parseCE_pay o h))

theorem tlook (o : CT2) : Statement (.tlook o) :=
  trip_c rfl rfl rfl rfl rfl rfl (by decide) (payCT2_lt o) (fun w h => by
    have e := opcode (by decide) (payCT2_lt o) h
    unfold decodeC; rw [e]
    exact congrArg (Except.map Instr.tlook) (parseCT2_pay o h))

theorem tins (o : CTI) : Statement (.tins o) :=
  trip_c rfl rfl rfl rfl rfl rfl (by decide) (payCTI_lt o) (fun w h => by
    have e := opcode (by decide) (payCTI_lt o) h
    unfold decodeC; rw [e]
    exact congrArg (Except.map Instr.tins) (parseCTI_pay o h))

theorem tdel (o : CTD) : Statement (.tdel o) :=
  trip_c rfl rfl rfl rfl rfl rfl (by decide) (payCTD_lt o) (fun w h => by
    have e := opcode (by decide) (payCTD_lt o) h
    unfold decodeC; rw [e]
    exact congrArg (Except.map Instr.tdel) (parseCTD_pay o h))

theorem tscan (o : CT2) : Statement (.tscan o) :=
  trip_c rfl rfl rfl rfl rfl rfl (by decide) (payCT2_lt o) (fun w h => by
    have e := opcode (by decide) (payCT2_lt o) h
    unfold decodeC; rw [e]
    exact congrArg (Except.map Instr.tscan) (parseCT2_pay o h))

theorem bfmtRead (o : CTB) : Statement (.bfmtRead o) :=
  trip_c rfl rfl rfl rfl rfl rfl (by decide) (payCTB_lt o) (fun w h => by
    have e := opcode (by decide) (payCTB_lt o) h
    unfold decodeC; rw [e]
    have n : (field w 7 1 == 1) = false := by
      have g : field w 7 1 = 0#1 := fld h (by decide) (by simp [payCTB]; omega)
      rw [g]; rfl
    show (if (field w 7 1 == 1) = true then (parseCTB o.v 0x80 w none).map Instr.bfmtWrite else (parseCTB o.v 0 w none).map Instr.bfmtRead) = _
    rw [n]
    exact congrArg (Except.map Instr.bfmtRead) (parseCTB_pay_0 o h))

theorem bfmtWrite (o : CTB) : Statement (.bfmtWrite o) :=
  trip_c rfl rfl rfl rfl rfl rfl (by decide) (payCTB_lt_80 o) (fun w h => by
    have e := opcode (by decide) (payCTB_lt_80 o) h
    unfold decodeC; rw [e]
    have n : (field w 7 1 == 1) = true := by
      have g : field w 7 1 = 1#1 := fld h (by decide) (by simp [payCTB]; omega)
      rw [g]; rfl
    show (if (field w 7 1 == 1) = true then (parseCTB o.v 0x80 w none).map Instr.bfmtWrite else (parseCTB o.v 0 w none).map Instr.bfmtRead) = _
    rw [n]
    exact congrArg (Except.map Instr.bfmtWrite) (parseCTB_pay_80 o h))

theorem pcarve (o : CN) : Statement (.pcarve o) :=
  trip_c rfl rfl rfl rfl rfl rfl (by decide) (payCN_lt o) (fun w h => by
    have e := opcode (by decide) (payCN_lt o) h
    unfold decodeC; rw [e]
    exact congrArg (Except.map Instr.pcarve) (parseCN_pay o h))

theorem cnop (o : CN) : Statement (.cnop o) :=
  trip_c rfl rfl rfl rfl rfl rfl (by decide) (payCN_lt o) (fun w h => by
    have e := opcode (by decide) (payCN_lt o) h
    unfold decodeC; rw [e]
    exact congrArg (Except.map Instr.cnop) (parseCN_pay o h))

theorem qcopy (o : CQ) : Statement (.qcopy o) :=
  trip_c rfl rfl rfl rfl rfl rfl (by decide) (payCQ_lt o) (fun w h => by
    have e := opcode (by decide) (payCQ_lt o) h
    unfold decodeC; rw [e]
    exact congrArg (Except.map Instr.qcopy) (parseCQ_pay o h))

theorem qgath (o : CQ) : Statement (.qgath o) :=
  trip_c rfl rfl rfl rfl rfl rfl (by decide) (payCQ_lt o) (fun w h => by
    have e := opcode (by decide) (payCQ_lt o) h
    unfold decodeC; rw [e]
    exact congrArg (Except.map Instr.qgath) (parseCQ_pay o h))

theorem qscat (o : CQ) : Statement (.qscat o) :=
  trip_c rfl rfl rfl rfl rfl rfl (by decide) (payCQ_lt o) (fun w h => by
    have e := opcode (by decide) (payCQ_lt o) h
    unfold decodeC; rw [e]
    exact congrArg (Except.map Instr.qscat) (parseCQ_pay o h))

theorem qdec (o : CQ) : Statement (.qdec o) :=
  trip_c rfl rfl rfl rfl rfl rfl (by decide) (payCQ_lt o) (fun w h => by
    have e := opcode (by decide) (payCQ_lt o) h
    unfold decodeC; rw [e]
    exact congrArg (Except.map Instr.qdec) (parseCQ_pay o h))

theorem qack (o : CWA) : Statement (.qack o) :=
  trip_c rfl rfl rfl rfl rfl rfl (by decide) (payCWA_lt o) (fun w h => by
    have e := opcode (by decide) (payCWA_lt o) h
    unfold decodeC; rw [e]
    exact congrArg (Except.map Instr.qack) (parseCWA_pay o h))

theorem qcollContribute (o : CQ) : Statement (.qcollContribute o) :=
  trip_c rfl rfl rfl rfl rfl rfl (by decide) (payCQ_lt o) (fun w h => by
    have e := opcode (by decide) (payCQ_lt o) h
    unfold decodeC; rw [e]
    exact congrArg (Except.map Instr.qcollContribute) (parseCQ_pay o h))

theorem qcollDestination (o : CQ) : Statement (.qcollDestination o) :=
  trip_c rfl rfl rfl rfl rfl rfl (by decide) (payCQ_lt o) (fun w h => by
    have e := opcode (by decide) (payCQ_lt o) h
    unfold decodeC; rw [e]
    exact congrArg (Except.map Instr.qcollContribute) (parseCQ_pay o h))

theorem qput (o : CQ) : Statement (.qput o) :=
  trip_c rfl rfl rfl rfl rfl rfl (by decide) (payCQ_lt o) (fun w h => by
    have e := opcode (by decide) (payCQ_lt o) h
    unfold decodeC; rw [e]
    exact congrArg (Except.map Instr.qput) (parseCQ_pay o h))

theorem qputs (o : CQ) : Statement (.qputs o) :=
  trip_c rfl rfl rfl rfl rfl rfl (by decide) (payCQ_lt o) (fun w h => by
    have e := opcode (by decide) (payCQ_lt o) h
    unfold decodeC; rw [e]
    exact congrArg (Except.map Instr.qputs) (parseCQ_pay o h))

theorem qputm (o : CQ) : Statement (.qputm o) :=
  trip_c rfl rfl rfl rfl rfl rfl (by decide) (payCQ_lt o) (fun w h => by
    have e := opcode (by decide) (payCQ_lt o) h
    unfold decodeC; rw [e]
    exact congrArg (Except.map Instr.qputm) (parseCQ_pay o h))

theorem qget (o : CQ) : Statement (.qget o) :=
  trip_c rfl rfl rfl rfl rfl rfl (by decide) (payCQ_lt o) (fun w h => by
    have e := opcode (by decide) (payCQ_lt o) h
    unfold decodeC; rw [e]
    exact congrArg (Except.map Instr.qget) (parseCQ_pay o h))

theorem qcel (o : CQ) : Statement (.qcel o) :=
  trip_c rfl rfl rfl rfl rfl rfl (by decide) (payCQ_lt o) (fun w h => by
    have e := opcode (by decide) (payCQ_lt o) h
    unfold decodeC; rw [e]
    exact congrArg (Except.map Instr.qcel) (parseCQ_pay o h))

theorem qfence (o : CWF) : Statement (.qfence o) :=
  trip_c rfl rfl rfl rfl rfl rfl (by decide) (payCWF_lt o) (fun w h => by
    have e := opcode (by decide) (payCWF_lt o) h
    unfold decodeC; rw [e]
    exact congrArg (Except.map Instr.qfence) (parseCWF_pay o h))

theorem qwait (o : CW) : Statement (.qwait o) :=
  trip_c rfl rfl rfl rfl rfl rfl (by decide) (payCW_lt o) (fun w h => by
    have e := opcode (by decide) (payCW_lt o) h
    unfold decodeC; rw [e]
    exact congrArg (Except.map Instr.qwait) (parseCW_pay o h))

theorem qstat (o : CW) : Statement (.qstat o) :=
  trip_c rfl rfl rfl rfl rfl rfl (by decide) (payCW_lt o) (fun w h => by
    have e := opcode (by decide) (payCW_lt o) h
    unfold decodeC; rw [e]
    exact congrArg (Except.map Instr.qstat) (parseCW_pay o h))

theorem qirqRestart (o : CW) : Statement (.qirqRestart o) :=
  trip_c rfl rfl rfl rfl rfl rfl (by decide) (payCW_lt o) (fun w h => by
    have e := opcode (by decide) (payCW_lt o) h
    unfold decodeC; rw [e]
    exact congrArg (Except.map Instr.qirqRestart) (parseCW_pay o h))

theorem qirqDiscard (o : CW) : Statement (.qirqDiscard o) :=
  trip_c rfl rfl rfl rfl rfl rfl (by decide) (payCW_lt o) (fun w h => by
    have e := opcode (by decide) (payCW_lt o) h
    unfold decodeC; rw [e]
    exact congrArg (Except.map Instr.qirqRestart) (parseCW_pay o h))

theorem qirqMark (o : CW) : Statement (.qirqMark o) :=
  trip_c rfl rfl rfl rfl rfl rfl (by decide) (payCW_lt o) (fun w h => by
    have e := opcode (by decide) (payCW_lt o) h
    unfold decodeC; rw [e]
    exact congrArg (Except.map Instr.qirqRestart) (parseCW_pay o h))

theorem unassignedOpcode (w : Syllable) : Statement (.unassignedOpcode w) := of_wordless rfl (fun _ => rfl)

theorem bar2Resize (fn : Fin 9) (log : Nat) : Statement (.bar2Resize fn log) := of_wordless rfl (fun _ => rfl)

theorem boundedResultWrite : Statement .boundedResultWrite := of_wordless rfl (fun _ => rfl)

theorem last_mapped {α β : Type} (f : α → β) (g : α → α) (h : ∀ x, f (g x) = f x) (xs : List α) :
    (xs.dropLast ++ xs.getLast?.toList.map g).map f = xs.map f := by
  rcases List.eq_nil_or_concat xs with rfl | ⟨l, a, rfl⟩
  · rfl
  · simp [h]

theorem field_mark (x : Syllable) (stop : Bool) (lo len : Nat) (hl : lo + len ≤ 31) : field (x ||| mark stop) lo len = field x lo len := by
  have h : (x ||| mark stop).toNat % 2 ^ 31 = x.toNat % 2 ^ 31 := by
    cases stop
    · simp [mark]
    · simp only [mark, if_true, stopBit, BitVec.toNat_or]
      rw [Nat.or_mod_two_pow]; simp
  have low : x.toNat % 2 ^ 31 / 2 ^ lo % 2 ^ len = (field x lo len).toNat := by
    rw [fld (v := BitVec.ofNat len (x.toNat % 2 ^ 31 / 2 ^ lo)) rfl hl (by simp)]; simp
  exact fld h hl low

theorem btree (t : Tree) : Statement (.btree t) := by
  show Trip _
  simp only [Trip, show (Instr.btree t).wordless = false from rfl]
  intro h stop
  have hf : (Instr.btree t).formOk = true := by simp only [Instr.wf, Bool.and_eq_true] at h; exact h.1
  have e : encode (.btree t) stop = BitVec.ofNat 32
      (6 * 2 ^ 28 + t.shape.toNat * 2 ^ 26 + t.nt.toNat * 2 ^ 24 + t.p0.toNat * 2 ^ 20 + t.p1.toNat * 2 ^ 16
        + t.p2.toNat * 2 ^ 12 + t.p3.toNat * 2 ^ 8 + t.pol.toNat * 2 ^ 4) ::
      ((t.offs.map (fun x => extWord (BitVec.ofNat 28 x.toNat))).dropLast ++
        (t.offs.map (fun x => extWord (BitVec.ofNat 28 x.toNat))).getLast?.toList.map (fun x => x ||| mark stop)) := rfl
  rw [e]
  generalize hw : (BitVec.ofNat 32 _ : Syllable) = w
  have hl : w.toNat % 2 ^ 31 = 6 * 2 ^ 28 + t.shape.toNat * 2 ^ 26 + t.nt.toNat * 2 ^ 24 + t.p0.toNat * 2 ^ 20 + t.p1.toNat * 2 ^ 16
        + t.p2.toNat * 2 ^ 12 + t.p3.toNat * 2 ^ 8 + t.pol.toNat * 2 ^ 4 := by
    rw [← hw]; simp; omega
  have k : field w 28 3 = 6 := fld hl (by decide) (by simp; omega)
  have z : zeroAt w 0 4 = true := zfld hl (by decide) (by omega)
  have a0 : field w 26 2 = t.shape := fld hl (by decide) (by omega)
  have a1 : field w 24 2 = t.nt := fld hl (by decide) (by omega)
  have a2 : field w 20 4 = t.p0 := fld hl (by decide) (by omega)
  have a3 : field w 16 4 = t.p1 := fld hl (by decide) (by omega)
  have a4 : field w 12 4 = t.p2 := fld hl (by decide) (by omega)
  have a5 : field w 8 4 = t.p3 := fld hl (by decide) (by omega)
  have a6 : field w 4 4 = t.pol := fld hl (by decide) (by omega)
  have ek (x : Syllable) (hx : x ∈ t.offs.map (fun y => extWord (BitVec.ofNat 28 y.toNat))) : field x 28 3 = 5 := by
    obtain ⟨y, -, rfl⟩ := List.mem_map.mp hx
    have := ext_kind (BitVec.ofNat 28 y.toNat) false
    simpa [mark] using this
  have em (f : BitVec 3) : ∀ x : Syllable, field (x ||| mark stop) 28 3 = field x 28 3 := fun x => field_mark x stop 28 3 (by decide)
  have eb : ∀ x : Syllable, field (x ||| mark stop) 0 28 = field x 0 28 := fun x => field_mark x stop 0 28 (by decide)
  have all5 : (((t.offs.map (fun x => extWord (BitVec.ofNat 28 x.toNat))).dropLast ++
        (t.offs.map (fun x => extWord (BitVec.ofNat 28 x.toNat))).getLast?.toList.map (fun x => x ||| mark stop)).map (fun x => field x 28 3)) =
      (t.offs.map (fun x => extWord (BitVec.ofNat 28 x.toNat))).map (fun x => field x 28 3) :=
    last_mapped _ _ (em 0) _
  have bits28 := last_mapped (fun x : Syllable => field x 0 28) (fun x => x ||| mark stop) eb (t.offs.map (fun x => extWord (BitVec.ofNat 28 x.toNat)))
  have allk : (((t.offs.map (fun x => extWord (BitVec.ofNat 28 x.toNat))).dropLast ++
        (t.offs.map (fun x => extWord (BitVec.ofNat 28 x.toNat))).getLast?.toList.map (fun x => x ||| mark stop)).all (fun x => field x 28 3 == 5)) = true := by
    have q (l : List Syllable) : l.all (fun x => field x 28 3 == 5) = (l.map (fun x => field x 28 3)).all (fun v => v == 5) := by simp [List.all_map]; rfl
    rw [q, all5, ← q]
    exact List.all_eq_true.mpr (fun x hx => by simp [ek x hx])
  have offs : ((t.offs.map (fun x => extWord (BitVec.ofNat 28 x.toNat))).map (fun x => field x 0 28)) = t.offs.map (fun x => BitVec.ofNat 28 x.toNat) := by
    rw [List.map_map]
    refine List.map_congr_left (fun x _ => ?_)
    have := ext_bits (BitVec.ofNat 28 x.toNat) false
    simpa [mark] using this
  have x24 (x : BitVec 24) : field (BitVec.ofNat 28 x.toNat : BitVec 28) 0 24 = x := efld (x := x.toNat) (by simp; omega) (by omega)
  have z24 (x : BitVec 24) : zeroAt (BitVec.ofNat 28 x.toNat : BitVec 28) 24 4 = true := ezfld (x := x.toNat) (by simp; omega) (by omega)
  have offs' : (t.offs.map (fun x => BitVec.ofNat 28 x.toNat)).map (fun e => field e 0 24) = t.offs := by
    rw [List.map_map]
    exact (List.map_congr_left (fun x _ => x24 x)).trans (List.map_id _)
  have zs : (t.offs.map (fun x => BitVec.ofNat 28 x.toNat)).all (fun e => zeroAt e 24 4) = true :=
    List.all_eq_true.mpr (fun e he => by obtain ⟨x, -, rfl⟩ := List.mem_map.mp he; exact z24 x)
  rw [offs] at bits28
  simp only [decodeSyllables, allk, k, bits28]
  simp only [decodeTree, a0, a1, a2, a3, a4, a5, a6, offs', z, zs, hf]
  rfl

end Sys2Proof.Laws.Encoding
end

