-- ==== Sys2Proof/Laws/State.lean ====
section
/-!
SUPPORT. The fields of the state and of a core after each named update, one lemma for each, so that no proof unfolds a record update.
-/
namespace Sys2Proof.Machine

/-! After State.begun -/

@[simp] theorem State.begun_parked (s : State) : s.begun.parked = s.parked := rfl
@[simp] theorem State.begun_mem (s : State) : s.begun.mem = s.mem := rfl
@[simp] theorem State.begun_larder (s : State) : s.begun.larder = s.larder := rfl
@[simp] theorem State.begun_reduce (s : State) : s.begun.reduce = s.reduce := rfl
@[simp] theorem State.begun_pantry (s : State) : s.begun.pantry = s.pantry := rfl
@[simp] theorem State.begun_fns (s : State) : s.begun.fns = s.fns := rfl
@[simp] theorem State.begun_dist (s : State) : s.begun.dist = s.dist := rfl
@[simp] theorem State.begun_sessions (s : State) : s.begun.sessions = s.sessions := rfl
@[simp] theorem State.begun_fabric (s : State) : s.begun.fabric = s.fabric := rfl
@[simp] theorem State.begun_ladders (s : State) : s.begun.ladders = s.ladders := rfl
@[simp] theorem State.begun_service (s : State) : s.begun.service = s.service := rfl
@[simp] theorem State.begun_meas (s : State) : s.begun.meas = s.meas := rfl
@[simp] theorem State.begun_library (s : State) : s.begun.library = s.library := rfl
@[simp] theorem State.begun_l2 (s : State) : s.begun.l2 = s.l2 := rfl
@[simp] theorem State.begun_bar2Out (s : State) : s.begun.bar2Out = s.bar2Out := rfl
@[simp] theorem State.begun_inputs (s : State) : s.begun.inputs = s.inputs := rfl
@[simp] theorem State.begun_fresh (s : State) : s.begun.fresh = s.fresh := rfl
@[simp] theorem State.begun_powered (s : State) : s.begun.powered = s.powered := rfl
@[simp] theorem State.begun_core_id (s : State) : s.begun.core.id = s.core.id := rfl
@[simp] theorem State.begun_core_run (s : State) : s.begun.core.run = s.core.run := rfl
@[simp] theorem State.begun_core_task (s : State) : s.begun.core.task = s.core.task := rfl
@[simp] theorem State.begun_core_kern (s : State) : s.begun.core.kern = s.core.kern := rfl
@[simp] theorem State.begun_core_pc (s : State) : s.begun.core.pc = s.core.pc := rfl
@[simp] theorem State.begun_core_npc (s : State) : s.begun.core.npc = s.core.npc := rfl
@[simp] theorem State.begun_core_xfer (s : State) : s.begun.core.xfer = s.core.xfer := rfl
@[simp] theorem State.begun_core_taken (s : State) : s.begun.core.taken = s.core.taken := rfl
@[simp] theorem State.begun_core_level (s : State) : s.begun.core.level = s.core.level := rfl
@[simp] theorem State.begun_core_handler (s : State) : s.begun.core.handler = s.core.handler := rfl
@[simp] theorem State.begun_core_sup (s : State) : s.begun.core.sup = s.core.sup := rfl
@[simp] theorem State.begun_core_regs (s : State) : s.begun.core.regs = s.core.regs := rfl
@[simp] theorem State.begun_core_maps (s : State) : s.begun.core.maps = s.core.maps := rfl
@[simp] theorem State.begun_core_frames (s : State) : s.begun.core.frames = s.core.frames := rfl
@[simp] theorem State.begun_core_spilled (s : State) : s.begun.core.spilled = s.core.spilled := rfl
@[simp] theorem State.begun_core_rets (s : State) : s.begun.core.rets = s.core.rets := rfl
@[simp] theorem State.begun_core_cr (s : State) : s.begun.core.cr = s.core.cr := rfl
@[simp] theorem State.begun_core_events (s : State) : s.begun.core.events = s.core.events := rfl
@[simp] theorem State.begun_core_cycle (s : State) : s.begun.core.cycle = s.core.cycle := rfl
@[simp] theorem State.begun_core_cur (s : State) : s.begun.core.cur = s.core.cur := rfl
@[simp] theorem State.begun_core_defer (s : State) : s.begun.core.defer = s.core.defer := rfl
@[simp] theorem State.begun_core_leaf (s : State) : s.begun.core.leaf = s.core.leaf := rfl
@[simp] theorem State.begun_core_flights (s : State) : s.begun.core.flights = s.core.flights := rfl
@[simp] theorem State.begun_core_tflights (s : State) : s.begun.core.tflights = s.core.tflights := rfl
@[simp] theorem State.begun_core_pflights (s : State) : s.begun.core.pflights = s.core.pflights := rfl
@[simp] theorem State.begun_core_drains (s : State) : s.begun.core.drains = s.core.drains := rfl
@[simp] theorem State.begun_core_reads (s : State) : s.begun.core.reads = s.core.reads := rfl
@[simp] theorem State.begun_core_mFree (s : State) : s.begun.core.mFree = s.core.mFree := rfl
@[simp] theorem State.begun_core_order (s : State) : s.begun.core.order = s.core.order := rfl
@[simp] theorem State.begun_core_l1 (s : State) : s.begun.core.l1 = s.core.l1 := rfl
@[simp] theorem State.begun_core_upd (s : State) : s.begun.core.upd = s.core.upd := rfl
@[simp] theorem State.begun_core_tlb (s : State) : s.begun.core.tlb = s.core.tlb := rfl
@[simp] theorem State.begun_core_specials (s : State) : s.begun.core.specials = s.core.specials := rfl
@[simp] theorem State.begun_core_steered (s : State) : s.begun.core.steered = s.core.steered := rfl
@[simp] theorem State.begun_core_queues (s : State) : s.begun.core.queues = s.core.queues := rfl
@[simp] theorem State.begun_core_ring (s : State) : s.begun.core.ring = s.core.ring := rfl
@[simp] theorem State.begun_core_tiles (s : State) : s.begun.core.tiles = s.core.tiles := rfl
@[simp] theorem State.begun_core_patterns (s : State) : s.begun.core.patterns = s.core.patterns := rfl
@[simp] theorem State.begun_core_patBank (s : State) : s.begun.core.patBank = s.core.patBank := rfl
@[simp] theorem State.begun_core_tags (s : State) : s.begun.core.tags = s.core.tags := rfl
@[simp] theorem State.begun_core_hand (s : State) : s.begun.core.hand = s.core.hand := rfl
@[simp] theorem State.begun_core_tagged (s : State) : s.begun.core.tagged = s.core.tagged := rfl
@[simp] theorem State.begun_core_bfmt (s : State) : s.begun.core.bfmt = s.core.bfmt := rfl
@[simp] theorem State.begun_core_carve (s : State) : s.begun.core.carve = s.core.carve := rfl
@[simp] theorem State.begun_core_deferred (s : State) : s.begun.core.deferred = s.core.deferred := rfl
@[simp] theorem State.begun_core_emul (s : State) : s.begun.core.emul = s.core.emul := rfl
@[simp] theorem State.begun_core_serving (s : State) : s.begun.core.serving = s.core.serving := rfl
@[simp] theorem State.begun_core_preempt (s : State) : s.begun.core.preempt = s.core.preempt := rfl
@[simp] theorem State.begun_core_watchPa (s : State) : s.begun.core.watchPa = s.core.watchPa := rfl
@[simp] theorem State.begun_core_faults (s : State) : s.begun.core.faults = s.core.faults := rfl
@[simp] theorem State.begun_core_arrivals (s : State) : s.begun.core.arrivals = s.core.arrivals := rfl
@[simp] theorem State.begun_core_gbars (s : State) : s.begun.core.gbars = s.core.gbars := rfl
@[simp] theorem State.begun_core_asleep (s : State) : s.begun.core.asleep = s.core.asleep := rfl
@[simp] theorem State.begun_core_uepc0 (s : State) : s.begun.core.uepc0 = s.core.uepc0 := rfl
@[simp] theorem State.begun_core_sepc0 (s : State) : s.begun.core.sepc0 = s.core.sepc0 := rfl
@[simp] theorem State.begun_core_rpc (s : State) : s.begun.core.rpc = s.core.rpc := rfl
@[simp] theorem State.begun_core_uxfer (s : State) : s.begun.core.uxfer = s.core.uxfer := rfl
@[simp] theorem State.begun_core_sxfer (s : State) : s.begun.core.sxfer = s.core.sxfer := rfl
@[simp] theorem State.begun_core_rxfer (s : State) : s.begun.core.rxfer = s.core.rxfer := rfl
@[simp] theorem State.begun_core_owed (s : State) : s.begun.core.owed = s.core.owed := rfl
@[simp] theorem State.begun_core_restore (s : State) : s.begun.core.restore = s.core.restore := rfl
@[simp] theorem State.begun_core_savePend (s : State) : s.begun.core.savePend = s.core.savePend := rfl
@[simp] theorem State.begun_core_forced (s : State) : s.begun.core.forced = s.core.forced := rfl
@[simp] theorem State.begun_core_resumedStub (s : State) : s.begun.core.resumedStub = s.core.resumedStub := rfl
@[simp] theorem State.begun_core_tileBase (s : State) : s.begun.core.tileBase = s.core.tileBase := rfl
@[simp] theorem State.begun_core_entryFrames (s : State) : s.begun.core.entryFrames = s.core.entryFrames := rfl
@[simp] theorem State.begun_core_session (s : State) : s.begun.core.session = s.core.session := rfl
@[simp] theorem State.begun_core_discarded (s : State) : s.begun.core.discarded = s.core.discarded := rfl
@[simp] theorem State.begun_core_born (s : State) : s.begun.core.born = s.core.born := rfl
@[simp] theorem State.begun_core_endPc (s : State) : s.begun.core.endPc = s.core.endPc := rfl
@[simp] theorem State.begun_core_waitRun (s : State) : s.begun.core.waitRun = s.core.waitRun := rfl
@[simp] theorem State.begun_core_firm (s : State) : s.begun.core.firm = s.core.firm := rfl
@[simp] theorem State.begun_core_pads (s : State) : s.begun.core.pads = s.core.pads := rfl

/-! After State.leaves -/

@[simp] theorem State.leaves_parked (s : State) (es : List Effect) : (s.leaves es).parked = s.parked := rfl
@[simp] theorem State.leaves_mem (s : State) (es : List Effect) : (s.leaves es).mem = s.mem := rfl
@[simp] theorem State.leaves_larder (s : State) (es : List Effect) : (s.leaves es).larder = s.larder := rfl
@[simp] theorem State.leaves_reduce (s : State) (es : List Effect) : (s.leaves es).reduce = s.reduce := rfl
@[simp] theorem State.leaves_pantry (s : State) (es : List Effect) : (s.leaves es).pantry = s.pantry := rfl
@[simp] theorem State.leaves_fns (s : State) (es : List Effect) : (s.leaves es).fns = s.fns := rfl
@[simp] theorem State.leaves_dist (s : State) (es : List Effect) : (s.leaves es).dist = s.dist := rfl
@[simp] theorem State.leaves_sessions (s : State) (es : List Effect) : (s.leaves es).sessions = s.sessions := rfl
@[simp] theorem State.leaves_fabric (s : State) (es : List Effect) : (s.leaves es).fabric = s.fabric := rfl
@[simp] theorem State.leaves_ladders (s : State) (es : List Effect) : (s.leaves es).ladders = s.ladders := rfl
@[simp] theorem State.leaves_service (s : State) (es : List Effect) : (s.leaves es).service = s.service := rfl
@[simp] theorem State.leaves_meas (s : State) (es : List Effect) : (s.leaves es).meas = s.meas := rfl
@[simp] theorem State.leaves_library (s : State) (es : List Effect) : (s.leaves es).library = s.library := rfl
@[simp] theorem State.leaves_l2 (s : State) (es : List Effect) : (s.leaves es).l2 = s.l2 := rfl
@[simp] theorem State.leaves_bar2Out (s : State) (es : List Effect) : (s.leaves es).bar2Out = s.bar2Out := rfl
@[simp] theorem State.leaves_inputs (s : State) (es : List Effect) : (s.leaves es).inputs = s.inputs := rfl
@[simp] theorem State.leaves_fresh (s : State) (es : List Effect) : (s.leaves es).fresh = s.fresh := rfl
@[simp] theorem State.leaves_powered (s : State) (es : List Effect) : (s.leaves es).powered = s.powered := rfl
@[simp] theorem State.leaves_core_id (s : State) (es : List Effect) : (s.leaves es).core.id = s.core.id := rfl
@[simp] theorem State.leaves_core_run (s : State) (es : List Effect) : (s.leaves es).core.run = s.core.run := rfl
@[simp] theorem State.leaves_core_task (s : State) (es : List Effect) : (s.leaves es).core.task = s.core.task := rfl
@[simp] theorem State.leaves_core_kern (s : State) (es : List Effect) : (s.leaves es).core.kern = s.core.kern := rfl
@[simp] theorem State.leaves_core_pc (s : State) (es : List Effect) : (s.leaves es).core.pc = s.core.pc := rfl
@[simp] theorem State.leaves_core_npc (s : State) (es : List Effect) : (s.leaves es).core.npc = s.core.npc := rfl
@[simp] theorem State.leaves_core_xfer (s : State) (es : List Effect) : (s.leaves es).core.xfer = s.core.xfer := rfl
@[simp] theorem State.leaves_core_taken (s : State) (es : List Effect) : (s.leaves es).core.taken = s.core.taken := rfl
@[simp] theorem State.leaves_core_level (s : State) (es : List Effect) : (s.leaves es).core.level = s.core.level := rfl
@[simp] theorem State.leaves_core_handler (s : State) (es : List Effect) : (s.leaves es).core.handler = s.core.handler := rfl
@[simp] theorem State.leaves_core_sup (s : State) (es : List Effect) : (s.leaves es).core.sup = s.core.sup := rfl
@[simp] theorem State.leaves_core_regs (s : State) (es : List Effect) : (s.leaves es).core.regs = s.core.regs := rfl
@[simp] theorem State.leaves_core_maps (s : State) (es : List Effect) : (s.leaves es).core.maps = s.core.maps := rfl
@[simp] theorem State.leaves_core_frames (s : State) (es : List Effect) : (s.leaves es).core.frames = s.core.frames := rfl
@[simp] theorem State.leaves_core_spilled (s : State) (es : List Effect) : (s.leaves es).core.spilled = s.core.spilled := rfl
@[simp] theorem State.leaves_core_rets (s : State) (es : List Effect) : (s.leaves es).core.rets = s.core.rets := rfl
@[simp] theorem State.leaves_core_cr (s : State) (es : List Effect) : (s.leaves es).core.cr = s.core.cr := rfl
@[simp] theorem State.leaves_core_events (s : State) (es : List Effect) : (s.leaves es).core.events = s.core.events := rfl
@[simp] theorem State.leaves_core_cycle (s : State) (es : List Effect) : (s.leaves es).core.cycle = s.core.cycle := rfl
@[simp] theorem State.leaves_core_cur (s : State) (es : List Effect) : (s.leaves es).core.cur = s.core.cur := rfl
@[simp] theorem State.leaves_core_leaf (s : State) (es : List Effect) : (s.leaves es).core.leaf = s.core.leaf := rfl
@[simp] theorem State.leaves_core_flights (s : State) (es : List Effect) : (s.leaves es).core.flights = s.core.flights := rfl
@[simp] theorem State.leaves_core_tflights (s : State) (es : List Effect) : (s.leaves es).core.tflights = s.core.tflights := rfl
@[simp] theorem State.leaves_core_pflights (s : State) (es : List Effect) : (s.leaves es).core.pflights = s.core.pflights := rfl
@[simp] theorem State.leaves_core_drains (s : State) (es : List Effect) : (s.leaves es).core.drains = s.core.drains := rfl
@[simp] theorem State.leaves_core_reads (s : State) (es : List Effect) : (s.leaves es).core.reads = s.core.reads := rfl
@[simp] theorem State.leaves_core_mFree (s : State) (es : List Effect) : (s.leaves es).core.mFree = s.core.mFree := rfl
@[simp] theorem State.leaves_core_order (s : State) (es : List Effect) : (s.leaves es).core.order = s.core.order := rfl
@[simp] theorem State.leaves_core_l1 (s : State) (es : List Effect) : (s.leaves es).core.l1 = s.core.l1 := rfl
@[simp] theorem State.leaves_core_upd (s : State) (es : List Effect) : (s.leaves es).core.upd = s.core.upd := rfl
@[simp] theorem State.leaves_core_tlb (s : State) (es : List Effect) : (s.leaves es).core.tlb = s.core.tlb := rfl
@[simp] theorem State.leaves_core_specials (s : State) (es : List Effect) : (s.leaves es).core.specials = s.core.specials := rfl
@[simp] theorem State.leaves_core_steered (s : State) (es : List Effect) : (s.leaves es).core.steered = s.core.steered := rfl
@[simp] theorem State.leaves_core_queues (s : State) (es : List Effect) : (s.leaves es).core.queues = s.core.queues := rfl
@[simp] theorem State.leaves_core_ring (s : State) (es : List Effect) : (s.leaves es).core.ring = s.core.ring := rfl
@[simp] theorem State.leaves_core_tiles (s : State) (es : List Effect) : (s.leaves es).core.tiles = s.core.tiles := rfl
@[simp] theorem State.leaves_core_patterns (s : State) (es : List Effect) : (s.leaves es).core.patterns = s.core.patterns := rfl
@[simp] theorem State.leaves_core_patBank (s : State) (es : List Effect) : (s.leaves es).core.patBank = s.core.patBank := rfl
@[simp] theorem State.leaves_core_tags (s : State) (es : List Effect) : (s.leaves es).core.tags = s.core.tags := rfl
@[simp] theorem State.leaves_core_hand (s : State) (es : List Effect) : (s.leaves es).core.hand = s.core.hand := rfl
@[simp] theorem State.leaves_core_tagged (s : State) (es : List Effect) : (s.leaves es).core.tagged = s.core.tagged := rfl
@[simp] theorem State.leaves_core_bfmt (s : State) (es : List Effect) : (s.leaves es).core.bfmt = s.core.bfmt := rfl
@[simp] theorem State.leaves_core_carve (s : State) (es : List Effect) : (s.leaves es).core.carve = s.core.carve := rfl
@[simp] theorem State.leaves_core_deferred (s : State) (es : List Effect) : (s.leaves es).core.deferred = s.core.deferred := rfl
@[simp] theorem State.leaves_core_emul (s : State) (es : List Effect) : (s.leaves es).core.emul = s.core.emul := rfl
@[simp] theorem State.leaves_core_serving (s : State) (es : List Effect) : (s.leaves es).core.serving = s.core.serving := rfl
@[simp] theorem State.leaves_core_preempt (s : State) (es : List Effect) : (s.leaves es).core.preempt = s.core.preempt := rfl
@[simp] theorem State.leaves_core_watchPa (s : State) (es : List Effect) : (s.leaves es).core.watchPa = s.core.watchPa := rfl
@[simp] theorem State.leaves_core_faults (s : State) (es : List Effect) : (s.leaves es).core.faults = s.core.faults := rfl
@[simp] theorem State.leaves_core_arrivals (s : State) (es : List Effect) : (s.leaves es).core.arrivals = s.core.arrivals := rfl
@[simp] theorem State.leaves_core_gbars (s : State) (es : List Effect) : (s.leaves es).core.gbars = s.core.gbars := rfl
@[simp] theorem State.leaves_core_asleep (s : State) (es : List Effect) : (s.leaves es).core.asleep = s.core.asleep := rfl
@[simp] theorem State.leaves_core_uepc0 (s : State) (es : List Effect) : (s.leaves es).core.uepc0 = s.core.uepc0 := rfl
@[simp] theorem State.leaves_core_sepc0 (s : State) (es : List Effect) : (s.leaves es).core.sepc0 = s.core.sepc0 := rfl
@[simp] theorem State.leaves_core_rpc (s : State) (es : List Effect) : (s.leaves es).core.rpc = s.core.rpc := rfl
@[simp] theorem State.leaves_core_uxfer (s : State) (es : List Effect) : (s.leaves es).core.uxfer = s.core.uxfer := rfl
@[simp] theorem State.leaves_core_sxfer (s : State) (es : List Effect) : (s.leaves es).core.sxfer = s.core.sxfer := rfl
@[simp] theorem State.leaves_core_rxfer (s : State) (es : List Effect) : (s.leaves es).core.rxfer = s.core.rxfer := rfl
@[simp] theorem State.leaves_core_owed (s : State) (es : List Effect) : (s.leaves es).core.owed = s.core.owed := rfl
@[simp] theorem State.leaves_core_restore (s : State) (es : List Effect) : (s.leaves es).core.restore = s.core.restore := rfl
@[simp] theorem State.leaves_core_savePend (s : State) (es : List Effect) : (s.leaves es).core.savePend = s.core.savePend := rfl
@[simp] theorem State.leaves_core_forced (s : State) (es : List Effect) : (s.leaves es).core.forced = s.core.forced := rfl
@[simp] theorem State.leaves_core_resumedStub (s : State) (es : List Effect) : (s.leaves es).core.resumedStub = s.core.resumedStub := rfl
@[simp] theorem State.leaves_core_tileBase (s : State) (es : List Effect) : (s.leaves es).core.tileBase = s.core.tileBase := rfl
@[simp] theorem State.leaves_core_entryFrames (s : State) (es : List Effect) : (s.leaves es).core.entryFrames = s.core.entryFrames := rfl
@[simp] theorem State.leaves_core_session (s : State) (es : List Effect) : (s.leaves es).core.session = s.core.session := rfl
@[simp] theorem State.leaves_core_discarded (s : State) (es : List Effect) : (s.leaves es).core.discarded = s.core.discarded := rfl
@[simp] theorem State.leaves_core_born (s : State) (es : List Effect) : (s.leaves es).core.born = s.core.born := rfl
@[simp] theorem State.leaves_core_endPc (s : State) (es : List Effect) : (s.leaves es).core.endPc = s.core.endPc := rfl
@[simp] theorem State.leaves_core_waitRun (s : State) (es : List Effect) : (s.leaves es).core.waitRun = s.core.waitRun := rfl
@[simp] theorem State.leaves_core_firm (s : State) (es : List Effect) : (s.leaves es).core.firm = s.core.firm := rfl
@[simp] theorem State.leaves_core_pads (s : State) (es : List Effect) : (s.leaves es).core.pads = s.core.pads := rfl

/-! After State.goes -/

@[simp] theorem State.goes_parked (s : State) (a : Word) (i : Bool) : (s.goes a i).parked = s.parked := rfl
@[simp] theorem State.goes_mem (s : State) (a : Word) (i : Bool) : (s.goes a i).mem = s.mem := rfl
@[simp] theorem State.goes_larder (s : State) (a : Word) (i : Bool) : (s.goes a i).larder = s.larder := rfl
@[simp] theorem State.goes_reduce (s : State) (a : Word) (i : Bool) : (s.goes a i).reduce = s.reduce := rfl
@[simp] theorem State.goes_pantry (s : State) (a : Word) (i : Bool) : (s.goes a i).pantry = s.pantry := rfl
@[simp] theorem State.goes_fns (s : State) (a : Word) (i : Bool) : (s.goes a i).fns = s.fns := rfl
@[simp] theorem State.goes_dist (s : State) (a : Word) (i : Bool) : (s.goes a i).dist = s.dist := rfl
@[simp] theorem State.goes_sessions (s : State) (a : Word) (i : Bool) : (s.goes a i).sessions = s.sessions := rfl
@[simp] theorem State.goes_fabric (s : State) (a : Word) (i : Bool) : (s.goes a i).fabric = s.fabric := rfl
@[simp] theorem State.goes_ladders (s : State) (a : Word) (i : Bool) : (s.goes a i).ladders = s.ladders := rfl
@[simp] theorem State.goes_service (s : State) (a : Word) (i : Bool) : (s.goes a i).service = s.service := rfl
@[simp] theorem State.goes_meas (s : State) (a : Word) (i : Bool) : (s.goes a i).meas = s.meas := rfl
@[simp] theorem State.goes_library (s : State) (a : Word) (i : Bool) : (s.goes a i).library = s.library := rfl
@[simp] theorem State.goes_l2 (s : State) (a : Word) (i : Bool) : (s.goes a i).l2 = s.l2 := rfl
@[simp] theorem State.goes_bar2Out (s : State) (a : Word) (i : Bool) : (s.goes a i).bar2Out = s.bar2Out := rfl
@[simp] theorem State.goes_inputs (s : State) (a : Word) (i : Bool) : (s.goes a i).inputs = s.inputs := rfl
@[simp] theorem State.goes_fresh (s : State) (a : Word) (i : Bool) : (s.goes a i).fresh = s.fresh := rfl
@[simp] theorem State.goes_powered (s : State) (a : Word) (i : Bool) : (s.goes a i).powered = s.powered := rfl
@[simp] theorem State.goes_core_id (s : State) (a : Word) (i : Bool) : (s.goes a i).core.id = s.core.id := rfl
@[simp] theorem State.goes_core_run (s : State) (a : Word) (i : Bool) : (s.goes a i).core.run = s.core.run := rfl
@[simp] theorem State.goes_core_task (s : State) (a : Word) (i : Bool) : (s.goes a i).core.task = s.core.task := rfl
@[simp] theorem State.goes_core_kern (s : State) (a : Word) (i : Bool) : (s.goes a i).core.kern = s.core.kern := rfl
@[simp] theorem State.goes_core_pc (s : State) (a : Word) (i : Bool) : (s.goes a i).core.pc = s.core.pc := rfl
@[simp] theorem State.goes_core_xfer (s : State) (a : Word) (i : Bool) : (s.goes a i).core.xfer = s.core.xfer := rfl
@[simp] theorem State.goes_core_level (s : State) (a : Word) (i : Bool) : (s.goes a i).core.level = s.core.level := rfl
@[simp] theorem State.goes_core_handler (s : State) (a : Word) (i : Bool) : (s.goes a i).core.handler = s.core.handler := rfl
@[simp] theorem State.goes_core_sup (s : State) (a : Word) (i : Bool) : (s.goes a i).core.sup = s.core.sup := rfl
@[simp] theorem State.goes_core_regs (s : State) (a : Word) (i : Bool) : (s.goes a i).core.regs = s.core.regs := rfl
@[simp] theorem State.goes_core_maps (s : State) (a : Word) (i : Bool) : (s.goes a i).core.maps = s.core.maps := rfl
@[simp] theorem State.goes_core_frames (s : State) (a : Word) (i : Bool) : (s.goes a i).core.frames = s.core.frames := rfl
@[simp] theorem State.goes_core_spilled (s : State) (a : Word) (i : Bool) : (s.goes a i).core.spilled = s.core.spilled := rfl
@[simp] theorem State.goes_core_rets (s : State) (a : Word) (i : Bool) : (s.goes a i).core.rets = s.core.rets := rfl
@[simp] theorem State.goes_core_cr (s : State) (a : Word) (i : Bool) : (s.goes a i).core.cr = s.core.cr := rfl
@[simp] theorem State.goes_core_events (s : State) (a : Word) (i : Bool) : (s.goes a i).core.events = s.core.events := rfl
@[simp] theorem State.goes_core_cycle (s : State) (a : Word) (i : Bool) : (s.goes a i).core.cycle = s.core.cycle := rfl
@[simp] theorem State.goes_core_cur (s : State) (a : Word) (i : Bool) : (s.goes a i).core.cur = s.core.cur := rfl
@[simp] theorem State.goes_core_defer (s : State) (a : Word) (i : Bool) : (s.goes a i).core.defer = s.core.defer := rfl
@[simp] theorem State.goes_core_mark (s : State) (a : Word) (i : Bool) : (s.goes a i).core.mark = s.core.mark := rfl
@[simp] theorem State.goes_core_leaf (s : State) (a : Word) (i : Bool) : (s.goes a i).core.leaf = s.core.leaf := rfl
@[simp] theorem State.goes_core_flights (s : State) (a : Word) (i : Bool) : (s.goes a i).core.flights = s.core.flights := rfl
@[simp] theorem State.goes_core_tflights (s : State) (a : Word) (i : Bool) : (s.goes a i).core.tflights = s.core.tflights := rfl
@[simp] theorem State.goes_core_pflights (s : State) (a : Word) (i : Bool) : (s.goes a i).core.pflights = s.core.pflights := rfl
@[simp] theorem State.goes_core_drains (s : State) (a : Word) (i : Bool) : (s.goes a i).core.drains = s.core.drains := rfl
@[simp] theorem State.goes_core_reads (s : State) (a : Word) (i : Bool) : (s.goes a i).core.reads = s.core.reads := rfl
@[simp] theorem State.goes_core_mFree (s : State) (a : Word) (i : Bool) : (s.goes a i).core.mFree = s.core.mFree := rfl
@[simp] theorem State.goes_core_order (s : State) (a : Word) (i : Bool) : (s.goes a i).core.order = s.core.order := rfl
@[simp] theorem State.goes_core_l1 (s : State) (a : Word) (i : Bool) : (s.goes a i).core.l1 = s.core.l1 := rfl
@[simp] theorem State.goes_core_upd (s : State) (a : Word) (i : Bool) : (s.goes a i).core.upd = s.core.upd := rfl
@[simp] theorem State.goes_core_tlb (s : State) (a : Word) (i : Bool) : (s.goes a i).core.tlb = s.core.tlb := rfl
@[simp] theorem State.goes_core_specials (s : State) (a : Word) (i : Bool) : (s.goes a i).core.specials = s.core.specials := rfl
@[simp] theorem State.goes_core_steered (s : State) (a : Word) (i : Bool) : (s.goes a i).core.steered = s.core.steered := rfl
@[simp] theorem State.goes_core_queues (s : State) (a : Word) (i : Bool) : (s.goes a i).core.queues = s.core.queues := rfl
@[simp] theorem State.goes_core_ring (s : State) (a : Word) (i : Bool) : (s.goes a i).core.ring = s.core.ring := rfl
@[simp] theorem State.goes_core_tiles (s : State) (a : Word) (i : Bool) : (s.goes a i).core.tiles = s.core.tiles := rfl
@[simp] theorem State.goes_core_patterns (s : State) (a : Word) (i : Bool) : (s.goes a i).core.patterns = s.core.patterns := rfl
@[simp] theorem State.goes_core_patBank (s : State) (a : Word) (i : Bool) : (s.goes a i).core.patBank = s.core.patBank := rfl
@[simp] theorem State.goes_core_tags (s : State) (a : Word) (i : Bool) : (s.goes a i).core.tags = s.core.tags := rfl
@[simp] theorem State.goes_core_hand (s : State) (a : Word) (i : Bool) : (s.goes a i).core.hand = s.core.hand := rfl
@[simp] theorem State.goes_core_tagged (s : State) (a : Word) (i : Bool) : (s.goes a i).core.tagged = s.core.tagged := rfl
@[simp] theorem State.goes_core_bfmt (s : State) (a : Word) (i : Bool) : (s.goes a i).core.bfmt = s.core.bfmt := rfl
@[simp] theorem State.goes_core_carve (s : State) (a : Word) (i : Bool) : (s.goes a i).core.carve = s.core.carve := rfl
@[simp] theorem State.goes_core_deferred (s : State) (a : Word) (i : Bool) : (s.goes a i).core.deferred = s.core.deferred := rfl
@[simp] theorem State.goes_core_emul (s : State) (a : Word) (i : Bool) : (s.goes a i).core.emul = s.core.emul := rfl
@[simp] theorem State.goes_core_serving (s : State) (a : Word) (i : Bool) : (s.goes a i).core.serving = s.core.serving := rfl
@[simp] theorem State.goes_core_preempt (s : State) (a : Word) (i : Bool) : (s.goes a i).core.preempt = s.core.preempt := rfl
@[simp] theorem State.goes_core_watchPa (s : State) (a : Word) (i : Bool) : (s.goes a i).core.watchPa = s.core.watchPa := rfl
@[simp] theorem State.goes_core_faults (s : State) (a : Word) (i : Bool) : (s.goes a i).core.faults = s.core.faults := rfl
@[simp] theorem State.goes_core_arrivals (s : State) (a : Word) (i : Bool) : (s.goes a i).core.arrivals = s.core.arrivals := rfl
@[simp] theorem State.goes_core_gbars (s : State) (a : Word) (i : Bool) : (s.goes a i).core.gbars = s.core.gbars := rfl
@[simp] theorem State.goes_core_asleep (s : State) (a : Word) (i : Bool) : (s.goes a i).core.asleep = s.core.asleep := rfl
@[simp] theorem State.goes_core_uepc0 (s : State) (a : Word) (i : Bool) : (s.goes a i).core.uepc0 = s.core.uepc0 := rfl
@[simp] theorem State.goes_core_sepc0 (s : State) (a : Word) (i : Bool) : (s.goes a i).core.sepc0 = s.core.sepc0 := rfl
@[simp] theorem State.goes_core_rpc (s : State) (a : Word) (i : Bool) : (s.goes a i).core.rpc = s.core.rpc := rfl
@[simp] theorem State.goes_core_uxfer (s : State) (a : Word) (i : Bool) : (s.goes a i).core.uxfer = s.core.uxfer := rfl
@[simp] theorem State.goes_core_sxfer (s : State) (a : Word) (i : Bool) : (s.goes a i).core.sxfer = s.core.sxfer := rfl
@[simp] theorem State.goes_core_rxfer (s : State) (a : Word) (i : Bool) : (s.goes a i).core.rxfer = s.core.rxfer := rfl
@[simp] theorem State.goes_core_owed (s : State) (a : Word) (i : Bool) : (s.goes a i).core.owed = s.core.owed := rfl
@[simp] theorem State.goes_core_restore (s : State) (a : Word) (i : Bool) : (s.goes a i).core.restore = s.core.restore := rfl
@[simp] theorem State.goes_core_savePend (s : State) (a : Word) (i : Bool) : (s.goes a i).core.savePend = s.core.savePend := rfl
@[simp] theorem State.goes_core_forced (s : State) (a : Word) (i : Bool) : (s.goes a i).core.forced = s.core.forced := rfl
@[simp] theorem State.goes_core_resumedStub (s : State) (a : Word) (i : Bool) : (s.goes a i).core.resumedStub = s.core.resumedStub := rfl
@[simp] theorem State.goes_core_tileBase (s : State) (a : Word) (i : Bool) : (s.goes a i).core.tileBase = s.core.tileBase := rfl
@[simp] theorem State.goes_core_entryFrames (s : State) (a : Word) (i : Bool) : (s.goes a i).core.entryFrames = s.core.entryFrames := rfl
@[simp] theorem State.goes_core_session (s : State) (a : Word) (i : Bool) : (s.goes a i).core.session = s.core.session := rfl
@[simp] theorem State.goes_core_discarded (s : State) (a : Word) (i : Bool) : (s.goes a i).core.discarded = s.core.discarded := rfl
@[simp] theorem State.goes_core_born (s : State) (a : Word) (i : Bool) : (s.goes a i).core.born = s.core.born := rfl
@[simp] theorem State.goes_core_endPc (s : State) (a : Word) (i : Bool) : (s.goes a i).core.endPc = s.core.endPc := rfl
@[simp] theorem State.goes_core_waitRun (s : State) (a : Word) (i : Bool) : (s.goes a i).core.waitRun = s.core.waitRun := rfl
@[simp] theorem State.goes_core_firm (s : State) (a : Word) (i : Bool) : (s.goes a i).core.firm = s.core.firm := rfl
@[simp] theorem State.goes_core_pads (s : State) (a : Word) (i : Bool) : (s.goes a i).core.pads = s.core.pads := rfl

/-! After State.joins -/

@[simp] theorem State.joins_parked (s : State) (rs : List Reg) : (s.joins rs).parked = s.parked := rfl
@[simp] theorem State.joins_mem (s : State) (rs : List Reg) : (s.joins rs).mem = s.mem := rfl
@[simp] theorem State.joins_larder (s : State) (rs : List Reg) : (s.joins rs).larder = s.larder := rfl
@[simp] theorem State.joins_reduce (s : State) (rs : List Reg) : (s.joins rs).reduce = s.reduce := rfl
@[simp] theorem State.joins_pantry (s : State) (rs : List Reg) : (s.joins rs).pantry = s.pantry := rfl
@[simp] theorem State.joins_fns (s : State) (rs : List Reg) : (s.joins rs).fns = s.fns := rfl
@[simp] theorem State.joins_dist (s : State) (rs : List Reg) : (s.joins rs).dist = s.dist := rfl
@[simp] theorem State.joins_sessions (s : State) (rs : List Reg) : (s.joins rs).sessions = s.sessions := rfl
@[simp] theorem State.joins_fabric (s : State) (rs : List Reg) : (s.joins rs).fabric = s.fabric := rfl
@[simp] theorem State.joins_ladders (s : State) (rs : List Reg) : (s.joins rs).ladders = s.ladders := rfl
@[simp] theorem State.joins_service (s : State) (rs : List Reg) : (s.joins rs).service = s.service := rfl
@[simp] theorem State.joins_meas (s : State) (rs : List Reg) : (s.joins rs).meas = s.meas := rfl
@[simp] theorem State.joins_library (s : State) (rs : List Reg) : (s.joins rs).library = s.library := rfl
@[simp] theorem State.joins_l2 (s : State) (rs : List Reg) : (s.joins rs).l2 = s.l2 := rfl
@[simp] theorem State.joins_bar2Out (s : State) (rs : List Reg) : (s.joins rs).bar2Out = s.bar2Out := rfl
@[simp] theorem State.joins_inputs (s : State) (rs : List Reg) : (s.joins rs).inputs = s.inputs := rfl
@[simp] theorem State.joins_fresh (s : State) (rs : List Reg) : (s.joins rs).fresh = s.fresh := rfl
@[simp] theorem State.joins_powered (s : State) (rs : List Reg) : (s.joins rs).powered = s.powered := rfl
@[simp] theorem State.joins_core_id (s : State) (rs : List Reg) : (s.joins rs).core.id = s.core.id := rfl
@[simp] theorem State.joins_core_run (s : State) (rs : List Reg) : (s.joins rs).core.run = s.core.run := rfl
@[simp] theorem State.joins_core_task (s : State) (rs : List Reg) : (s.joins rs).core.task = s.core.task := rfl
@[simp] theorem State.joins_core_kern (s : State) (rs : List Reg) : (s.joins rs).core.kern = s.core.kern := rfl
@[simp] theorem State.joins_core_pc (s : State) (rs : List Reg) : (s.joins rs).core.pc = s.core.pc := rfl
@[simp] theorem State.joins_core_npc (s : State) (rs : List Reg) : (s.joins rs).core.npc = s.core.npc := rfl
@[simp] theorem State.joins_core_xfer (s : State) (rs : List Reg) : (s.joins rs).core.xfer = s.core.xfer := rfl
@[simp] theorem State.joins_core_taken (s : State) (rs : List Reg) : (s.joins rs).core.taken = s.core.taken := rfl
@[simp] theorem State.joins_core_level (s : State) (rs : List Reg) : (s.joins rs).core.level = s.core.level := rfl
@[simp] theorem State.joins_core_handler (s : State) (rs : List Reg) : (s.joins rs).core.handler = s.core.handler := rfl
@[simp] theorem State.joins_core_sup (s : State) (rs : List Reg) : (s.joins rs).core.sup = s.core.sup := rfl
@[simp] theorem State.joins_core_regs (s : State) (rs : List Reg) : (s.joins rs).core.regs = s.core.regs := rfl
@[simp] theorem State.joins_core_maps (s : State) (rs : List Reg) : (s.joins rs).core.maps = s.core.maps := rfl
@[simp] theorem State.joins_core_frames (s : State) (rs : List Reg) : (s.joins rs).core.frames = s.core.frames := rfl
@[simp] theorem State.joins_core_spilled (s : State) (rs : List Reg) : (s.joins rs).core.spilled = s.core.spilled := rfl
@[simp] theorem State.joins_core_rets (s : State) (rs : List Reg) : (s.joins rs).core.rets = s.core.rets := rfl
@[simp] theorem State.joins_core_cr (s : State) (rs : List Reg) : (s.joins rs).core.cr = s.core.cr := rfl
@[simp] theorem State.joins_core_events (s : State) (rs : List Reg) : (s.joins rs).core.events = s.core.events := rfl
@[simp] theorem State.joins_core_cycle (s : State) (rs : List Reg) : (s.joins rs).core.cycle = s.core.cycle := rfl
@[simp] theorem State.joins_core_cur (s : State) (rs : List Reg) : (s.joins rs).core.cur = s.core.cur := rfl
@[simp] theorem State.joins_core_defer (s : State) (rs : List Reg) : (s.joins rs).core.defer = s.core.defer := rfl
@[simp] theorem State.joins_core_mark (s : State) (rs : List Reg) : (s.joins rs).core.mark = s.core.mark := rfl
@[simp] theorem State.joins_core_leaf (s : State) (rs : List Reg) : (s.joins rs).core.leaf = s.core.leaf := rfl
@[simp] theorem State.joins_core_flights (s : State) (rs : List Reg) : (s.joins rs).core.flights = s.core.flights := rfl
@[simp] theorem State.joins_core_tflights (s : State) (rs : List Reg) : (s.joins rs).core.tflights = s.core.tflights := rfl
@[simp] theorem State.joins_core_pflights (s : State) (rs : List Reg) : (s.joins rs).core.pflights = s.core.pflights := rfl
@[simp] theorem State.joins_core_drains (s : State) (rs : List Reg) : (s.joins rs).core.drains = s.core.drains := rfl
@[simp] theorem State.joins_core_reads (s : State) (rs : List Reg) : (s.joins rs).core.reads = s.core.reads := rfl
@[simp] theorem State.joins_core_mFree (s : State) (rs : List Reg) : (s.joins rs).core.mFree = s.core.mFree := rfl
@[simp] theorem State.joins_core_l1 (s : State) (rs : List Reg) : (s.joins rs).core.l1 = s.core.l1 := rfl
@[simp] theorem State.joins_core_upd (s : State) (rs : List Reg) : (s.joins rs).core.upd = s.core.upd := rfl
@[simp] theorem State.joins_core_tlb (s : State) (rs : List Reg) : (s.joins rs).core.tlb = s.core.tlb := rfl
@[simp] theorem State.joins_core_specials (s : State) (rs : List Reg) : (s.joins rs).core.specials = s.core.specials := rfl
@[simp] theorem State.joins_core_steered (s : State) (rs : List Reg) : (s.joins rs).core.steered = s.core.steered := rfl
@[simp] theorem State.joins_core_queues (s : State) (rs : List Reg) : (s.joins rs).core.queues = s.core.queues := rfl
@[simp] theorem State.joins_core_ring (s : State) (rs : List Reg) : (s.joins rs).core.ring = s.core.ring := rfl
@[simp] theorem State.joins_core_tiles (s : State) (rs : List Reg) : (s.joins rs).core.tiles = s.core.tiles := rfl
@[simp] theorem State.joins_core_patterns (s : State) (rs : List Reg) : (s.joins rs).core.patterns = s.core.patterns := rfl
@[simp] theorem State.joins_core_patBank (s : State) (rs : List Reg) : (s.joins rs).core.patBank = s.core.patBank := rfl
@[simp] theorem State.joins_core_tags (s : State) (rs : List Reg) : (s.joins rs).core.tags = s.core.tags := rfl
@[simp] theorem State.joins_core_hand (s : State) (rs : List Reg) : (s.joins rs).core.hand = s.core.hand := rfl
@[simp] theorem State.joins_core_tagged (s : State) (rs : List Reg) : (s.joins rs).core.tagged = s.core.tagged := rfl
@[simp] theorem State.joins_core_bfmt (s : State) (rs : List Reg) : (s.joins rs).core.bfmt = s.core.bfmt := rfl
@[simp] theorem State.joins_core_carve (s : State) (rs : List Reg) : (s.joins rs).core.carve = s.core.carve := rfl
@[simp] theorem State.joins_core_deferred (s : State) (rs : List Reg) : (s.joins rs).core.deferred = s.core.deferred := rfl
@[simp] theorem State.joins_core_emul (s : State) (rs : List Reg) : (s.joins rs).core.emul = s.core.emul := rfl
@[simp] theorem State.joins_core_serving (s : State) (rs : List Reg) : (s.joins rs).core.serving = s.core.serving := rfl
@[simp] theorem State.joins_core_preempt (s : State) (rs : List Reg) : (s.joins rs).core.preempt = s.core.preempt := rfl
@[simp] theorem State.joins_core_watchPa (s : State) (rs : List Reg) : (s.joins rs).core.watchPa = s.core.watchPa := rfl
@[simp] theorem State.joins_core_faults (s : State) (rs : List Reg) : (s.joins rs).core.faults = s.core.faults := rfl
@[simp] theorem State.joins_core_arrivals (s : State) (rs : List Reg) : (s.joins rs).core.arrivals = s.core.arrivals := rfl
@[simp] theorem State.joins_core_gbars (s : State) (rs : List Reg) : (s.joins rs).core.gbars = s.core.gbars := rfl
@[simp] theorem State.joins_core_asleep (s : State) (rs : List Reg) : (s.joins rs).core.asleep = s.core.asleep := rfl
@[simp] theorem State.joins_core_uepc0 (s : State) (rs : List Reg) : (s.joins rs).core.uepc0 = s.core.uepc0 := rfl
@[simp] theorem State.joins_core_sepc0 (s : State) (rs : List Reg) : (s.joins rs).core.sepc0 = s.core.sepc0 := rfl
@[simp] theorem State.joins_core_rpc (s : State) (rs : List Reg) : (s.joins rs).core.rpc = s.core.rpc := rfl
@[simp] theorem State.joins_core_uxfer (s : State) (rs : List Reg) : (s.joins rs).core.uxfer = s.core.uxfer := rfl
@[simp] theorem State.joins_core_sxfer (s : State) (rs : List Reg) : (s.joins rs).core.sxfer = s.core.sxfer := rfl
@[simp] theorem State.joins_core_rxfer (s : State) (rs : List Reg) : (s.joins rs).core.rxfer = s.core.rxfer := rfl
@[simp] theorem State.joins_core_owed (s : State) (rs : List Reg) : (s.joins rs).core.owed = s.core.owed := rfl
@[simp] theorem State.joins_core_restore (s : State) (rs : List Reg) : (s.joins rs).core.restore = s.core.restore := rfl
@[simp] theorem State.joins_core_savePend (s : State) (rs : List Reg) : (s.joins rs).core.savePend = s.core.savePend := rfl
@[simp] theorem State.joins_core_forced (s : State) (rs : List Reg) : (s.joins rs).core.forced = s.core.forced := rfl
@[simp] theorem State.joins_core_resumedStub (s : State) (rs : List Reg) : (s.joins rs).core.resumedStub = s.core.resumedStub := rfl
@[simp] theorem State.joins_core_tileBase (s : State) (rs : List Reg) : (s.joins rs).core.tileBase = s.core.tileBase := rfl
@[simp] theorem State.joins_core_entryFrames (s : State) (rs : List Reg) : (s.joins rs).core.entryFrames = s.core.entryFrames := rfl
@[simp] theorem State.joins_core_session (s : State) (rs : List Reg) : (s.joins rs).core.session = s.core.session := rfl
@[simp] theorem State.joins_core_discarded (s : State) (rs : List Reg) : (s.joins rs).core.discarded = s.core.discarded := rfl
@[simp] theorem State.joins_core_born (s : State) (rs : List Reg) : (s.joins rs).core.born = s.core.born := rfl
@[simp] theorem State.joins_core_endPc (s : State) (rs : List Reg) : (s.joins rs).core.endPc = s.core.endPc := rfl
@[simp] theorem State.joins_core_waitRun (s : State) (rs : List Reg) : (s.joins rs).core.waitRun = s.core.waitRun := rfl
@[simp] theorem State.joins_core_firm (s : State) (rs : List Reg) : (s.joins rs).core.firm = s.core.firm := rfl
@[simp] theorem State.joins_core_pads (s : State) (rs : List Reg) : (s.joins rs).core.pads = s.core.pads := rfl

/-! After State.occupied -/

@[simp] theorem State.occupied_parked (s : State) (o : Nat) : (s.occupied o).parked = s.parked := rfl
@[simp] theorem State.occupied_mem (s : State) (o : Nat) : (s.occupied o).mem = s.mem := rfl
@[simp] theorem State.occupied_larder (s : State) (o : Nat) : (s.occupied o).larder = s.larder := rfl
@[simp] theorem State.occupied_reduce (s : State) (o : Nat) : (s.occupied o).reduce = s.reduce := rfl
@[simp] theorem State.occupied_pantry (s : State) (o : Nat) : (s.occupied o).pantry = s.pantry := rfl
@[simp] theorem State.occupied_fns (s : State) (o : Nat) : (s.occupied o).fns = s.fns := rfl
@[simp] theorem State.occupied_dist (s : State) (o : Nat) : (s.occupied o).dist = s.dist := rfl
@[simp] theorem State.occupied_sessions (s : State) (o : Nat) : (s.occupied o).sessions = s.sessions := rfl
@[simp] theorem State.occupied_fabric (s : State) (o : Nat) : (s.occupied o).fabric = s.fabric := rfl
@[simp] theorem State.occupied_ladders (s : State) (o : Nat) : (s.occupied o).ladders = s.ladders := rfl
@[simp] theorem State.occupied_service (s : State) (o : Nat) : (s.occupied o).service = s.service := rfl
@[simp] theorem State.occupied_meas (s : State) (o : Nat) : (s.occupied o).meas = s.meas := rfl
@[simp] theorem State.occupied_library (s : State) (o : Nat) : (s.occupied o).library = s.library := rfl
@[simp] theorem State.occupied_l2 (s : State) (o : Nat) : (s.occupied o).l2 = s.l2 := rfl
@[simp] theorem State.occupied_bar2Out (s : State) (o : Nat) : (s.occupied o).bar2Out = s.bar2Out := rfl
@[simp] theorem State.occupied_inputs (s : State) (o : Nat) : (s.occupied o).inputs = s.inputs := rfl
@[simp] theorem State.occupied_fresh (s : State) (o : Nat) : (s.occupied o).fresh = s.fresh := rfl
@[simp] theorem State.occupied_powered (s : State) (o : Nat) : (s.occupied o).powered = s.powered := rfl
@[simp] theorem State.occupied_core_id (s : State) (o : Nat) : (s.occupied o).core.id = s.core.id := rfl
@[simp] theorem State.occupied_core_run (s : State) (o : Nat) : (s.occupied o).core.run = s.core.run := rfl
@[simp] theorem State.occupied_core_task (s : State) (o : Nat) : (s.occupied o).core.task = s.core.task := rfl
@[simp] theorem State.occupied_core_kern (s : State) (o : Nat) : (s.occupied o).core.kern = s.core.kern := rfl
@[simp] theorem State.occupied_core_pc (s : State) (o : Nat) : (s.occupied o).core.pc = s.core.pc := rfl
@[simp] theorem State.occupied_core_npc (s : State) (o : Nat) : (s.occupied o).core.npc = s.core.npc := rfl
@[simp] theorem State.occupied_core_xfer (s : State) (o : Nat) : (s.occupied o).core.xfer = s.core.xfer := rfl
@[simp] theorem State.occupied_core_taken (s : State) (o : Nat) : (s.occupied o).core.taken = s.core.taken := rfl
@[simp] theorem State.occupied_core_level (s : State) (o : Nat) : (s.occupied o).core.level = s.core.level := rfl
@[simp] theorem State.occupied_core_handler (s : State) (o : Nat) : (s.occupied o).core.handler = s.core.handler := rfl
@[simp] theorem State.occupied_core_sup (s : State) (o : Nat) : (s.occupied o).core.sup = s.core.sup := rfl
@[simp] theorem State.occupied_core_regs (s : State) (o : Nat) : (s.occupied o).core.regs = s.core.regs := rfl
@[simp] theorem State.occupied_core_maps (s : State) (o : Nat) : (s.occupied o).core.maps = s.core.maps := rfl
@[simp] theorem State.occupied_core_frames (s : State) (o : Nat) : (s.occupied o).core.frames = s.core.frames := rfl
@[simp] theorem State.occupied_core_spilled (s : State) (o : Nat) : (s.occupied o).core.spilled = s.core.spilled := rfl
@[simp] theorem State.occupied_core_rets (s : State) (o : Nat) : (s.occupied o).core.rets = s.core.rets := rfl
@[simp] theorem State.occupied_core_cr (s : State) (o : Nat) : (s.occupied o).core.cr = s.core.cr := rfl
@[simp] theorem State.occupied_core_events (s : State) (o : Nat) : (s.occupied o).core.events = s.core.events := rfl
@[simp] theorem State.occupied_core_cycle (s : State) (o : Nat) : (s.occupied o).core.cycle = s.core.cycle := rfl
@[simp] theorem State.occupied_core_cur (s : State) (o : Nat) : (s.occupied o).core.cur = s.core.cur := rfl
@[simp] theorem State.occupied_core_defer (s : State) (o : Nat) : (s.occupied o).core.defer = s.core.defer := rfl
@[simp] theorem State.occupied_core_mark (s : State) (o : Nat) : (s.occupied o).core.mark = s.core.mark := rfl
@[simp] theorem State.occupied_core_leaf (s : State) (o : Nat) : (s.occupied o).core.leaf = s.core.leaf := rfl
@[simp] theorem State.occupied_core_flights (s : State) (o : Nat) : (s.occupied o).core.flights = s.core.flights := rfl
@[simp] theorem State.occupied_core_tflights (s : State) (o : Nat) : (s.occupied o).core.tflights = s.core.tflights := rfl
@[simp] theorem State.occupied_core_pflights (s : State) (o : Nat) : (s.occupied o).core.pflights = s.core.pflights := rfl
@[simp] theorem State.occupied_core_drains (s : State) (o : Nat) : (s.occupied o).core.drains = s.core.drains := rfl
@[simp] theorem State.occupied_core_reads (s : State) (o : Nat) : (s.occupied o).core.reads = s.core.reads := rfl
@[simp] theorem State.occupied_core_order (s : State) (o : Nat) : (s.occupied o).core.order = s.core.order := rfl
@[simp] theorem State.occupied_core_l1 (s : State) (o : Nat) : (s.occupied o).core.l1 = s.core.l1 := rfl
@[simp] theorem State.occupied_core_upd (s : State) (o : Nat) : (s.occupied o).core.upd = s.core.upd := rfl
@[simp] theorem State.occupied_core_tlb (s : State) (o : Nat) : (s.occupied o).core.tlb = s.core.tlb := rfl
@[simp] theorem State.occupied_core_specials (s : State) (o : Nat) : (s.occupied o).core.specials = s.core.specials := rfl
@[simp] theorem State.occupied_core_steered (s : State) (o : Nat) : (s.occupied o).core.steered = s.core.steered := rfl
@[simp] theorem State.occupied_core_queues (s : State) (o : Nat) : (s.occupied o).core.queues = s.core.queues := rfl
@[simp] theorem State.occupied_core_ring (s : State) (o : Nat) : (s.occupied o).core.ring = s.core.ring := rfl
@[simp] theorem State.occupied_core_tiles (s : State) (o : Nat) : (s.occupied o).core.tiles = s.core.tiles := rfl
@[simp] theorem State.occupied_core_patterns (s : State) (o : Nat) : (s.occupied o).core.patterns = s.core.patterns := rfl
@[simp] theorem State.occupied_core_patBank (s : State) (o : Nat) : (s.occupied o).core.patBank = s.core.patBank := rfl
@[simp] theorem State.occupied_core_tags (s : State) (o : Nat) : (s.occupied o).core.tags = s.core.tags := rfl
@[simp] theorem State.occupied_core_hand (s : State) (o : Nat) : (s.occupied o).core.hand = s.core.hand := rfl
@[simp] theorem State.occupied_core_tagged (s : State) (o : Nat) : (s.occupied o).core.tagged = s.core.tagged := rfl
@[simp] theorem State.occupied_core_bfmt (s : State) (o : Nat) : (s.occupied o).core.bfmt = s.core.bfmt := rfl
@[simp] theorem State.occupied_core_carve (s : State) (o : Nat) : (s.occupied o).core.carve = s.core.carve := rfl
@[simp] theorem State.occupied_core_deferred (s : State) (o : Nat) : (s.occupied o).core.deferred = s.core.deferred := rfl
@[simp] theorem State.occupied_core_emul (s : State) (o : Nat) : (s.occupied o).core.emul = s.core.emul := rfl
@[simp] theorem State.occupied_core_serving (s : State) (o : Nat) : (s.occupied o).core.serving = s.core.serving := rfl
@[simp] theorem State.occupied_core_preempt (s : State) (o : Nat) : (s.occupied o).core.preempt = s.core.preempt := rfl
@[simp] theorem State.occupied_core_watchPa (s : State) (o : Nat) : (s.occupied o).core.watchPa = s.core.watchPa := rfl
@[simp] theorem State.occupied_core_faults (s : State) (o : Nat) : (s.occupied o).core.faults = s.core.faults := rfl
@[simp] theorem State.occupied_core_arrivals (s : State) (o : Nat) : (s.occupied o).core.arrivals = s.core.arrivals := rfl
@[simp] theorem State.occupied_core_gbars (s : State) (o : Nat) : (s.occupied o).core.gbars = s.core.gbars := rfl
@[simp] theorem State.occupied_core_asleep (s : State) (o : Nat) : (s.occupied o).core.asleep = s.core.asleep := rfl
@[simp] theorem State.occupied_core_uepc0 (s : State) (o : Nat) : (s.occupied o).core.uepc0 = s.core.uepc0 := rfl
@[simp] theorem State.occupied_core_sepc0 (s : State) (o : Nat) : (s.occupied o).core.sepc0 = s.core.sepc0 := rfl
@[simp] theorem State.occupied_core_rpc (s : State) (o : Nat) : (s.occupied o).core.rpc = s.core.rpc := rfl
@[simp] theorem State.occupied_core_uxfer (s : State) (o : Nat) : (s.occupied o).core.uxfer = s.core.uxfer := rfl
@[simp] theorem State.occupied_core_sxfer (s : State) (o : Nat) : (s.occupied o).core.sxfer = s.core.sxfer := rfl
@[simp] theorem State.occupied_core_rxfer (s : State) (o : Nat) : (s.occupied o).core.rxfer = s.core.rxfer := rfl
@[simp] theorem State.occupied_core_owed (s : State) (o : Nat) : (s.occupied o).core.owed = s.core.owed := rfl
@[simp] theorem State.occupied_core_restore (s : State) (o : Nat) : (s.occupied o).core.restore = s.core.restore := rfl
@[simp] theorem State.occupied_core_savePend (s : State) (o : Nat) : (s.occupied o).core.savePend = s.core.savePend := rfl
@[simp] theorem State.occupied_core_forced (s : State) (o : Nat) : (s.occupied o).core.forced = s.core.forced := rfl
@[simp] theorem State.occupied_core_resumedStub (s : State) (o : Nat) : (s.occupied o).core.resumedStub = s.core.resumedStub := rfl
@[simp] theorem State.occupied_core_tileBase (s : State) (o : Nat) : (s.occupied o).core.tileBase = s.core.tileBase := rfl
@[simp] theorem State.occupied_core_entryFrames (s : State) (o : Nat) : (s.occupied o).core.entryFrames = s.core.entryFrames := rfl
@[simp] theorem State.occupied_core_session (s : State) (o : Nat) : (s.occupied o).core.session = s.core.session := rfl
@[simp] theorem State.occupied_core_discarded (s : State) (o : Nat) : (s.occupied o).core.discarded = s.core.discarded := rfl
@[simp] theorem State.occupied_core_born (s : State) (o : Nat) : (s.occupied o).core.born = s.core.born := rfl
@[simp] theorem State.occupied_core_endPc (s : State) (o : Nat) : (s.occupied o).core.endPc = s.core.endPc := rfl
@[simp] theorem State.occupied_core_waitRun (s : State) (o : Nat) : (s.occupied o).core.waitRun = s.core.waitRun := rfl
@[simp] theorem State.occupied_core_firm (s : State) (o : Nat) : (s.occupied o).core.firm = s.core.firm := rfl
@[simp] theorem State.occupied_core_pads (s : State) (o : Nat) : (s.occupied o).core.pads = s.core.pads := rfl

@[simp] theorem State.begun_mark (s : State) : s.begun.core.mark = .done := rfl
@[simp] theorem State.leaves_mark (s : State) (es : List Effect) : (s.leaves es).core.mark = .done := rfl
@[simp] theorem State.leaves_defer (s : State) (es : List Effect) : (s.leaves es).core.defer = s.core.defer ++ es := rfl
@[simp] theorem State.goes_npc (s : State) (a : Word) (i : Bool) : (s.goes a i).core.npc = a := rfl
@[simp] theorem State.occupied_mFree (s : State) (o : Nat) : (s.occupied o).core.mFree = s.core.cycle + o := rfl

/-! After State.reads -/

@[simp] theorem State.reads_parked (s : State) (w : List (Nat × Nat × Nat)) (z : List Nat) (u : Option Nat) (r : List ReadFor) :
    (s.reads w z u r).parked = s.parked := rfl
@[simp] theorem State.reads_mem (s : State) (w : List (Nat × Nat × Nat)) (z : List Nat) (u : Option Nat) (r : List ReadFor) :
    (s.reads w z u r).mem = s.mem := rfl
@[simp] theorem State.reads_larder (s : State) (w : List (Nat × Nat × Nat)) (z : List Nat) (u : Option Nat) (r : List ReadFor) :
    (s.reads w z u r).larder = s.larder := rfl
@[simp] theorem State.reads_reduce (s : State) (w : List (Nat × Nat × Nat)) (z : List Nat) (u : Option Nat) (r : List ReadFor) :
    (s.reads w z u r).reduce = s.reduce := rfl
@[simp] theorem State.reads_pantry (s : State) (w : List (Nat × Nat × Nat)) (z : List Nat) (u : Option Nat) (r : List ReadFor) :
    (s.reads w z u r).pantry = s.pantry := rfl
@[simp] theorem State.reads_fns (s : State) (w : List (Nat × Nat × Nat)) (z : List Nat) (u : Option Nat) (r : List ReadFor) :
    (s.reads w z u r).fns = s.fns := rfl
@[simp] theorem State.reads_dist (s : State) (w : List (Nat × Nat × Nat)) (z : List Nat) (u : Option Nat) (r : List ReadFor) :
    (s.reads w z u r).dist = s.dist := rfl
@[simp] theorem State.reads_sessions (s : State) (w : List (Nat × Nat × Nat)) (z : List Nat) (u : Option Nat) (r : List ReadFor) :
    (s.reads w z u r).sessions = s.sessions := rfl
@[simp] theorem State.reads_fabric (s : State) (w : List (Nat × Nat × Nat)) (z : List Nat) (u : Option Nat) (r : List ReadFor) :
    (s.reads w z u r).fabric = s.fabric := rfl
@[simp] theorem State.reads_ladders (s : State) (w : List (Nat × Nat × Nat)) (z : List Nat) (u : Option Nat) (r : List ReadFor) :
    (s.reads w z u r).ladders = s.ladders := rfl
@[simp] theorem State.reads_service (s : State) (w : List (Nat × Nat × Nat)) (z : List Nat) (u : Option Nat) (r : List ReadFor) :
    (s.reads w z u r).service = s.service := rfl
@[simp] theorem State.reads_meas (s : State) (w : List (Nat × Nat × Nat)) (z : List Nat) (u : Option Nat) (r : List ReadFor) :
    (s.reads w z u r).meas = s.meas := rfl
@[simp] theorem State.reads_library (s : State) (w : List (Nat × Nat × Nat)) (z : List Nat) (u : Option Nat) (r : List ReadFor) :
    (s.reads w z u r).library = s.library := rfl
@[simp] theorem State.reads_l2 (s : State) (w : List (Nat × Nat × Nat)) (z : List Nat) (u : Option Nat) (r : List ReadFor) :
    (s.reads w z u r).l2 = s.l2 := rfl
@[simp] theorem State.reads_bar2Out (s : State) (w : List (Nat × Nat × Nat)) (z : List Nat) (u : Option Nat) (r : List ReadFor) :
    (s.reads w z u r).bar2Out = s.bar2Out := rfl
@[simp] theorem State.reads_inputs (s : State) (w : List (Nat × Nat × Nat)) (z : List Nat) (u : Option Nat) (r : List ReadFor) :
    (s.reads w z u r).inputs = s.inputs := rfl
@[simp] theorem State.reads_fresh (s : State) (w : List (Nat × Nat × Nat)) (z : List Nat) (u : Option Nat) (r : List ReadFor) :
    (s.reads w z u r).fresh = s.fresh := rfl
@[simp] theorem State.reads_powered (s : State) (w : List (Nat × Nat × Nat)) (z : List Nat) (u : Option Nat) (r : List ReadFor) :
    (s.reads w z u r).powered = s.powered := rfl
@[simp] theorem State.reads_core_id (s : State) (w : List (Nat × Nat × Nat)) (z : List Nat) (u : Option Nat) (r : List ReadFor) :
    (s.reads w z u r).core.id = s.core.id := rfl
@[simp] theorem State.reads_core_run (s : State) (w : List (Nat × Nat × Nat)) (z : List Nat) (u : Option Nat) (r : List ReadFor) :
    (s.reads w z u r).core.run = s.core.run := rfl
@[simp] theorem State.reads_core_task (s : State) (w : List (Nat × Nat × Nat)) (z : List Nat) (u : Option Nat) (r : List ReadFor) :
    (s.reads w z u r).core.task = s.core.task := rfl
@[simp] theorem State.reads_core_kern (s : State) (w : List (Nat × Nat × Nat)) (z : List Nat) (u : Option Nat) (r : List ReadFor) :
    (s.reads w z u r).core.kern = s.core.kern := rfl
@[simp] theorem State.reads_core_pc (s : State) (w : List (Nat × Nat × Nat)) (z : List Nat) (u : Option Nat) (r : List ReadFor) :
    (s.reads w z u r).core.pc = s.core.pc := rfl
@[simp] theorem State.reads_core_npc (s : State) (w : List (Nat × Nat × Nat)) (z : List Nat) (u : Option Nat) (r : List ReadFor) :
    (s.reads w z u r).core.npc = s.core.npc := rfl
@[simp] theorem State.reads_core_xfer (s : State) (w : List (Nat × Nat × Nat)) (z : List Nat) (u : Option Nat) (r : List ReadFor) :
    (s.reads w z u r).core.xfer = s.core.xfer := rfl
@[simp] theorem State.reads_core_taken (s : State) (w : List (Nat × Nat × Nat)) (z : List Nat) (u : Option Nat) (r : List ReadFor) :
    (s.reads w z u r).core.taken = s.core.taken := rfl
@[simp] theorem State.reads_core_level (s : State) (w : List (Nat × Nat × Nat)) (z : List Nat) (u : Option Nat) (r : List ReadFor) :
    (s.reads w z u r).core.level = s.core.level := rfl
@[simp] theorem State.reads_core_handler (s : State) (w : List (Nat × Nat × Nat)) (z : List Nat) (u : Option Nat) (r : List ReadFor) :
    (s.reads w z u r).core.handler = s.core.handler := rfl
@[simp] theorem State.reads_core_sup (s : State) (w : List (Nat × Nat × Nat)) (z : List Nat) (u : Option Nat) (r : List ReadFor) :
    (s.reads w z u r).core.sup = s.core.sup := rfl
@[simp] theorem State.reads_core_regs (s : State) (w : List (Nat × Nat × Nat)) (z : List Nat) (u : Option Nat) (r : List ReadFor) :
    (s.reads w z u r).core.regs = s.core.regs := rfl
@[simp] theorem State.reads_core_maps (s : State) (w : List (Nat × Nat × Nat)) (z : List Nat) (u : Option Nat) (r : List ReadFor) :
    (s.reads w z u r).core.maps = s.core.maps := rfl
@[simp] theorem State.reads_core_frames (s : State) (w : List (Nat × Nat × Nat)) (z : List Nat) (u : Option Nat) (r : List ReadFor) :
    (s.reads w z u r).core.frames = s.core.frames := rfl
@[simp] theorem State.reads_core_spilled (s : State) (w : List (Nat × Nat × Nat)) (z : List Nat) (u : Option Nat) (r : List ReadFor) :
    (s.reads w z u r).core.spilled = s.core.spilled := rfl
@[simp] theorem State.reads_core_rets (s : State) (w : List (Nat × Nat × Nat)) (z : List Nat) (u : Option Nat) (r : List ReadFor) :
    (s.reads w z u r).core.rets = s.core.rets := rfl
@[simp] theorem State.reads_core_cr (s : State) (w : List (Nat × Nat × Nat)) (z : List Nat) (u : Option Nat) (r : List ReadFor) :
    (s.reads w z u r).core.cr = s.core.cr := rfl
@[simp] theorem State.reads_core_events (s : State) (w : List (Nat × Nat × Nat)) (z : List Nat) (u : Option Nat) (r : List ReadFor) :
    (s.reads w z u r).core.events = s.core.events := rfl
@[simp] theorem State.reads_core_cycle (s : State) (w : List (Nat × Nat × Nat)) (z : List Nat) (u : Option Nat) (r : List ReadFor) :
    (s.reads w z u r).core.cycle = s.core.cycle := rfl
@[simp] theorem State.reads_core_cur (s : State) (w : List (Nat × Nat × Nat)) (z : List Nat) (u : Option Nat) (r : List ReadFor) :
    (s.reads w z u r).core.cur = s.core.cur := rfl
@[simp] theorem State.reads_core_defer (s : State) (w : List (Nat × Nat × Nat)) (z : List Nat) (u : Option Nat) (r : List ReadFor) :
    (s.reads w z u r).core.defer = s.core.defer := rfl
@[simp] theorem State.reads_core_mark (s : State) (w : List (Nat × Nat × Nat)) (z : List Nat) (u : Option Nat) (r : List ReadFor) :
    (s.reads w z u r).core.mark = s.core.mark := rfl
@[simp] theorem State.reads_core_leaf (s : State) (w : List (Nat × Nat × Nat)) (z : List Nat) (u : Option Nat) (r : List ReadFor) :
    (s.reads w z u r).core.leaf = s.core.leaf := rfl
@[simp] theorem State.reads_core_flights (s : State) (w : List (Nat × Nat × Nat)) (z : List Nat) (u : Option Nat) (r : List ReadFor) :
    (s.reads w z u r).core.flights = s.core.flights := rfl
@[simp] theorem State.reads_core_tflights (s : State) (w : List (Nat × Nat × Nat)) (z : List Nat) (u : Option Nat) (r : List ReadFor) :
    (s.reads w z u r).core.tflights = s.core.tflights := rfl
@[simp] theorem State.reads_core_pflights (s : State) (w : List (Nat × Nat × Nat)) (z : List Nat) (u : Option Nat) (r : List ReadFor) :
    (s.reads w z u r).core.pflights = s.core.pflights := rfl
@[simp] theorem State.reads_core_drains (s : State) (w : List (Nat × Nat × Nat)) (z : List Nat) (u : Option Nat) (r : List ReadFor) :
    (s.reads w z u r).core.drains = s.core.drains := rfl
@[simp] theorem State.reads_core_order (s : State) (w : List (Nat × Nat × Nat)) (z : List Nat) (u : Option Nat) (r : List ReadFor) :
    (s.reads w z u r).core.order = s.core.order := rfl
@[simp] theorem State.reads_core_l1 (s : State) (w : List (Nat × Nat × Nat)) (z : List Nat) (u : Option Nat) (r : List ReadFor) :
    (s.reads w z u r).core.l1 = s.core.l1 := rfl
@[simp] theorem State.reads_core_upd (s : State) (w : List (Nat × Nat × Nat)) (z : List Nat) (u : Option Nat) (r : List ReadFor) :
    (s.reads w z u r).core.upd = s.core.upd := rfl
@[simp] theorem State.reads_core_tlb (s : State) (w : List (Nat × Nat × Nat)) (z : List Nat) (u : Option Nat) (r : List ReadFor) :
    (s.reads w z u r).core.tlb = s.core.tlb := rfl
@[simp] theorem State.reads_core_specials (s : State) (w : List (Nat × Nat × Nat)) (z : List Nat) (u : Option Nat) (r : List ReadFor) :
    (s.reads w z u r).core.specials = s.core.specials := rfl
@[simp] theorem State.reads_core_steered (s : State) (w : List (Nat × Nat × Nat)) (z : List Nat) (u : Option Nat) (r : List ReadFor) :
    (s.reads w z u r).core.steered = s.core.steered := rfl
@[simp] theorem State.reads_core_queues (s : State) (w : List (Nat × Nat × Nat)) (z : List Nat) (u : Option Nat) (r : List ReadFor) :
    (s.reads w z u r).core.queues = s.core.queues := rfl
@[simp] theorem State.reads_core_ring (s : State) (w : List (Nat × Nat × Nat)) (z : List Nat) (u : Option Nat) (r : List ReadFor) :
    (s.reads w z u r).core.ring = s.core.ring := rfl
@[simp] theorem State.reads_core_tiles (s : State) (w : List (Nat × Nat × Nat)) (z : List Nat) (u : Option Nat) (r : List ReadFor) :
    (s.reads w z u r).core.tiles = s.core.tiles := rfl
@[simp] theorem State.reads_core_patterns (s : State) (w : List (Nat × Nat × Nat)) (z : List Nat) (u : Option Nat) (r : List ReadFor) :
    (s.reads w z u r).core.patterns = s.core.patterns := rfl
@[simp] theorem State.reads_core_patBank (s : State) (w : List (Nat × Nat × Nat)) (z : List Nat) (u : Option Nat) (r : List ReadFor) :
    (s.reads w z u r).core.patBank = s.core.patBank := rfl
@[simp] theorem State.reads_core_tags (s : State) (w : List (Nat × Nat × Nat)) (z : List Nat) (u : Option Nat) (r : List ReadFor) :
    (s.reads w z u r).core.tags = s.core.tags := rfl
@[simp] theorem State.reads_core_hand (s : State) (w : List (Nat × Nat × Nat)) (z : List Nat) (u : Option Nat) (r : List ReadFor) :
    (s.reads w z u r).core.hand = s.core.hand := rfl
@[simp] theorem State.reads_core_tagged (s : State) (w : List (Nat × Nat × Nat)) (z : List Nat) (u : Option Nat) (r : List ReadFor) :
    (s.reads w z u r).core.tagged = s.core.tagged := rfl
@[simp] theorem State.reads_core_bfmt (s : State) (w : List (Nat × Nat × Nat)) (z : List Nat) (u : Option Nat) (r : List ReadFor) :
    (s.reads w z u r).core.bfmt = s.core.bfmt := rfl
@[simp] theorem State.reads_core_carve (s : State) (w : List (Nat × Nat × Nat)) (z : List Nat) (u : Option Nat) (r : List ReadFor) :
    (s.reads w z u r).core.carve = s.core.carve := rfl
@[simp] theorem State.reads_core_deferred (s : State) (w : List (Nat × Nat × Nat)) (z : List Nat) (u : Option Nat) (r : List ReadFor) :
    (s.reads w z u r).core.deferred = s.core.deferred := rfl
@[simp] theorem State.reads_core_emul (s : State) (w : List (Nat × Nat × Nat)) (z : List Nat) (u : Option Nat) (r : List ReadFor) :
    (s.reads w z u r).core.emul = s.core.emul := rfl
@[simp] theorem State.reads_core_serving (s : State) (w : List (Nat × Nat × Nat)) (z : List Nat) (u : Option Nat) (r : List ReadFor) :
    (s.reads w z u r).core.serving = s.core.serving := rfl
@[simp] theorem State.reads_core_preempt (s : State) (w : List (Nat × Nat × Nat)) (z : List Nat) (u : Option Nat) (r : List ReadFor) :
    (s.reads w z u r).core.preempt = s.core.preempt := rfl
@[simp] theorem State.reads_core_watchPa (s : State) (w : List (Nat × Nat × Nat)) (z : List Nat) (u : Option Nat) (r : List ReadFor) :
    (s.reads w z u r).core.watchPa = s.core.watchPa := rfl
@[simp] theorem State.reads_core_faults (s : State) (w : List (Nat × Nat × Nat)) (z : List Nat) (u : Option Nat) (r : List ReadFor) :
    (s.reads w z u r).core.faults = s.core.faults := rfl
@[simp] theorem State.reads_core_arrivals (s : State) (w : List (Nat × Nat × Nat)) (z : List Nat) (u : Option Nat) (r : List ReadFor) :
    (s.reads w z u r).core.arrivals = s.core.arrivals := rfl
@[simp] theorem State.reads_core_gbars (s : State) (w : List (Nat × Nat × Nat)) (z : List Nat) (u : Option Nat) (r : List ReadFor) :
    (s.reads w z u r).core.gbars = s.core.gbars := rfl
@[simp] theorem State.reads_core_asleep (s : State) (w : List (Nat × Nat × Nat)) (z : List Nat) (u : Option Nat) (r : List ReadFor) :
    (s.reads w z u r).core.asleep = s.core.asleep := rfl
@[simp] theorem State.reads_core_uepc0 (s : State) (w : List (Nat × Nat × Nat)) (z : List Nat) (u : Option Nat) (r : List ReadFor) :
    (s.reads w z u r).core.uepc0 = s.core.uepc0 := rfl
@[simp] theorem State.reads_core_sepc0 (s : State) (w : List (Nat × Nat × Nat)) (z : List Nat) (u : Option Nat) (r : List ReadFor) :
    (s.reads w z u r).core.sepc0 = s.core.sepc0 := rfl
@[simp] theorem State.reads_core_rpc (s : State) (w : List (Nat × Nat × Nat)) (z : List Nat) (u : Option Nat) (r : List ReadFor) :
    (s.reads w z u r).core.rpc = s.core.rpc := rfl
@[simp] theorem State.reads_core_uxfer (s : State) (w : List (Nat × Nat × Nat)) (z : List Nat) (u : Option Nat) (r : List ReadFor) :
    (s.reads w z u r).core.uxfer = s.core.uxfer := rfl
@[simp] theorem State.reads_core_sxfer (s : State) (w : List (Nat × Nat × Nat)) (z : List Nat) (u : Option Nat) (r : List ReadFor) :
    (s.reads w z u r).core.sxfer = s.core.sxfer := rfl
@[simp] theorem State.reads_core_rxfer (s : State) (w : List (Nat × Nat × Nat)) (z : List Nat) (u : Option Nat) (r : List ReadFor) :
    (s.reads w z u r).core.rxfer = s.core.rxfer := rfl
@[simp] theorem State.reads_core_owed (s : State) (w : List (Nat × Nat × Nat)) (z : List Nat) (u : Option Nat) (r : List ReadFor) :
    (s.reads w z u r).core.owed = s.core.owed := rfl
@[simp] theorem State.reads_core_restore (s : State) (w : List (Nat × Nat × Nat)) (z : List Nat) (u : Option Nat) (r : List ReadFor) :
    (s.reads w z u r).core.restore = s.core.restore := rfl
@[simp] theorem State.reads_core_savePend (s : State) (w : List (Nat × Nat × Nat)) (z : List Nat) (u : Option Nat) (r : List ReadFor) :
    (s.reads w z u r).core.savePend = s.core.savePend := rfl
@[simp] theorem State.reads_core_forced (s : State) (w : List (Nat × Nat × Nat)) (z : List Nat) (u : Option Nat) (r : List ReadFor) :
    (s.reads w z u r).core.forced = s.core.forced := rfl
@[simp] theorem State.reads_core_resumedStub (s : State) (w : List (Nat × Nat × Nat)) (z : List Nat) (u : Option Nat) (r : List ReadFor) :
    (s.reads w z u r).core.resumedStub = s.core.resumedStub := rfl
@[simp] theorem State.reads_core_tileBase (s : State) (w : List (Nat × Nat × Nat)) (z : List Nat) (u : Option Nat) (r : List ReadFor) :
    (s.reads w z u r).core.tileBase = s.core.tileBase := rfl
@[simp] theorem State.reads_core_entryFrames (s : State) (w : List (Nat × Nat × Nat)) (z : List Nat) (u : Option Nat) (r : List ReadFor) :
    (s.reads w z u r).core.entryFrames = s.core.entryFrames := rfl
@[simp] theorem State.reads_core_session (s : State) (w : List (Nat × Nat × Nat)) (z : List Nat) (u : Option Nat) (r : List ReadFor) :
    (s.reads w z u r).core.session = s.core.session := rfl
@[simp] theorem State.reads_core_discarded (s : State) (w : List (Nat × Nat × Nat)) (z : List Nat) (u : Option Nat) (r : List ReadFor) :
    (s.reads w z u r).core.discarded = s.core.discarded := rfl
@[simp] theorem State.reads_core_born (s : State) (w : List (Nat × Nat × Nat)) (z : List Nat) (u : Option Nat) (r : List ReadFor) :
    (s.reads w z u r).core.born = s.core.born := rfl
@[simp] theorem State.reads_core_endPc (s : State) (w : List (Nat × Nat × Nat)) (z : List Nat) (u : Option Nat) (r : List ReadFor) :
    (s.reads w z u r).core.endPc = s.core.endPc := rfl
@[simp] theorem State.reads_core_waitRun (s : State) (w : List (Nat × Nat × Nat)) (z : List Nat) (u : Option Nat) (r : List ReadFor) :
    (s.reads w z u r).core.waitRun = s.core.waitRun := rfl
@[simp] theorem State.reads_core_firm (s : State) (w : List (Nat × Nat × Nat)) (z : List Nat) (u : Option Nat) (r : List ReadFor) :
    (s.reads w z u r).core.firm = s.core.firm := rfl
@[simp] theorem State.reads_core_pads (s : State) (w : List (Nat × Nat × Nat)) (z : List Nat) (u : Option Nat) (r : List ReadFor) :
    (s.reads w z u r).core.pads = s.core.pads := rfl
@[simp] theorem State.reads_core_mFree (s : State) (w : List (Nat × Nat × Nat)) (z : List Nat) (u : Option Nat) (r : List ReadFor) :
    (s.reads w z u r).core.mFree = s.core.mFree := rfl

/-! After Core.setCtl -/

@[simp] theorem Core.setCtl_id (c : Core) (n : Nat) (v : Word) : (c.setCtl n v).id = c.id := rfl
@[simp] theorem Core.setCtl_run (c : Core) (n : Nat) (v : Word) : (c.setCtl n v).run = c.run := rfl
@[simp] theorem Core.setCtl_task (c : Core) (n : Nat) (v : Word) : (c.setCtl n v).task = c.task := rfl
@[simp] theorem Core.setCtl_kern (c : Core) (n : Nat) (v : Word) : (c.setCtl n v).kern = c.kern := rfl
@[simp] theorem Core.setCtl_pc (c : Core) (n : Nat) (v : Word) : (c.setCtl n v).pc = c.pc := rfl
@[simp] theorem Core.setCtl_npc (c : Core) (n : Nat) (v : Word) : (c.setCtl n v).npc = c.npc := rfl
@[simp] theorem Core.setCtl_xfer (c : Core) (n : Nat) (v : Word) : (c.setCtl n v).xfer = c.xfer := rfl
@[simp] theorem Core.setCtl_taken (c : Core) (n : Nat) (v : Word) : (c.setCtl n v).taken = c.taken := rfl
@[simp] theorem Core.setCtl_level (c : Core) (n : Nat) (v : Word) : (c.setCtl n v).level = c.level := rfl
@[simp] theorem Core.setCtl_handler (c : Core) (n : Nat) (v : Word) : (c.setCtl n v).handler = c.handler := rfl
@[simp] theorem Core.setCtl_sup (c : Core) (n : Nat) (v : Word) : (c.setCtl n v).sup = c.sup := rfl
@[simp] theorem Core.setCtl_regs (c : Core) (n : Nat) (v : Word) : (c.setCtl n v).regs = c.regs := rfl
@[simp] theorem Core.setCtl_maps (c : Core) (n : Nat) (v : Word) : (c.setCtl n v).maps = c.maps := rfl
@[simp] theorem Core.setCtl_frames (c : Core) (n : Nat) (v : Word) : (c.setCtl n v).frames = c.frames := rfl
@[simp] theorem Core.setCtl_spilled (c : Core) (n : Nat) (v : Word) : (c.setCtl n v).spilled = c.spilled := rfl
@[simp] theorem Core.setCtl_rets (c : Core) (n : Nat) (v : Word) : (c.setCtl n v).rets = c.rets := rfl
@[simp] theorem Core.setCtl_events (c : Core) (n : Nat) (v : Word) : (c.setCtl n v).events = c.events := rfl
@[simp] theorem Core.setCtl_cycle (c : Core) (n : Nat) (v : Word) : (c.setCtl n v).cycle = c.cycle := rfl
@[simp] theorem Core.setCtl_cur (c : Core) (n : Nat) (v : Word) : (c.setCtl n v).cur = c.cur := rfl
@[simp] theorem Core.setCtl_defer (c : Core) (n : Nat) (v : Word) : (c.setCtl n v).defer = c.defer := rfl
@[simp] theorem Core.setCtl_mark (c : Core) (n : Nat) (v : Word) : (c.setCtl n v).mark = c.mark := rfl
@[simp] theorem Core.setCtl_leaf (c : Core) (n : Nat) (v : Word) : (c.setCtl n v).leaf = c.leaf := rfl
@[simp] theorem Core.setCtl_flights (c : Core) (n : Nat) (v : Word) : (c.setCtl n v).flights = c.flights := rfl
@[simp] theorem Core.setCtl_tflights (c : Core) (n : Nat) (v : Word) : (c.setCtl n v).tflights = c.tflights := rfl
@[simp] theorem Core.setCtl_pflights (c : Core) (n : Nat) (v : Word) : (c.setCtl n v).pflights = c.pflights := rfl
@[simp] theorem Core.setCtl_drains (c : Core) (n : Nat) (v : Word) : (c.setCtl n v).drains = c.drains := rfl
@[simp] theorem Core.setCtl_reads (c : Core) (n : Nat) (v : Word) : (c.setCtl n v).reads = c.reads := rfl
@[simp] theorem Core.setCtl_mFree (c : Core) (n : Nat) (v : Word) : (c.setCtl n v).mFree = c.mFree := rfl
@[simp] theorem Core.setCtl_order (c : Core) (n : Nat) (v : Word) : (c.setCtl n v).order = c.order := rfl
@[simp] theorem Core.setCtl_l1 (c : Core) (n : Nat) (v : Word) : (c.setCtl n v).l1 = c.l1 := rfl
@[simp] theorem Core.setCtl_upd (c : Core) (n : Nat) (v : Word) : (c.setCtl n v).upd = c.upd := rfl
@[simp] theorem Core.setCtl_tlb (c : Core) (n : Nat) (v : Word) : (c.setCtl n v).tlb = c.tlb := rfl
@[simp] theorem Core.setCtl_specials (c : Core) (n : Nat) (v : Word) : (c.setCtl n v).specials = c.specials := rfl
@[simp] theorem Core.setCtl_steered (c : Core) (n : Nat) (v : Word) : (c.setCtl n v).steered = c.steered := rfl
@[simp] theorem Core.setCtl_queues (c : Core) (n : Nat) (v : Word) : (c.setCtl n v).queues = c.queues := rfl
@[simp] theorem Core.setCtl_ring (c : Core) (n : Nat) (v : Word) : (c.setCtl n v).ring = c.ring := rfl
@[simp] theorem Core.setCtl_tiles (c : Core) (n : Nat) (v : Word) : (c.setCtl n v).tiles = c.tiles := rfl
@[simp] theorem Core.setCtl_patterns (c : Core) (n : Nat) (v : Word) : (c.setCtl n v).patterns = c.patterns := rfl
@[simp] theorem Core.setCtl_patBank (c : Core) (n : Nat) (v : Word) : (c.setCtl n v).patBank = c.patBank := rfl
@[simp] theorem Core.setCtl_tags (c : Core) (n : Nat) (v : Word) : (c.setCtl n v).tags = c.tags := rfl
@[simp] theorem Core.setCtl_hand (c : Core) (n : Nat) (v : Word) : (c.setCtl n v).hand = c.hand := rfl
@[simp] theorem Core.setCtl_tagged (c : Core) (n : Nat) (v : Word) : (c.setCtl n v).tagged = c.tagged := rfl
@[simp] theorem Core.setCtl_bfmt (c : Core) (n : Nat) (v : Word) : (c.setCtl n v).bfmt = c.bfmt := rfl
@[simp] theorem Core.setCtl_carve (c : Core) (n : Nat) (v : Word) : (c.setCtl n v).carve = c.carve := rfl
@[simp] theorem Core.setCtl_deferred (c : Core) (n : Nat) (v : Word) : (c.setCtl n v).deferred = c.deferred := rfl
@[simp] theorem Core.setCtl_emul (c : Core) (n : Nat) (v : Word) : (c.setCtl n v).emul = c.emul := rfl
@[simp] theorem Core.setCtl_serving (c : Core) (n : Nat) (v : Word) : (c.setCtl n v).serving = c.serving := rfl
@[simp] theorem Core.setCtl_preempt (c : Core) (n : Nat) (v : Word) : (c.setCtl n v).preempt = c.preempt := rfl
@[simp] theorem Core.setCtl_watchPa (c : Core) (n : Nat) (v : Word) : (c.setCtl n v).watchPa = c.watchPa := rfl
@[simp] theorem Core.setCtl_faults (c : Core) (n : Nat) (v : Word) : (c.setCtl n v).faults = c.faults := rfl
@[simp] theorem Core.setCtl_arrivals (c : Core) (n : Nat) (v : Word) : (c.setCtl n v).arrivals = c.arrivals := rfl
@[simp] theorem Core.setCtl_gbars (c : Core) (n : Nat) (v : Word) : (c.setCtl n v).gbars = c.gbars := rfl
@[simp] theorem Core.setCtl_asleep (c : Core) (n : Nat) (v : Word) : (c.setCtl n v).asleep = c.asleep := rfl
@[simp] theorem Core.setCtl_uepc0 (c : Core) (n : Nat) (v : Word) : (c.setCtl n v).uepc0 = c.uepc0 := rfl
@[simp] theorem Core.setCtl_sepc0 (c : Core) (n : Nat) (v : Word) : (c.setCtl n v).sepc0 = c.sepc0 := rfl
@[simp] theorem Core.setCtl_rpc (c : Core) (n : Nat) (v : Word) : (c.setCtl n v).rpc = c.rpc := rfl
@[simp] theorem Core.setCtl_uxfer (c : Core) (n : Nat) (v : Word) : (c.setCtl n v).uxfer = c.uxfer := rfl
@[simp] theorem Core.setCtl_sxfer (c : Core) (n : Nat) (v : Word) : (c.setCtl n v).sxfer = c.sxfer := rfl
@[simp] theorem Core.setCtl_rxfer (c : Core) (n : Nat) (v : Word) : (c.setCtl n v).rxfer = c.rxfer := rfl
@[simp] theorem Core.setCtl_owed (c : Core) (n : Nat) (v : Word) : (c.setCtl n v).owed = c.owed := rfl
@[simp] theorem Core.setCtl_restore (c : Core) (n : Nat) (v : Word) : (c.setCtl n v).restore = c.restore := rfl
@[simp] theorem Core.setCtl_savePend (c : Core) (n : Nat) (v : Word) : (c.setCtl n v).savePend = c.savePend := rfl
@[simp] theorem Core.setCtl_forced (c : Core) (n : Nat) (v : Word) : (c.setCtl n v).forced = c.forced := rfl
@[simp] theorem Core.setCtl_resumedStub (c : Core) (n : Nat) (v : Word) : (c.setCtl n v).resumedStub = c.resumedStub := rfl
@[simp] theorem Core.setCtl_tileBase (c : Core) (n : Nat) (v : Word) : (c.setCtl n v).tileBase = c.tileBase := rfl
@[simp] theorem Core.setCtl_entryFrames (c : Core) (n : Nat) (v : Word) : (c.setCtl n v).entryFrames = c.entryFrames := rfl
@[simp] theorem Core.setCtl_session (c : Core) (n : Nat) (v : Word) : (c.setCtl n v).session = c.session := rfl
@[simp] theorem Core.setCtl_discarded (c : Core) (n : Nat) (v : Word) : (c.setCtl n v).discarded = c.discarded := rfl
@[simp] theorem Core.setCtl_born (c : Core) (n : Nat) (v : Word) : (c.setCtl n v).born = c.born := rfl
@[simp] theorem Core.setCtl_endPc (c : Core) (n : Nat) (v : Word) : (c.setCtl n v).endPc = c.endPc := rfl
@[simp] theorem Core.setCtl_waitRun (c : Core) (n : Nat) (v : Word) : (c.setCtl n v).waitRun = c.waitRun := rfl
@[simp] theorem Core.setCtl_firm (c : Core) (n : Nat) (v : Word) : (c.setCtl n v).firm = c.firm := rfl
@[simp] theorem Core.setCtl_pads (c : Core) (n : Nat) (v : Word) : (c.setCtl n v).pads = c.pads := rfl

/-! After Core.setCell -/

@[simp] theorem Core.setCell_id (c : Core) (k : Nat) (r : RegCell) : (c.setCell k r).id = c.id := rfl
@[simp] theorem Core.setCell_run (c : Core) (k : Nat) (r : RegCell) : (c.setCell k r).run = c.run := rfl
@[simp] theorem Core.setCell_task (c : Core) (k : Nat) (r : RegCell) : (c.setCell k r).task = c.task := rfl
@[simp] theorem Core.setCell_kern (c : Core) (k : Nat) (r : RegCell) : (c.setCell k r).kern = c.kern := rfl
@[simp] theorem Core.setCell_pc (c : Core) (k : Nat) (r : RegCell) : (c.setCell k r).pc = c.pc := rfl
@[simp] theorem Core.setCell_npc (c : Core) (k : Nat) (r : RegCell) : (c.setCell k r).npc = c.npc := rfl
@[simp] theorem Core.setCell_xfer (c : Core) (k : Nat) (r : RegCell) : (c.setCell k r).xfer = c.xfer := rfl
@[simp] theorem Core.setCell_taken (c : Core) (k : Nat) (r : RegCell) : (c.setCell k r).taken = c.taken := rfl
@[simp] theorem Core.setCell_level (c : Core) (k : Nat) (r : RegCell) : (c.setCell k r).level = c.level := rfl
@[simp] theorem Core.setCell_handler (c : Core) (k : Nat) (r : RegCell) : (c.setCell k r).handler = c.handler := rfl
@[simp] theorem Core.setCell_sup (c : Core) (k : Nat) (r : RegCell) : (c.setCell k r).sup = c.sup := rfl
@[simp] theorem Core.setCell_maps (c : Core) (k : Nat) (r : RegCell) : (c.setCell k r).maps = c.maps := rfl
@[simp] theorem Core.setCell_frames (c : Core) (k : Nat) (r : RegCell) : (c.setCell k r).frames = c.frames := rfl
@[simp] theorem Core.setCell_spilled (c : Core) (k : Nat) (r : RegCell) : (c.setCell k r).spilled = c.spilled := rfl
@[simp] theorem Core.setCell_rets (c : Core) (k : Nat) (r : RegCell) : (c.setCell k r).rets = c.rets := rfl
@[simp] theorem Core.setCell_cr (c : Core) (k : Nat) (r : RegCell) : (c.setCell k r).cr = c.cr := rfl
@[simp] theorem Core.setCell_events (c : Core) (k : Nat) (r : RegCell) : (c.setCell k r).events = c.events := rfl
@[simp] theorem Core.setCell_cycle (c : Core) (k : Nat) (r : RegCell) : (c.setCell k r).cycle = c.cycle := rfl
@[simp] theorem Core.setCell_cur (c : Core) (k : Nat) (r : RegCell) : (c.setCell k r).cur = c.cur := rfl
@[simp] theorem Core.setCell_defer (c : Core) (k : Nat) (r : RegCell) : (c.setCell k r).defer = c.defer := rfl
@[simp] theorem Core.setCell_mark (c : Core) (k : Nat) (r : RegCell) : (c.setCell k r).mark = c.mark := rfl
@[simp] theorem Core.setCell_leaf (c : Core) (k : Nat) (r : RegCell) : (c.setCell k r).leaf = c.leaf := rfl
@[simp] theorem Core.setCell_flights (c : Core) (k : Nat) (r : RegCell) : (c.setCell k r).flights = c.flights := rfl
@[simp] theorem Core.setCell_tflights (c : Core) (k : Nat) (r : RegCell) : (c.setCell k r).tflights = c.tflights := rfl
@[simp] theorem Core.setCell_pflights (c : Core) (k : Nat) (r : RegCell) : (c.setCell k r).pflights = c.pflights := rfl
@[simp] theorem Core.setCell_drains (c : Core) (k : Nat) (r : RegCell) : (c.setCell k r).drains = c.drains := rfl
@[simp] theorem Core.setCell_reads (c : Core) (k : Nat) (r : RegCell) : (c.setCell k r).reads = c.reads := rfl
@[simp] theorem Core.setCell_mFree (c : Core) (k : Nat) (r : RegCell) : (c.setCell k r).mFree = c.mFree := rfl
@[simp] theorem Core.setCell_order (c : Core) (k : Nat) (r : RegCell) : (c.setCell k r).order = c.order := rfl
@[simp] theorem Core.setCell_l1 (c : Core) (k : Nat) (r : RegCell) : (c.setCell k r).l1 = c.l1 := rfl
@[simp] theorem Core.setCell_upd (c : Core) (k : Nat) (r : RegCell) : (c.setCell k r).upd = c.upd := rfl
@[simp] theorem Core.setCell_tlb (c : Core) (k : Nat) (r : RegCell) : (c.setCell k r).tlb = c.tlb := rfl
@[simp] theorem Core.setCell_specials (c : Core) (k : Nat) (r : RegCell) : (c.setCell k r).specials = c.specials := rfl
@[simp] theorem Core.setCell_steered (c : Core) (k : Nat) (r : RegCell) : (c.setCell k r).steered = c.steered := rfl
@[simp] theorem Core.setCell_queues (c : Core) (k : Nat) (r : RegCell) : (c.setCell k r).queues = c.queues := rfl
@[simp] theorem Core.setCell_ring (c : Core) (k : Nat) (r : RegCell) : (c.setCell k r).ring = c.ring := rfl
@[simp] theorem Core.setCell_tiles (c : Core) (k : Nat) (r : RegCell) : (c.setCell k r).tiles = c.tiles := rfl
@[simp] theorem Core.setCell_patterns (c : Core) (k : Nat) (r : RegCell) : (c.setCell k r).patterns = c.patterns := rfl
@[simp] theorem Core.setCell_patBank (c : Core) (k : Nat) (r : RegCell) : (c.setCell k r).patBank = c.patBank := rfl
@[simp] theorem Core.setCell_tags (c : Core) (k : Nat) (r : RegCell) : (c.setCell k r).tags = c.tags := rfl
@[simp] theorem Core.setCell_hand (c : Core) (k : Nat) (r : RegCell) : (c.setCell k r).hand = c.hand := rfl
@[simp] theorem Core.setCell_tagged (c : Core) (k : Nat) (r : RegCell) : (c.setCell k r).tagged = c.tagged := rfl
@[simp] theorem Core.setCell_bfmt (c : Core) (k : Nat) (r : RegCell) : (c.setCell k r).bfmt = c.bfmt := rfl
@[simp] theorem Core.setCell_carve (c : Core) (k : Nat) (r : RegCell) : (c.setCell k r).carve = c.carve := rfl
@[simp] theorem Core.setCell_deferred (c : Core) (k : Nat) (r : RegCell) : (c.setCell k r).deferred = c.deferred := rfl
@[simp] theorem Core.setCell_emul (c : Core) (k : Nat) (r : RegCell) : (c.setCell k r).emul = c.emul := rfl
@[simp] theorem Core.setCell_serving (c : Core) (k : Nat) (r : RegCell) : (c.setCell k r).serving = c.serving := rfl
@[simp] theorem Core.setCell_preempt (c : Core) (k : Nat) (r : RegCell) : (c.setCell k r).preempt = c.preempt := rfl
@[simp] theorem Core.setCell_watchPa (c : Core) (k : Nat) (r : RegCell) : (c.setCell k r).watchPa = c.watchPa := rfl
@[simp] theorem Core.setCell_faults (c : Core) (k : Nat) (r : RegCell) : (c.setCell k r).faults = c.faults := rfl
@[simp] theorem Core.setCell_arrivals (c : Core) (k : Nat) (r : RegCell) : (c.setCell k r).arrivals = c.arrivals := rfl
@[simp] theorem Core.setCell_gbars (c : Core) (k : Nat) (r : RegCell) : (c.setCell k r).gbars = c.gbars := rfl
@[simp] theorem Core.setCell_asleep (c : Core) (k : Nat) (r : RegCell) : (c.setCell k r).asleep = c.asleep := rfl
@[simp] theorem Core.setCell_uepc0 (c : Core) (k : Nat) (r : RegCell) : (c.setCell k r).uepc0 = c.uepc0 := rfl
@[simp] theorem Core.setCell_sepc0 (c : Core) (k : Nat) (r : RegCell) : (c.setCell k r).sepc0 = c.sepc0 := rfl
@[simp] theorem Core.setCell_rpc (c : Core) (k : Nat) (r : RegCell) : (c.setCell k r).rpc = c.rpc := rfl
@[simp] theorem Core.setCell_uxfer (c : Core) (k : Nat) (r : RegCell) : (c.setCell k r).uxfer = c.uxfer := rfl
@[simp] theorem Core.setCell_sxfer (c : Core) (k : Nat) (r : RegCell) : (c.setCell k r).sxfer = c.sxfer := rfl
@[simp] theorem Core.setCell_rxfer (c : Core) (k : Nat) (r : RegCell) : (c.setCell k r).rxfer = c.rxfer := rfl
@[simp] theorem Core.setCell_owed (c : Core) (k : Nat) (r : RegCell) : (c.setCell k r).owed = c.owed := rfl
@[simp] theorem Core.setCell_restore (c : Core) (k : Nat) (r : RegCell) : (c.setCell k r).restore = c.restore := rfl
@[simp] theorem Core.setCell_savePend (c : Core) (k : Nat) (r : RegCell) : (c.setCell k r).savePend = c.savePend := rfl
@[simp] theorem Core.setCell_forced (c : Core) (k : Nat) (r : RegCell) : (c.setCell k r).forced = c.forced := rfl
@[simp] theorem Core.setCell_resumedStub (c : Core) (k : Nat) (r : RegCell) : (c.setCell k r).resumedStub = c.resumedStub := rfl
@[simp] theorem Core.setCell_tileBase (c : Core) (k : Nat) (r : RegCell) : (c.setCell k r).tileBase = c.tileBase := rfl
@[simp] theorem Core.setCell_entryFrames (c : Core) (k : Nat) (r : RegCell) : (c.setCell k r).entryFrames = c.entryFrames := rfl
@[simp] theorem Core.setCell_session (c : Core) (k : Nat) (r : RegCell) : (c.setCell k r).session = c.session := rfl
@[simp] theorem Core.setCell_discarded (c : Core) (k : Nat) (r : RegCell) : (c.setCell k r).discarded = c.discarded := rfl
@[simp] theorem Core.setCell_born (c : Core) (k : Nat) (r : RegCell) : (c.setCell k r).born = c.born := rfl
@[simp] theorem Core.setCell_endPc (c : Core) (k : Nat) (r : RegCell) : (c.setCell k r).endPc = c.endPc := rfl
@[simp] theorem Core.setCell_waitRun (c : Core) (k : Nat) (r : RegCell) : (c.setCell k r).waitRun = c.waitRun := rfl
@[simp] theorem Core.setCell_firm (c : Core) (k : Nat) (r : RegCell) : (c.setCell k r).firm = c.firm := rfl
@[simp] theorem Core.setCell_pads (c : Core) (k : Nat) (r : RegCell) : (c.setCell k r).pads = c.pads := rfl

/-! After State.modFn -/

@[simp] theorem State.modFn_core (s : State) (f : Nat) (g : Fn → Fn) : (s.modFn f g).core = s.core := rfl
@[simp] theorem State.modFn_parked (s : State) (f : Nat) (g : Fn → Fn) : (s.modFn f g).parked = s.parked := rfl
@[simp] theorem State.modFn_mem (s : State) (f : Nat) (g : Fn → Fn) : (s.modFn f g).mem = s.mem := rfl
@[simp] theorem State.modFn_larder (s : State) (f : Nat) (g : Fn → Fn) : (s.modFn f g).larder = s.larder := rfl
@[simp] theorem State.modFn_reduce (s : State) (f : Nat) (g : Fn → Fn) : (s.modFn f g).reduce = s.reduce := rfl
@[simp] theorem State.modFn_pantry (s : State) (f : Nat) (g : Fn → Fn) : (s.modFn f g).pantry = s.pantry := rfl
@[simp] theorem State.modFn_dist (s : State) (f : Nat) (g : Fn → Fn) : (s.modFn f g).dist = s.dist := rfl
@[simp] theorem State.modFn_sessions (s : State) (f : Nat) (g : Fn → Fn) : (s.modFn f g).sessions = s.sessions := rfl
@[simp] theorem State.modFn_fabric (s : State) (f : Nat) (g : Fn → Fn) : (s.modFn f g).fabric = s.fabric := rfl
@[simp] theorem State.modFn_ladders (s : State) (f : Nat) (g : Fn → Fn) : (s.modFn f g).ladders = s.ladders := rfl
@[simp] theorem State.modFn_service (s : State) (f : Nat) (g : Fn → Fn) : (s.modFn f g).service = s.service := rfl
@[simp] theorem State.modFn_meas (s : State) (f : Nat) (g : Fn → Fn) : (s.modFn f g).meas = s.meas := rfl
@[simp] theorem State.modFn_library (s : State) (f : Nat) (g : Fn → Fn) : (s.modFn f g).library = s.library := rfl
@[simp] theorem State.modFn_l2 (s : State) (f : Nat) (g : Fn → Fn) : (s.modFn f g).l2 = s.l2 := rfl
@[simp] theorem State.modFn_bar2Out (s : State) (f : Nat) (g : Fn → Fn) : (s.modFn f g).bar2Out = s.bar2Out := rfl
@[simp] theorem State.modFn_inputs (s : State) (f : Nat) (g : Fn → Fn) : (s.modFn f g).inputs = s.inputs := rfl
@[simp] theorem State.modFn_fresh (s : State) (f : Nat) (g : Fn → Fn) : (s.modFn f g).fresh = s.fresh := rfl
@[simp] theorem State.modFn_powered (s : State) (f : Nat) (g : Fn → Fn) : (s.modFn f g).powered = s.powered := rfl

/-! After State.modJob -/

@[simp] theorem State.modJob_core (s : State) (f : Nat) (g : Job → Job) : (s.modJob f g).core = s.core := rfl
@[simp] theorem State.modJob_parked (s : State) (f : Nat) (g : Job → Job) : (s.modJob f g).parked = s.parked := rfl
@[simp] theorem State.modJob_mem (s : State) (f : Nat) (g : Job → Job) : (s.modJob f g).mem = s.mem := rfl
@[simp] theorem State.modJob_larder (s : State) (f : Nat) (g : Job → Job) : (s.modJob f g).larder = s.larder := rfl
@[simp] theorem State.modJob_reduce (s : State) (f : Nat) (g : Job → Job) : (s.modJob f g).reduce = s.reduce := rfl
@[simp] theorem State.modJob_pantry (s : State) (f : Nat) (g : Job → Job) : (s.modJob f g).pantry = s.pantry := rfl
@[simp] theorem State.modJob_dist (s : State) (f : Nat) (g : Job → Job) : (s.modJob f g).dist = s.dist := rfl
@[simp] theorem State.modJob_sessions (s : State) (f : Nat) (g : Job → Job) : (s.modJob f g).sessions = s.sessions := rfl
@[simp] theorem State.modJob_fabric (s : State) (f : Nat) (g : Job → Job) : (s.modJob f g).fabric = s.fabric := rfl
@[simp] theorem State.modJob_ladders (s : State) (f : Nat) (g : Job → Job) : (s.modJob f g).ladders = s.ladders := rfl
@[simp] theorem State.modJob_service (s : State) (f : Nat) (g : Job → Job) : (s.modJob f g).service = s.service := rfl
@[simp] theorem State.modJob_meas (s : State) (f : Nat) (g : Job → Job) : (s.modJob f g).meas = s.meas := rfl
@[simp] theorem State.modJob_library (s : State) (f : Nat) (g : Job → Job) : (s.modJob f g).library = s.library := rfl
@[simp] theorem State.modJob_l2 (s : State) (f : Nat) (g : Job → Job) : (s.modJob f g).l2 = s.l2 := rfl
@[simp] theorem State.modJob_bar2Out (s : State) (f : Nat) (g : Job → Job) : (s.modJob f g).bar2Out = s.bar2Out := rfl
@[simp] theorem State.modJob_inputs (s : State) (f : Nat) (g : Job → Job) : (s.modJob f g).inputs = s.inputs := rfl
@[simp] theorem State.modJob_fresh (s : State) (f : Nat) (g : Job → Job) : (s.modJob f g).fresh = s.fresh := rfl
@[simp] theorem State.modJob_powered (s : State) (f : Nat) (g : Job → Job) : (s.modJob f g).powered = s.powered := rfl

end Sys2Proof.Machine
end

