-- ==== Sys2Proof/Tests/Slice0.lean ====
section
/-!
SUPPORT. Tests on small states: ill-formed terms that the checks refuse, words of the spec's encodings decoded, results worked out by hand, and for every
statement with hypotheses a state and operands that meet them.
-/
open Sys2Proof Sys2Proof.Machine

section Tests
/- One theorem after the other: together they would ask for many threads. -/
set_option Elab.async false

/-! Helpers -/

/-- Function 0 runs a job on core 0, which stands at S level before one placed word. -/
def placed (w : Nat) : State := State.reset.withFetchWord 32 w
/-- The same, before a nop. -/
def base : State := placed 0
/-- A register holds a value. -/
def holding (s : State) (r : Reg) (v : Nat) : State :=
  { s with core := s.core.setCell (s.core.phys r.1 r.2) { val := BitVec.ofNat 2048 v, taint := 0, dm := false } }
/-- A control register holds a value. -/
def ctl (s : State) (n : Nat) (v : Word) : State := { s with core := s.core.setCtl n v }
/-- The core at U level. -/
def atU (s : State) : State := { s with core := { s.core with level := .u } }
/-- The state of an answer. -/
def okOf {ε α : Type} (d : α) (x : Except ε α) : α := match x with | .ok a => a | .error _ => d
/-- There is an answer. -/
def isOk {ε α : Type} (x : Except ε α) : Bool := match x with | .ok _ => true | .error _ => false
theorem isOk_eq {ε α : Type} {x : Except ε α} (d : α) (h : isOk x = true) : x = .ok (okOf d x) := by
  cases x with
  | ok a => rfl
  | error e => cases h
/-- The outcome is a next state that meets a test. -/
def nextIs (o : Host.Outcome State Fault Refusal) (p : State → Bool) : Bool := match o with | .next t => p t | _ => false
/-- The state of a next outcome. -/
def nextOf (o : Host.Outcome State Fault Refusal) : State := match o with | .next t => t | _ => base
theorem nextIs_eq {o : Host.Outcome State Fault Refusal} {p : State → Bool} (h : nextIs o p = true) : o = .next (nextOf o) := by
  cases o with
  | next t => rfl
  | fault r => cases h
  | refused r => cases h
/-- The outcome is a next state whose meaning was done and put `v` on its way to register key `k`. -/
def leavesVal (o : Host.Outcome State Fault Refusal) (k v : Nat) : Bool :=
  nextIs o (fun t => t.core.mark == .done && t.core.defer.any (fun e => match e with
    | .reg key cell _ => key == k && cell.val.toNat == v
    | _ => false))
/-- The outcome took a fault of a code. -/
def trapsWith (o : Host.Outcome State Fault Refusal) (code : Nat) : Bool :=
  nextIs o (fun t => match t.core.mark with | .trapped f => f.code == code | _ => false)
/-- The outcome holds the bundle. -/
def holdsBundle (o : Host.Outcome State Fault Refusal) : Bool := nextIs o (fun t => t.core.mark == .stalled)

/-! Well-formedness: every check refuses a term, and takes the neighbouring one (R250, R298, R246) -/

theorem test_wf_vector_forms_refused : [
  Instr.vadd ⟨.v0, 1, 1, 1, 0, 0, some ⟨1, 0, 0, 0, 0⟩⟩, .vadd ⟨.v0, 1, 1, 1, 0, 0, some ⟨0, 1, 0, 0, 0⟩⟩,
  .vadd ⟨.v0, 1, 1, 1, 0, 0, some ⟨0, 0, 1, 0, 0⟩⟩, .vadd ⟨.v0, 1, 1, 1, 0, 0, some ⟨0, 0, 0, 1, 0⟩⟩, .vadd ⟨.v0, 1, 1, 1, 0, 0, some ⟨0, 0, 0, 0, 1⟩⟩,
  .vabs ⟨.v0, 1, 1, 1, 0, 0, none⟩, .mand ⟨.v0, 1, 1, 1, 1, 0, none⟩, .vdot2 ⟨.v0, 1, 1, 1, 0, 1, none⟩, .vpld ⟨.v0, 1, 1, 0, 0, 0, none⟩,
  .ffma ⟨.v0, 1, 1, 1, 0, 0, none⟩, .fexp ⟨.v1, 1, 1, 0, 0, 0, none⟩, .xsfold ⟨.v0, 2, 2, 2, 0, 0, some ⟨0, 0, 0, 0, 1⟩⟩,
  .xpadd ⟨.v0, 4, 4, 4, 0, 0, some ⟨0, 0, 0, 0, 2⟩⟩, .xpadd ⟨.v0, 4, 4, 4, 1, 0, none⟩, .vdot2 ⟨.v0, 1, 1, 1, 0, 0, some ⟨1, 0, 0, 0, 0⟩⟩].all
  (fun i => !i.formOk) = true := by decide +kernel

theorem test_wf_other_forms_refused : [
  Instr.xmovSc ⟨.c1, 1, 1⟩, .xmovSd ⟨.c0, 1, 1⟩, .mmaBf16 ⟨0, 0, 0, 1⟩, .mmasI8 ⟨0, 0, 0, 1, 0, 0⟩, .vldp ⟨.v0, 1, 1, 1, 0, none⟩,
  .vldp ⟨.v0, 1, 1, 0, 0, some ⟨0, 1⟩⟩, .vld ⟨.v0, 1, 1, 1, 0, none⟩, .vgath ⟨.v0, 1, 1, 1, 0, some ⟨0, 1⟩⟩, .tclr ⟨6, 1⟩, .tquery ⟨0, 6, 1⟩, .cwait ⟨0x4000⟩,
  .cwrite ⟨1, 0x26⟩, .btree ⟨2, 1, 0, 0, 0, 0, 0, [0, 0]⟩, .btree ⟨1, 0, 0, 0, 0, 0, 0, [0]⟩, .btree ⟨0, 0, 0, 1, 0, 0, 0, [0]⟩, .btree ⟨0, 0, 0, 0, 0, 0, 2, [0]⟩,
  .btree ⟨0, 1, 0, 0, 0, 0, 0, [0]⟩].all (fun i => !i.formOk) = true := by decide +kernel

theorem test_wf_scalar_operands_refused : [
  Instr.sext ⟨1, 1, 3⟩, .bfx ⟨1, 1, 1, 63⟩, .shli ⟨1, 1, 64, none⟩, .shri ⟨1, 1, 0xFF, none⟩, .lnest ⟨0, 0, 0, none⟩, .lnest ⟨0, 7, 0, none⟩,
  .lnest ⟨63, 2, 0, none⟩, .acq ⟨0, 0, 0, 0, 0, none⟩, .acqF ⟨0, 0, 0, 0, 0, 0, 1⟩, .ldaW ⟨1, 1, 0, 1, 0⟩, .amoAdd ⟨1, 1, 1, 0, some ⟨0, 1, 0, 0, 0⟩⟩,
  .amoAdd ⟨1, 1, 1, 0, some ⟨0, 2, 0, 1, 0⟩⟩, .cas2 ⟨1, 1, 2, 0, none⟩, .cas2 ⟨2, 1, 1, 0, none⟩, .cas2 ⟨2, 1, 2, 0, some ⟨0, 2, 1, 0, 0⟩⟩,
  .uadd ⟨0, 1, 1, 1, 0⟩, .uminF ⟨0, 1, 1, 0, 1⟩, .tclr ⟨7, 0⟩, .tquery ⟨1, 1, 16⟩, .cread ⟨1, 0x15⟩, .cwrite ⟨1, 0x03⟩, .wpush ⟨2, 0⟩, .wpop ⟨4, 0, 1⟩,
  .wdoneY ⟨1⟩, .whold ⟨2⟩, .phase ⟨64⟩, .cancelL ⟨4096⟩, .cancelG ⟨256⟩, .cancelJ ⟨1⟩, .cwait ⟨0x1100⟩, .cwait ⟨0x3001⟩].all
  (fun i => !i.operandOk) = true := by decide +kernel

theorem test_wf_vector_operands_refused : [
  Instr.vqshr ⟨.v0, 1, 1, 1, 0, 2, none⟩, .vqshr ⟨.v0, 1, 1, 1, 0, 0, some ⟨0, 0, 0, 0, 32⟩⟩, .vpack ⟨.v0, 1, 1, 1, 0, 2, none⟩,
  .vcmpEq ⟨.v0, 8, 1, 1, 0, 0, none⟩, .fcmpEq ⟨.v0, 1, 1, 1, 0, 2, none⟩, .fadd ⟨.v0, 1, 1, 1, 0, 2, none⟩, .fexp ⟨.v0, 1, 1, 0, 0, 0, some ⟨0, 0, 0, 5, 0⟩⟩,
  .fcvt ⟨.v0, 1, 1, 0, 0, 0, some ⟨0, 0, 5, 0, 0⟩⟩, .xsadd ⟨.v0, 1, 2, 0, 0, 0, none⟩, .xsround ⟨.v0, 0, 1, 0, 0, 0, none⟩, .xpmul ⟨.v0, 2, 1, 0, 0, 0, none⟩,
  .xpadd ⟨.v0, 4, 4, 0, 0, 0, some ⟨0, 0, 0, 0, 3⟩⟩, .xpround ⟨.v0, 0, 2, 0, 0, 0, none⟩, .vmxq ⟨.v0, 1, 1, 0, 0, 0, none⟩, .vmxd ⟨.v0, 1, 1, 0, 0, 0, none⟩,
  .vshuf ⟨.v0, 1, 1, 1, 0, 0, some ⟨0, 0, 0, 0, 64⟩⟩, .vbcst ⟨.v0, 1, 1, 0, 0, 3, some ⟨0, 0, 0, 0, 32⟩⟩, .mand ⟨.v0, 8, 0, 0, 0, 0, none⟩,
  .mpop ⟨.v0, 1, 8, 0, 0, 0, none⟩].all (fun i => !i.operandOk) = true := by decide +kernel

theorem test_wf_engine_operands_refused : [
  Instr.mmaBf16 ⟨768, 0, 0, 0⟩, .mzero ⟨1023⟩, .madd ⟨0, 768⟩, .mrot ⟨0, 0, 3⟩, .mrot ⟨761, 0, 2⟩, .mdrainx ⟨768, 0, 0, 0⟩, .gset ⟨0, 0, 1⟩, .mcap ⟨11⟩,
  .xmovSv ⟨.c0, 32, 0, 0⟩, .xmovSv ⟨.c0, 0, 0, 32⟩, .xmovSc ⟨.c0, 16, 0⟩, .xmovZv ⟨.c0, 0, 0, 16⟩, .qcopy ⟨.c0, 14, 0, 0, none⟩, .qput ⟨.c0, 13, 0, 0, none⟩,
  .qputs ⟨.c0, 12, 0, 0, none⟩, .qputm ⟨.c0, 11, 0, 0, none⟩, .qfence ⟨.c0, 0⟩, .qack ⟨.c0, 0, 1⟩].all (fun i => !i.operandOk) = true := by decide +kernel

theorem test_wf_boundaries_taken : [
  Instr.sext ⟨1, 1, 2⟩, .bfx ⟨1, 1, 0, 63⟩, .bfi ⟨1, 1, 63, 0⟩, .shli ⟨1, 1, 63, none⟩, .lnest ⟨58, 6, 63, none⟩, .acq ⟨0, 0, 0, 0, 0, some 1⟩, .ldaW ⟨1, 1, 0, 2, 0⟩,
  .cas ⟨1, 1, 1, 3, some ⟨15, 3, 1, 1, 0xFFFF⟩⟩, .tclr ⟨6, 0⟩, .cread ⟨1, 0x107⟩, .cwrite ⟨1, 0x100⟩, .wpop ⟨60, 0, 14⟩, .phase ⟨63⟩, .cwait ⟨0x10FF⟩, .cwait ⟨0x3000⟩,
  .vqshr ⟨.v1, 1, 1, 1, 0, 3, some ⟨0, 0, 0, 0, 0x83F⟩⟩, .vcmpEq ⟨.v0, 7, 1, 1, 7, 3, none⟩, .xpadd ⟨.v0, 28, 24, 3, 1, 0, some ⟨0, 0, 0, 0, 1⟩⟩,
  .vbcst ⟨.v0, 1, 1, 0, 0, 2, some ⟨0, 0, 0, 0, 255⟩⟩, .mrot ⟨760, 15, 2⟩, .mcap ⟨10⟩, .qputm ⟨.c1, 10, 1, 1, some 0⟩, .qack ⟨.c1, 15, 2⟩,
  .btree ⟨1, 3, 15, 15, 15, 15, 15, [0xFFFFFF, 0, 1, 2]⟩].all (fun i => i.wf) = true := by decide +kernel
/-! Decoding: words written out from the encoding tables (R239, R251 to R259) -/

/-- SR: sub s5, s6, s7. -/
theorem test_decode_sr : decodeSyllables .s [0x8021461C] = .ok (.sub ⟨5, 6, 7⟩) := by rfl
/-- SR: lea s63, s1, s2, 3. -/
theorem test_decode_sr_shift : decodeSyllables .s [0x81BFC10B] = .ok (.lea ⟨63, 1, 2, 3⟩) := by rfl
/-- SX: sel s1, s2, s3, k9. -/
theorem test_decode_sx : decodeSyllables .s [0x01C0420C, 0xD0000009] = .ok (.sel ⟨1, 2, 3, 9⟩) := by rfl
/-- SX: bfx of 4 bits from bit 60. -/
theorem test_decode_sx_field : decodeSyllables .s [0x01D042F0, 0xD0000003] = .ok (.bfx ⟨1, 2, 60, 3⟩) := by rfl
/-- SI with its extension: the most negative high part. -/
theorem test_decode_si : decodeSyllables .s [0x021042FF, 0xD8000000] = .ok (.andi ⟨1, 2, 0xFF, some 0x8000000⟩) := by rfl
/-- SM: movi s63, -8192. -/
theorem test_decode_sm : decodeSyllables .s [0x827FE000] = .ok (.movi ⟨63, 0x2000, none⟩) := by rfl
/-- SK: cmp.ltu k15, s1, s2. -/
theorem test_decode_sk : decodeSyllables .s [0x82BF0108] = .ok (.cmpLtu ⟨15, 1, 2⟩) := by rfl
/-- SJ: cmpi.ge k1, s3, -4. -/
theorem test_decode_sj : decodeSyllables .s [0x83410FFC] = .ok (.cmpiGe ⟨1, 3, 0x3FC, none⟩) := by rfl
/-- SP: pxor k1, k2, k3. -/
theorem test_decode_sp : decodeSyllables .s [0x83812300] = .ok (.pxor ⟨1, 2, 3⟩) := by rfl
/-- SB: call with offset -1. -/
theorem test_decode_sb : decodeSyllables .s [0x843FFFFF] = .ok (.call ⟨0xFFFFF, none⟩) := by rfl
/-- SQ: acq.f with its group. -/
theorem test_decode_sq : decodeSyllables .s [0x049815A9, 0xD0000072] = .ok (.acqF ⟨0x81, 5, 0xA, 2, 1, 2, 7⟩) := by rfl
/-- SG: st.w with class 15 and offset -8 words. -/
theorem test_decode_sg : decodeSyllables .s [0x85A0C4F8] = .ok (.stW ⟨3, 4, 15, 8, none⟩) := by rfl
/-- SY: ldp.d. -/
theorem test_decode_sy : decodeSyllables .s [0x8660C480] = .ok (.ldpD ⟨3, 4, 0x80, none⟩) := by rfl
/-- SO: lda.d at system scope with a class mask. -/
theorem test_decode_so : decodeSyllables .s [0x05D0C423, 0xD000ABCD] = .ok (.ldaD ⟨3, 4, 2, 3, 0xABCD⟩) := by rfl
/-- SA: cas with its group. -/
theorem test_decode_sa : decodeSyllables .s [0x0790420F, 0xD80010E5] = .ok (.cas ⟨1, 2, 3, 3, some ⟨5, 2, 1, 1, 0x8001⟩⟩) := by rfl
/-- SU: umin, unsigned, 64-bit. -/
theorem test_decode_su : decodeSyllables .s [0x8819020F] = .ok (.umin ⟨9, 2, 3, 1, 1⟩) := by rfl
/-- SF: fence. -/
theorem test_decode_sf : decodeSyllables .s [0x088300FF, 0xD000FF00] = .ok (.fence ⟨3, 0x00FF, 0xFF00⟩) := by rfl
/-- ST: tquery s7, v31. -/
theorem test_decode_st : decodeSyllables .s [0x88B1D3E0] = .ok (.tquery ⟨7, 2, 31⟩) := by rfl
/-- S1: jmp s62. -/
theorem test_decode_s1 : decodeSyllables .s [0x842F8000] = .ok (.jmp ⟨62⟩) := by rfl
/-- S2: wpop s60, s5, k14. -/
theorem test_decode_s2 : decodeSyllables .s [0x8A2F05E0] = .ok (.wpop ⟨60, 5, 14⟩) := by rfl
/-- SW: cread s6, MAPSTAT. -/
theorem test_decode_sw : decodeSyllables .s [0x89518107] = .ok (.cread ⟨6, 0x107⟩) := by rfl
/-- SZ: capr. -/
theorem test_decode_sz : decodeSyllables .s [0x89718721] = .ok (.capr ⟨6, 7, 0x21⟩) := by rfl
/-- SH: cwait on the job. -/
theorem test_decode_sh : decodeSyllables .s [0x8B603000] = .ok (.cwait ⟨0x3000⟩) := by rfl
/-- VR: ffma in V1, guarded, BF16, rounding mode 3. -/
theorem test_decode_vr : decodeSyllables .v1 [0x123FFBBD, 0xD00000DC] = .ok (.ffma ⟨.v1, 31, 30, 29, 7, 1, some ⟨28, 3, 0, 0, 0⟩⟩) := by rfl
/-- VR: fdiv with an output format. -/
theorem test_decode_vr_formats : decodeSyllables .v0 [0x12E08860, 0xD0004000] = .ok (.fdiv ⟨.v0, 1, 2, 3, 0, 0, some ⟨0, 0, 0, 4, 0⟩⟩) := by rfl
/-- VM: vgath with DISP -4. -/
theorem test_decode_vm : decodeSyllables .v0 [0x16408870, 0xD0FFFFFC] = .ok (.vgath ⟨.v0, 1, 2, 3, 4, some ⟨0xFFFFFC, 0⟩⟩) := by rfl
/-- VM: vldp, X = 1. -/
theorem test_decode_vm_decode : decodeSyllables .v0 [0x96008801] = .ok (.vldpDec ⟨.v0, 1, 2, 0, 0, none⟩) := by rfl
/-- VN: vpsw in V1. -/
theorem test_decode_vn : decodeSyllables .v1 [0x95200000] = .ok (.vpsw ⟨.v1⟩) := by rfl
/-- MA: mma.i4, A unsigned. -/
theorem test_decode_ma : decodeSyllables .m [0xA05BFFFA] = .ok (.mmaI4 ⟨767, 15, 14, 2⟩) := by rfl
/-- MT: mtrn. -/
theorem test_decode_mt : decodeSyllables .m [0xA14006FF] = .ok (.mtrn ⟨1, 767⟩) := by rfl
/-- MG: mrot of size 256. -/
theorem test_decode_mg : decodeSyllables .m [0xA15BE0C2] = .ok (.mrot ⟨760, 3, 2⟩) := by rfl
/-- MD: gget d14, d15 from g3. -/
theorem test_decode_md : decodeSyllables .m [0xA193F000] = .ok (.gget ⟨3, 1, 14⟩) := by rfl
/-- MN: mwait. -/
theorem test_decode_mn : decodeSyllables .m [0xA1B00000] = .ok (.mwait) := by rfl
/-- CX: xmov.sv into lane 31. -/
theorem test_decode_cx : decodeSyllables .c0 [0xB007FF7C] = .ok (.xmovSv ⟨.c0, 31, 63, 31⟩) := by rfl
/-- CZ: xmov.zv. -/
theorem test_decode_cz : decodeSyllables .c1 [0xB0825FEF] = .ok (.xmovZv ⟨.c1, 4, 767, 15⟩) := by rfl
/-- CM: cmovi d15, -1. -/
theorem test_decode_cm : decodeSyllables .c1 [0xB11FFFFF] = .ok (.cmovi ⟨.c1, 15, 0xFFFF, none⟩) := by rfl
/-- CE: clea with shift 3. -/
theorem test_decode_ce : decodeSyllables .c0 [0xB12123C0] = .ok (.clea ⟨.c0, 1, 2, 3, 3⟩) := by rfl
/-- CQ: qput from d4, NJ and E set. -/
theorem test_decode_cq : decodeSyllables .c1 [0x3264C000, 0xD0000003] = .ok (.qput ⟨.c1, 4, 1, 1, some 3⟩) := by rfl
/-- CW: qstat of q3. -/
theorem test_decode_cw : decodeSyllables .c0 [0xB2D9C000] = .ok (.qstat ⟨.c0, 9, 3⟩) := by rfl
/-- CW: qfence over q0 and q3. -/
theorem test_decode_cw_mask : decodeSyllables .c0 [0xB2B02400] = .ok (.qfence ⟨.c0, 9⟩) := by rfl
/-- CT: bfmt writes bank 15. -/
theorem test_decode_ct : decodeSyllables .c0 [0xB1720F80] = .ok (.bfmtWrite ⟨.c0, 2, 15⟩) := by rfl
/-- A tree of the split shape with three tests, the second inverted (R246). -/
theorem test_decode_tree : decodeSyllables .s [0x66123020, 0x50000004, 0x50FFFFFF, 0xD0000009] =
  .ok (.btree ⟨1, 2, 1, 2, 3, 0, 2, [4, 0xFFFFFF, 9]⟩) := by rfl
/-- Refused: an unassigned opcode (R250, R255, R256). -/
theorem test_decode_refused_1 : decodeSyllables .s [0x81F00000] = .error .illegalInstr := by rfl
/-- Refused: sel without its group (R250, R255, R256). -/
theorem test_decode_refused_2 : decodeSyllables .s [0x81C00000] = .error .illegalInstr := by rfl
/-- Refused: sext from a reserved width (R250, R255, R256). -/
theorem test_decode_refused_3 : decodeSyllables .s [0x81900003] = .error .illegalOperand := by rfl
/-- Refused: fexp in V1 (R250, R255, R256). -/
theorem test_decode_refused_4 : decodeSyllables .v1 [0x93000000] = .error .illegalInstr := by rfl
/-- Refused: a tile above 767 (R250, R255, R256). -/
theorem test_decode_refused_5 : decodeSyllables .m [0xA10C0000] = .error .illegalOperand := by rfl
/-- Refused: xmov.sd in C0 (R250, R255, R256). -/
theorem test_decode_refused_6 : decodeSyllables .c0 [0xB0600000] = .error .illegalInstr := by rfl
/-- Refused: a spare bit (R250, R255, R256). -/
theorem test_decode_refused_7 : decodeSyllables .s [0x80100001] = .error .illegalInstr := by rfl
/-- An I above 1 of xsfold, with a b, and one above 2 of xpadd, guarded (R313); b beside I = 1 is a field that the form does not use. -/
theorem test_decode_refused_xs : decodeSyllables .v0 [0x14100840, 0xD0020000] = .error .illegalOperand := by rfl
theorem test_decode_refused_xp : decodeSyllables .v0 [0x14401004, 0xD0030000] = .error .illegalOperand := by rfl
theorem test_decode_refused_xs_b : decodeSyllables .v0 [0x14100840, 0xD0010000] = .error .illegalInstr := by rfl


/-! Results worked out in the spec -/

/-- The key of s-register `n`. -/
def sKey (n : Nat) : Nat := base.core.phys .s n
/-- The value that an operation on s4 and s5 puts on its way to s6. -/
def gives (i : Instr) (a b v : Nat) : Bool := leavesVal (exec i (holding (holding base (.s, 4) a) (.s, 5) b)) (sKey 6) v

/-- R272's table, row by row: div, rem, divu, remu. -/
theorem test_div_corners : [(2 ^ 64 - 7, 2, 2 ^ 64 - 3, 2 ^ 64 - 1, 0x7FFFFFFFFFFFFFFC, 1), (7, 0, 2 ^ 64 - 1, 7, 2 ^ 64 - 1, 7),
    (2 ^ 63, 2 ^ 64 - 1, 2 ^ 63, 0, 0, 2 ^ 63)].all (fun r => gives (.div ⟨6, 4, 5⟩) r.1 r.2.1 r.2.2.1 && gives (.rem ⟨6, 4, 5⟩) r.1 r.2.1 r.2.2.2.1 &&
      gives (.divu ⟨6, 4, 5⟩) r.1 r.2.1 r.2.2.2.2.1 && gives (.remu ⟨6, 4, 5⟩) r.1 r.2.1 r.2.2.2.2.2) = true := by decide +kernel
/-- Sums and products wrap modulo 2^64 (R264), by hand. -/
theorem test_add_mul_wrap : gives (.add ⟨6, 4, 5⟩) (2 ^ 64 - 1) 2 1 = true ∧ gives (.mul ⟨6, 4, 5⟩) (2 ^ 63 + 1) 2 2 = true ∧
    gives (.sub ⟨6, 4, 5⟩) 3 5 (2 ^ 64 - 2) = true := by decide +kernel
/-- R287's worked example: record 0x21 of a page without errata stands at 0xF0_0000_0368. -/
def paged : State := base.modFn 0 (fun f => { f with ext := some { devnum := none, clusters := 1, engines := [], banks := [], chans := [], library := true, errata := [] } })
theorem test_capr : leavesVal (exec (.capr ⟨6, 4, 0x21⟩) paged) (sKey 6) 0xF000000368 = true := by decide +kernel
/-- R11 to R14's worked example: slice 20 xor 12 xor 1 of die 0. -/
theorem test_slice : sliceOf 0x002600000A40 = 25 := by decide +kernel
/-- R28's worked example of a header. -/
def headed : Packet := { hchk := 0, tag := 7, pchk := 0, aux := 0, cnode := 0, group := 0x11, rsv1 := 0, phys := 0, addr := 0x4000001000, rsv2 := 0, len := 64, seq := 0x123, op := 1, ord := 1, cls := 0, lane := 2, src := 5, dst := 70, payload := [] }
theorem test_header : (let bs := headerBytes headed
    (ofBytes (bs.take 8), ofBytes ((bs.drop 8).take 8), ofBytes ((bs.drop 16).take 8), ofBytes ((bs.drop 28).take 2))) =
      (0x0400123062005046, 0x4000001000, 0x11, 7) := by decide +kernel
/-- R304's worked example: vqshr by 15 of three lanes. -/
theorem test_vqshr : nextIs (exec (.vqshr ⟨.v0, 5, 3, 4, 0, 0, some ⟨0, 0, 0, 0, 15⟩⟩)
      (holding (holding base (.v, 3) (0x00012345 + 0x7FFF0000 * 2 ^ 32 + 0xFFFF63C0 * 2 ^ 64)) (.v, 4) 0))
    (fun t => t.core.defer.any (fun e => match e with
      | .reg _ cell _ => bits cell.val.toNat 0 48 == 0xFFFF7FFF0002
      | _ => false)) = true := by decide +kernel
/-- R158's worked example: two additions of 2^-24 to 1.0 resolve to 0x3F80_0001. -/
theorem test_exact_add : ((({ base with mem := memPut base.mem 0x400 [0, 0, 0x80, 0x3F] }).exactAdd 0 0x400 [0x33800000]).bind
    (fun (s : State) => (s.exactAdd 0 0x400 [0x33800000]).map (fun (s : State) => ofBytes (s.larderRead 0x400 4).1))) = some 0x3F800001 := by decide +kernel
/-- R339's worked example: bitmap 0x3B. -/
theorem test_mcap : nextIs (exec (.mcap ⟨4⟩) { base with ladders := { base.ladders with engines := [(0, 0x3B)] } })
    (fun t => (t.core.defer.map (fun e => match e with
      | .reg _ cell lat => (cell.val.toNat, lat)
      | _ => (9, 0))) == [(1, 2), (1, 2), (0, 2), (1, 2), (1, 2), (1, 2)]) = true := by decide +kernel
/-- R356's worked example: four E4M3 bytes of 22 bits. -/
theorem test_nibble_codes : decodeNibbles (codeTable 0x0000200000021000) [0x44, 0x1C, 0x20] true 4 0 [] = .done [0x38, 0x40, 0xB8, 0x38] := by decide +kernel
/-- The low lanes that a vector operation on v2 puts on its way. -/
def lanes (i : Instr) (a b n : Nat) : Nat :=
  match exec i (holding (holding base (.v, 2) a) (.v, 3) b) with
  | .next t => (t.core.defer.findSome? (fun e => match e with
      | .reg _ cell _ => some (cell.val.toNat % 2 ^ n)
      | _ => none)).getD (2 ^ n)
  | _ => 2 ^ n
/-- R309's table: 300.5, 500.0, NaN and -0.001 to E4M3, under RNE and RTZ. -/
theorem test_fcvt : [0, 1].map (fun rm => lanes (.fcvt ⟨.v0, 6, 2, 0, 0, 0, some ⟨0, rm, 1, 3, 0⟩⟩) (0x43964000 + 0x43FA0000 * 2 ^ 32 + 0x7FC00000 * 2 ^ 64 + 0xBA83126F * 2 ^ 96) 0 32) =
    [0x817F7E79, 0x807F7E79] := by decide +kernel
/-- The low lanes that a special function of v2 leaves pending. -/
def pendingLanes (i : Instr) (a : Nat) : Nat :=
  match exec i (holding base (.v, 2) a) with
  | .next t => ((t.core.specials.map (fun p => p.cell.val.toNat % 2 ^ 16)).head?).getD (2 ^ 16)
  | _ => 2 ^ 16
/-- R220's worked values: fexp of +0.0 and of 6.2 into E4M3; fsqrt of 2.0 into BF16 under RTZ. -/
theorem test_special : pendingLanes (.fexp ⟨.v0, 6, 2, 0, 0, 0, some ⟨0, 0, 0, 3, 0⟩⟩) (0x40C66666 * 2 ^ 32) = 0x7E38 ∧
    pendingLanes (.fsqrt ⟨.v0, 6, 2, 0, 0, 0, some ⟨0, 1, 0, 2, 0⟩⟩) 0x40000000 = 0x3FB5 := by decide +kernel
/-- R311's worked example: 2^24 + 1 + 1 - 2^24 is 2.0 however it is ordered. -/
theorem test_fred : [0x4B800000 + 0x3F800000 * 2 ^ 32 + 0x3F800000 * 2 ^ 64 + 0xCB800000 * 2 ^ 96, 0x3F800000 + 0xCB800000 * 2 ^ 32 + 0x4B800000 * 2 ^ 64 + 0x3F800000 * 2 ^ 96].map
    (fun x => lanes (.fred ⟨.v0, 6, 2, 0, 0, 0, none⟩) x 0 64) = [0x40000000, 0x40000000] := by decide +kernel
/-- R201's worked example: MXINT8 0x60 with scale 0x81 is 6.0; R204's: 5.0 as E2M1 under scale 2^0 is 4 and 7.9 saturates to 6. -/
theorem test_mx : fpRound fp32 0 (elemValue 6 0x60 0x81) = 0x40C00000 ∧ fpRound e2m1 0 (fpDecode fp32 0x40A00000) = 6 ∧ fpRound e2m1 0 (fpDecode fp32 0x40FCCCCD) = 7 := by
  decide +kernel
/-- R218's worked example: 3000 at 2^-8 with a residual of 1.0 is 12.75 in BF16. -/
theorem test_drain_value : fpRound bf16 0 (DrainParam.value { drainParam 0 (List.replicate 64 0) with scale := 0x3B800000, int := true, res := true } 3000 0 0
    (fpDecode bf16 0x3F80)) = 0x414C := by decide +kernel
/-- A taken branch of -3 syllables from A + 12 goes to A (R246's listing). -/
theorem test_brk : nextIs (exec (.brk ⟨0, 1, 0x7FFD, none⟩) (holding { base with core := { base.core with pc := 0x10000C, npc := 0x100010 } } (.k, 1) 1))
    (fun t => t.core.npc == 0x100000) = true := by decide +kernel

/-- R397's table: the words of the loop body that no other test holds, and of the bundle at the page boundary. -/
theorem test_decode_printed_body : decodeSyllables .v0 [0x96260400] = .ok (.vld ⟨.v0, 12, 1, 0, 0, none⟩) ∧
    decodeSyllables .v0 [0x16268400, 0xD0000001] = .ok (.vld ⟨.v0, 13, 1, 0, 0, some ⟨1, 0⟩⟩) ∧
    decodeSyllables .v0 [0x90008443] = .ok (.vadd ⟨.v0, 1, 1, 2, 0, 3, none⟩) ∧
    decodeSyllables .v0 [0x9122B100] = .ok (.vdot2 ⟨.v0, 5, 12, 8, 0, 0, none⟩) ∧
    decodeSyllables .v0 [0x150731A0, 0xD0010000] = .ok (.vshuf ⟨.v0, 14, 12, 13, 0, 0, some ⟨0, 0, 0, 0, 1⟩⟩) ∧
    decodeSyllables .v0 [0x1122B920, 0xD0010005] = .ok (.vdot2 ⟨.v0, 5, 14, 9, 0, 0, some ⟨5, 0, 0, 0, 1⟩⟩) ∧
    decodeSyllables .v0 [0x11131400, 0xD00F0000] = .ok (.vqshr ⟨.v0, 6, 5, 0, 0, 0, some ⟨0, 0, 0, 0, 15⟩⟩) ∧
    decodeSyllables .v0 [0x96130C00] = .ok (.vstp ⟨.v0, 6, 3, 0, 0, none⟩) ∧
    decodeSyllables .v0 [0x15103000, 0x50010000] = .ok (.vpld ⟨.v0, 0, 12, 0, 0, 0, some ⟨0, 0, 0, 0, 1⟩⟩) ∧
    decodeSyllables .c0 [0xB0404200] = .ok (.xmovSc ⟨.c0, 1, 2⟩) ∧
    decodeSyllables .m [0xA0000004] = .ok (.mmaBf16 ⟨0, 0, 1, 0⟩) := ⟨rfl, rfl, rfl, rfl, rfl, rfl, rfl, rfl, rfl, rfl, rfl⟩

/-- R407's tables: ret, then the operation of the entry: here those of ZV for z 1, h 2, VZ for z 767, h 15, XV and SV for lane 31 and GG for g 15. -/
theorem test_library_tables : decodeSyllables .s [0x04500000] = .ok .ret ∧
    [(0xF000100120, some 0xB0800022), (0xF00016FFF0, some 0xB0905FEF), (0xF0001801F0, some 0xB014407C), (0xF0001803F0, some 0xB000507C),
      (0xF0001804F0, some 0xA19F0000), (0xF000180500, none), (0xF000130000, none), (0xF0000FFFFF, none)].all
      (fun p => libraryTable (p.1 - Config.window) == p.2) = true ∧
    decodeSyllables .c0 [0xB0800022] = .ok (.xmovZv ⟨.c0, 0, 1, 2⟩) ∧ decodeSyllables .c0 [0xB0905FEF] = .ok (.xmovVz ⟨.c0, 0, 767, 15⟩) ∧
    decodeSyllables .c0 [0xB014407C] = .ok (.xmovVs ⟨.c0, 17, 0, 31⟩) ∧ decodeSyllables .c0 [0xB000507C] = .ok (.xmovSv ⟨.c0, 1, 16, 31⟩) ∧
    decodeSyllables .m [0xA19F0000] = .ok (.gget ⟨15, 0, 0⟩) ∧
    ofBytes ((List.range 16).map (fun i => State.reset.memByte (Config.windowPA 0 + 0x140010 + i))) =
      0x48000000 + 0x04500000 * 2 ^ 32 + 0xB0900001 * 2 ^ 64 + 0xC0000000 * 2 ^ 96 :=
  ⟨rfl, by decide +kernel, rfl, rfl, rfl, rfl, rfl, by decide +kernel⟩

/-- R408's listing of emu_bf16: words of it written out by R251 to R266, its first two at its entry, and its branches back to hloop and eloop and to refuse. -/
theorem test_library_listing : decodeSyllables .s [0x84806704] = .ok (.acq ⟨0x06, 0x7, 0, 0x1, 0, none⟩) ∧
    decodeSyllables .s [0x0272C400, 0xD3C00060] = .ok (.movi ⟨11, 0x400, some 0x3C00060⟩) ∧ (0x3C00060 * 2 ^ 14 + 0x400 = 0xF000180400) ∧
    decodeSyllables .s [0x84430000] = .ok (.callr ⟨12⟩) ∧ decodeSyllables .v0 [0x94362140] = .ok (.xpmul ⟨.v0, 12, 8, 10, 0, 0, none⟩) ∧
    decodeSyllables .v0 [0x144630A0, 0xD0010000] = .ok (.xpadd ⟨.v0, 12, 12, 5, 0, 0, some ⟨0, 0, 0, 0, 1⟩⟩) ∧
    decodeSyllables .s [0x833E5010] = .ok (.cmpiLtu ⟨14, 20, 16, none⟩) ∧ decodeSyllables .s [0x84177FA7] = .ok (.brk ⟨0, 14, 0x7FA7, none⟩) ∧
    nth 0 emuNext 14 = 0x84177FA7 ∧ emuRows.length + emuElement.length + 14 = 0x8000 - 0x7FA7 ∧
    nth 0 emuNext 2 = 0x8416FFC3 ∧ emuElement.length + 2 = 0x8000 - 0x7FC3 ∧
    nth 0 emuSetup 22 = 0x8416008C ∧ emuSetup.length + emuRows.length + emuElement.length + emuNext.length = 22 + 0x8C ∧
    ofBytes ((List.range 8).map (fun i => State.reset.memByte (Config.windowPA 0 + 0x20000 + i))) = 0x48000000 + 0x84806704 * 2 ^ 32 :=
  ⟨rfl, rfl, by decide, rfl, rfl, rfl, rfl, rfl, rfl, by decide +kernel, rfl, by decide +kernel, rfl, by decide +kernel, by decide +kernel⟩


/-! Witnesses: for each statement with hypotheses, a state and operands that meet them; where a hypothesis is an answer `.ok x`, the test
shows that there is one, and isOk_eq names it -/

/-- EncodeThenDecode: operations of every slot with their fields at boundaries. -/
theorem wit_EncodeThenDecode : [Instr.addi ⟨63, 0, 0x80, some 0x8000000⟩, .movi ⟨0, 0x3FFF, none⟩, .vadd ⟨.v1, 31, 0, 31, 7, 3, none⟩, .mmaBf16 ⟨767, 15, 0, 0⟩,
  .qput ⟨.c1, 12, 1, 1, some 0xFFFF⟩, .btree ⟨1, 3, 15, 15, 15, 15, 15, [0xFFFFFF, 0, 1, 2]⟩].all (fun i => !i.wordless && i.wf) = true := by decide +kernel

/-- DecodeThenEncode: one syllable, and two with the stop bit on the last. -/
theorem wit_DecodeThenEncode : decodeSyllables .s [0x8B800000] = .ok .tend ∧ decodeSyllables .s [0x05610100, 0xD0000020] = .ok (.ldD ⟨4, 1, 0, 0, some 0x20⟩) ∧
    ([0x05610100, 0xD0000020] : List Syllable).dropLast.all (fun w => !w.getLsbD 31) = true := ⟨by rfl, by rfl, by decide⟩

/-- addi s1, s1, 1 as a bundle of its own, at the pc of the only running core. -/
def stepState : State := placed 0x02004101

/-- StepRunsDecodedOperation: the fetched bundle is that operation, and exec answers a next state. -/
theorem wit_StepRunsDecodedOperation :
    (stepState.inputs = [] ∧ stepState.powered = true ∧ stepState.acts = [.turn stepState.core.id] ∧
      (let r := stepState.land
       r.core.owed = [] ∧ r.core.run = .running ∧ r.core.waitRun = none ∧ r.core.inLibrary = false ∧ r.core.dueFault = none ∧ r.core.trapDue = false ∧
         r.core.divertDue = false ∧ (r.core.savePend || r.core.forced) = false ∧ r.core.eventFirst = false ∧ r.core.carveOver = false)) ∧
    isOk stepState.land.fetchBundle = true ∧ (okOf ([], base) stepState.land.fetchBundle).1 = [0x82004101] ∧
    Bundle.empty.read [0x82004101] = { hdr := none, ops := [⟨.s, 0x82004101, none⟩], tree := none, leaves := [], bad := none, len := 1 } ∧
    decodeOp .s 0x82004101 none = .ok (.addi ⟨1, 1, 1, none⟩) ∧
    (let u := (okOf ([], base) stepState.land.fetchBundle).2
     let v : State := { u with core := { u.core with
       npc := u.core.pc + 4, taken := none, defer := [], leaf := 0, cur := { slot := 0, syl := 0x82004101, ext := 0 } } }
     nextIs (exec (v.resolveOp (.addi ⟨1, 1, 1, none⟩)) v) (fun t => t.core.mark == .done)) = true :=
  ⟨by decide +kernel, by decide +kernel, by decide +kernel, by decide +kernel, by rfl, by decide +kernel⟩

/-- BundlesThatDoNothing: a word that decodes with a fault. -/
theorem wit_BundlesThatDoNothing_fault : isOk (placed 0x01F00000).fetchBundle = true ∧
    ((okOf ([], base) (placed 0x01F00000).fetchBundle).2.decodeFaults (Bundle.empty.read (okOf ([], base) (placed 0x01F00000).fetchBundle).1) |> firstRanked).isSome = true := by
  decide +kernel

/-- A header of its own: L = 1, one empty cycle. -/
def headerState : State := placed 0x48000000
theorem wit_BundlesThatDoNothing_header :
    isOk headerState.fetchBundle = true ∧ (okOf ([], base) headerState.fetchBundle).1 = [0xC8000000] ∧ kindOf 0xC8000000 = 4 ∧ isStop 0xC8000000 = true ∧
    (let u := (okOf ([], base) headerState.fetchBundle).2
     firstRanked (u.decodeFaults (Bundle.empty.read [0xC8000000])) = none ∧ u.core.nestAct = false ∧ u.core.flights = [] ∧ u.core.tflights = [] ∧
       u.core.pflights = [] ∧ u.core.drains = []) ∧ (field (0xC8000000 : Syllable) 22 2).toNat = 0 := by decide +kernel

/-- A core with results on their way to its s-registers. -/
def flying (xs : List Flight) : State := { base with core := { base.core with flights := xs } }
def flightTo (k v r : Nat) : Flight := { key := regKey 0 k, cell := { val := BitVec.ofNat 2048 v, taint := 0, dm := false }, ready := r }

/-- BoundedResultLands: one result, due in the cycle and one later; two of one register; a pending effect. -/
theorem wit_BoundedResultLands :
    (base.core.cycle + 2 < (flightTo 1 7 3).ready ∧ (flightTo 1 7 3).ready ≤ base.core.cycle + 3) ∧ (flying [flightTo 1 7 3]).core.flights = [flightTo 1 7 3] ∧
    (flying [flightTo 1 7 3, flightTo 1 8 4]).core.flights = [flightTo 1 7 3, flightTo 1 8 4] ∧ (flightTo 1 7 3).key = (flightTo 1 8 4).key ∧
    (flightTo 1 8 4).ready ≤ base.core.cycle + 4 ∧ (flightTo 1 7 0).ready ≤ base.core.cycle := by decide +kernel

/-- A bundle has one effect pending. -/
def leaving (e : Effect) : State := { base with core := { base.core with defer := [e] } }
/-- BoundedResultLands, the other effects: no bank and some to drain; a row pair at the ends of a tile, a bound and a pattern on their way; new maps last. -/
theorem wit_BoundedResultLands_effects :
    (let c := (leaving (.carve 0 5)).core
     c.defer = [.carve 0 5] ∧ max 0 c.tagged - min 0 c.tagged = 0 ∧ max 16 c.tagged - min 16 c.tagged = 16 ∧ 15 < 16 ∧ bits 0x54 4 4 = 5) ∧
    (leaving (.clearTaint 3)).core.defer = [.clearTaint 3] ∧ (∀ m fr sp, Effect.maps m fr sp ∉ [Effect.cr 0x22 1, .give 256]) ∧
    (let x : TileFlight := { z := 767, row := some 15, v := 1, ready := 3 }
     let y : TileFlight := { z := 0, row := none, v := 0, ready := 3 }
     let s : State := { base with core := { base.core with tflights := [x] } }
     s.core.tflights = [x] ∧ s.core.cycle + 2 < x.ready ∧ x.ready ≤ s.core.cycle + 3 ∧ (31 : Nat) / 2 = 15 ∧ y.row = none) ∧
    (let x : PatFlight := { key := 255, v := 7, ready := 3 }
     let s : State := { base with core := { base.core with pflights := [x] } }
     s.core.pflights = [x] ∧ s.core.cycle + 2 < x.ready ∧ x.ready ≤ s.core.cycle + 3) ∧
    base.applyEffects.core.flights = [] ∧ base.applyEffects.core.tflights = [] ∧ base.applyEffects.core.pflights = [] := by
  refine ⟨by decide +kernel, rfl, ?_, by decide +kernel, by decide +kernel, by decide +kernel, by decide +kernel, by decide +kernel⟩
  intro m fr sp h
  simp at h

/-- A core in the body of a nest of one level, at its first run of two. -/
def nested : State := ctl (ctl (ctl base 0x38 0x8000000000000101) 0x39 0x100000) 0x40 2
/-- FL = 10 in a header alone. -/
def lastHeader : State := { nested with mem := memPut nested.mem 0 [0, 0, 0x80, 0xC0] }
def lastFetched : List Syllable × State := okOf ([], base) lastHeader.fetchBundle

/-- FirstAndLastBundles: a bundle of the last run in the first of two, so it is annulled; and the same bundle with no nest. -/
theorem wit_FirstAndLastBundles :
    isOk lastHeader.fetchBundle = true ∧ firstRanked (lastFetched.2.decodeFaults (Bundle.empty.read lastFetched.1)) = none ∧
    (Bundle.empty.read lastFetched.1).first = 2 ∧ lastFetched.2.core.flTaken 2 0 = false ∧
    (nested.core.flights = [] ∧ nested.core.tflights = [] ∧ nested.core.pflights = [] ∧ nested.core.drains = [] ∧
      (nested.core.pc + 4).toNat ≠ nested.nestBody.2) ∧
    (let s : State := { base with mem := memPut base.mem 0 [0, 0, 0x80, 0xC0] }
     isOk s.fetchBundle && (Bundle.empty.read (okOf ([], base) s.fetchBundle).1).first == 2 && !(okOf ([], base) s.fetchBundle).2.inNest &&
       (Bundle.empty.read (okOf ([], base) s.fetchBundle).1).hdr.isSome) = true := by decide +kernel

/-- ScalarFormsComplete: every form on ready registers. -/
theorem wit_ScalarFormsComplete : [Instr.add ⟨1, 2, 3⟩, .sub ⟨1, 2, 3⟩, .mul ⟨1, 2, 3⟩, .mulh ⟨1, 2, 3⟩, .mulhu ⟨1, 2, 3⟩, .div ⟨1, 2, 3⟩, .divu ⟨1, 2, 3⟩,
  .rem ⟨1, 2, 3⟩, .remu ⟨1, 2, 3⟩, .and ⟨1, 2, 3⟩, .or ⟨1, 2, 3⟩, .xor ⟨1, 2, 3⟩, .andn ⟨1, 2, 3⟩, .shl ⟨1, 2, 3⟩, .shr ⟨1, 2, 3⟩, .sra ⟨1, 2, 3⟩, .rotl ⟨1, 2, 3⟩,
  .min ⟨1, 2, 3⟩, .max ⟨1, 2, 3⟩, .minu ⟨1, 2, 3⟩, .maxu ⟨63, 63, 63⟩, .addi ⟨1, 2, 0xFF, none⟩, .andi ⟨1, 2, 3, none⟩, .ori ⟨1, 2, 3, none⟩, .xori ⟨1, 2, 3, none⟩,
  .shli ⟨1, 2, 63, none⟩, .shri ⟨1, 2, 0, none⟩, .srai ⟨1, 2, 63, none⟩, .clz ⟨1, 2⟩, .ctz ⟨1, 2⟩, .popc ⟨1, 2⟩, .sext ⟨1, 2, 2⟩, .zext ⟨1, 2, 0⟩, .lea ⟨1, 2, 3, 3⟩,
  .sel ⟨1, 2, 3, 15⟩, .bfx ⟨1, 2, 0, 63⟩, .bfi ⟨1, 2, 63, 0⟩, .movi ⟨1, 0x3FFF, some 0x7FFFFFF⟩].all
  (fun i => match scalarForm i with | some f => i.wf && base.powered && f.ready base.core | none => false) = true ∧
  [Instr.cmpEq ⟨1, 2, 3⟩, .cmpNe ⟨1, 2, 3⟩, .cmpLt ⟨1, 2, 3⟩, .cmpLtu ⟨1, 2, 3⟩, .cmpGe ⟨1, 2, 3⟩, .cmpGeu ⟨1, 2, 3⟩, .cmpiEq ⟨1, 2, 3, none⟩,
  .cmpiNe ⟨1, 2, 3, none⟩, .cmpiLt ⟨1, 2, 3, none⟩, .cmpiLtu ⟨1, 2, 3, none⟩, .cmpiGe ⟨1, 2, 3, none⟩, .cmpiGeu ⟨1, 2, 3, none⟩, .pand ⟨1, 2, 3⟩, .por ⟨1, 2, 3⟩,
  .pxor ⟨1, 2, 3⟩, .pnot ⟨15, 15⟩].all (fun i => match predicateForm i with | some f => base.powered && f.ready base.core | none => false) = true := by
  decide +kernel

/-- s1 and s2 hold two values. -/
def two (a b : Nat) : State := holding (holding base (.s, 1) a) (.s, 2) b

/-- DivisionResults: the corners of R272's table and one division between. -/
theorem wit_DivisionResults : [two 9 0, two (2 ^ 63) (2 ^ 64 - 1), two (2 ^ 64 - 7) 2].all (fun s =>
    s.powered && s.core.ready (.s, 1) && s.core.ready (.s, 2) && s.core.free (.s, 3)) = true ∧ (two 9 0).core.regVal (.s, 2) = 0 ∧
    signed ((two (2 ^ 63) (2 ^ 64 - 1)).core.regVal (.s, 1)) = -2 ^ 63 ∧ signed ((two (2 ^ 63) (2 ^ 64 - 1)).core.regVal (.s, 2)) = -1 ∧
    (two (2 ^ 64 - 7) 2).core.regVal (.s, 2) ≠ 0 := by decide +kernel

/-- A load is to write s1. -/
def loading : State := { base with core := { base.core with order := { base.core.order with
  acc := [{ Access.blank with id := 5, cyc := base.core.cycle + 1, kind := .load 8 false, len := 8, tag := some 0, dsts := [regKey 0 1] }] } } }

/-- OperandsOnTheirWay: a pending source, a pending destination, and a bounded result on its way to a source. -/
theorem wit_OperandsOnTheirWay :
    [Instr.add ⟨4, 1, 2⟩, .add ⟨4, 2, 1⟩, .sel ⟨4, 2, 1, 0⟩, .cmpEq ⟨1, 2, 1⟩, .xmovSc ⟨.c0, 1, 1⟩].all (fun i => match regForm i with
      | some f => i.wf && loading.powered && f.srcs.any (fun r => loading.core.pending (loading.core.phys r.1 r.2))
      | none => false) = true ∧
    [Instr.add ⟨1, 2, 3⟩, .movi ⟨1, 5, none⟩, .mulhu ⟨1, 2, 3⟩].all (fun i => match regForm i with
      | some f => i.wf && f.srcs.all loading.core.free && loading.core.pending (loading.core.phys f.dst.1 f.dst.2)
      | none => false) = true ∧
    [Instr.add ⟨1, 2, 3⟩, .vadd ⟨.v0, 1, 4, 3, 0, 0, none⟩, .fmul ⟨.v0, 1, 3, 4, 0, 0, none⟩, .mpop ⟨.v0, 1, 2, 0, 0, 0, none⟩, .xmovSc ⟨.c0, 1, 2⟩].all (fun i =>
      let s := flying [flightTo 2 7 3, { flightTo 2 7 3 with key := base.core.phys .v 4 }, { flightTo 2 7 3 with key := base.core.phys .vm 2 }]
      match regForm i with
      | some f => i.wf && f.srcs.all s.core.free && s.core.free f.dst && f.srcs.any (fun r => s.core.inFlight (s.core.phys r.1 r.2))
      | none => false) = true := by decide +kernel

/-- BranchesAndTrees: registers and predicates at hand. -/
theorem wit_BranchesAndTrees : base.powered = true ∧ base.core.ready (.s, 63) = true ∧ base.core.ready (.k, 15) = true ∧
    base.core.allReady [(.k, 0), (.k, 1), (.k, 2), (.k, 15)] = true := by decide +kernel

/-- A task with an attic of 4 KiB at 0x101000 and return addresses on chip. -/
def withRets (n used : Nat) : State :=
  ctl (ctl { base with core := { base.core with rets := (List.range n).map (BitVec.ofNat 64), task := { base.core.task with atticSize := 4096 } } }
    0x30 0x101000) 0x32 (BitVec.ofNat 64 used)

/-- CallsAndReturns: 15 and 16 return addresses, an attic that is full, and returns from the chip and from the attic. -/
theorem wit_CallsAndReturns : (withRets 15 0).core.rets.length < 16 ∧ (withRets 15 0).core.ready (.s, 1) = true ∧ (withRets 16 0).core.rets.length = 16 ∧
    ¬ (withRets 16 0).core.task.atticSize < ((withRets 16 0).core.ctl 0x31).toNat + ((withRets 16 0).core.ctl 0x32).toNat + 80 ∧
    isOk (writeSelf (withRets 16 0).begun 0 0 (0x101000 + 4096 - 80) ([2, 0, 0, 0] ++ toBytes 4 80 ++ toBytes 8 0 ++
      ((withRets 16 0).core.rets.drop 8).reverse.flatMap (fun w => toBytes 8 w.toNat))) = true ∧
    (withRets 16 4080).core.task.atticSize < ((withRets 16 4080).core.ctl 0x31).toNat + ((withRets 16 4080).core.ctl 0x32).toNat + 80 ∧
    (withRets 1 0).core.rets = [0] ∧ (withRets 0 0).core.rets = [] ∧ (withRets 0 0).core.ctl 0x32 = 0 ∧ (withRets 0 80).core.ctl 0x32 ≠ 0 ∧
    isOk (readVirtual (withRets 0 80).begun 0 0 (0x101000 + 4096 - 80) 80) = true := by decide +kernel

/-- LoopNests: six levels with a table at 0, one without, one with a count of 0; an active body; increments for c0 to c7. -/
theorem wit_LoopNests : ((Instr.lnest ⟨58, 6, 63, some 0⟩).wf = true ∧ base.core.nestAct = false ∧ base.core.defer = [] ∧
      (∀ l, l < 6 → base.core.ready (.s, 58 + l) = true ∧ (base.core.word (.s, 58 + l)).toNat < 2 ^ 32) ∧
      base.core.pantryOpen = true ∧ base.pantryCode base.core.id 0 256 = none ∧ base.defined base.core.id 0 192 = true) ∧
    (Instr.lnest ⟨1, 1, 0, none⟩).wf = true ∧ ((two 1 1).core.word (.s, 1) == 0) = false ∧ (base.core.word (.s, 1) == 0) = true ∧
    nested.inNest = true ∧ base.inNest = false ∧ nested.core.nestAct = true ∧
    (nested.core.flights = [] ∧ nth 0 nested.core.maps.c 0 < 8) ∧
    (nested.core.ctl 0x48).toNat < (nested.core.ctl 0x40 - 1).toNat ∧ ¬ ((ctl nested 0x48 1).core.ctl 0x48).toNat < ((ctl nested 0x48 1).core.ctl 0x40 - 1).toNat := by
  decide +kernel
theorem wit_LoopNests_pending (k : Nat) : nested.core.pending k = false := by
  simp only [Core.pending]; rfl

/-- A core with no s block free. -/
def crowded : State := { base with core := { base.core with frames := [(List.range 24).map (fun b => { file := 0, block := b % 8, phys := 8 + b })] } }

/-- RegisterBlocks: room for blocks of every file, no room, an illegal acquire, frames on chip and spilled. -/
theorem wit_RegisterBlocks :
    (base.core.maps.shaped = true ∧ base.core.roomFor (maskBlocks 1 1 1 1 1 1) = true ∧ !(maskBlocks 1 1 1 1 1 1).isEmpty = true) ∧
    (crowded.core.roomFor (maskBlocks 255 0 0 0 0 0) = false ∧ crowded.core.inHandler = false) ∧ maskBlocks 0 0 0 0 0 0 = [] ∧
    crowded.core.frames ≠ [] ∧ (base.core.frames = [] ∧ base.core.spilled = []) ∧
    { base.core with spilled := [[]] }.spilled = [] :: [] ∧
    (let b : FrameBlock := { file := 0, block := 1, phys := 1 }
     (takeBlocks [] base.core.maps [(.s, 1)]).2 = [(.s, 8)] ∧ ((ctl (ctl base 0x30 0x104000) 0x31 96).begun.refillAll [(b, 8)]).isSome = true ∧
     ((ctl (ctl base 0x30 0x900000) 0x31 96).begun.refillAll [(b, 8)]).isNone = true) := by decide +kernel
theorem wit_RegisterBlocks_pending (k : Nat) : base.core.pending k = false := by
  simp only [Core.pending]; rfl

/-- EventsAndTraps: EVLATCH set and clear, a task of the same job, no task, an argument above 255, a mapped line. -/
theorem wit_EventsAndTraps : (ctl base 0x26 1).core.ctl 0x26 ≠ 0 ∧ base.core.ctl 0x26 = 0 ∧
    (let s := holding base (.s, 1) 0
     s.core.ready (.s, 1) && decide ((s.core.word (.s, 1)).toNat ≤ 255) && s.core.order.acc.isEmpty && (s.begun.coreAt 0).run == .running) = true ∧
    (holding base (.s, 1) 255).begun.coreAt 255 = Core.reset 255 ∧ loading.core.order.acc ≠ [] ∧ loading.core.ready (.s, 2) = true ∧
    255 < ((holding base (.s, 1) 256).core.word (.s, 1)).toNat ∧
    isOk ((holding base (.s, 1) 0x1001FF).begun.xlate 0 0 0x100180 .read) = true ∧ ((holding base (.s, 1) 0x1001FF).core.word (.s, 1)).getLsbD 0 = true ∧
    base.core.defer = [] := by decide +kernel

/-- A core in a handler. -/
def handling (h : Handler) (sup : Bool) : State := { base with core := { base.core with handler := h, sup := sup } }

/-- ReturnsFromHandlers: each context, balanced and with one frame more; a stub's restore. -/
theorem wit_ReturnsFromHandlers : (handling .main true).core.sup = true ∧ (handling .user false).core.handler = .user ∧ (handling .emul false).core.handler = .emul ∧
    (handling .user false).core.frames.length + (handling .user false).core.spilled.length ≤ (handling .user false).core.entryFrames ∧
    ¬ ({ (handling .user false).core with frames := [[]] }.frames.length ≤ (handling .user false).core.entryFrames) ∧
    (ctl base 0x36 3).core.ctl 0x36 = 3 ∧ base.core.ctl 0x36 ≠ 3 ∧ base.core.handler = .main ∧ (handling .emul false).core.serving = none ∧
    (handling .emul false).core.frames.length + (handling .emul false).core.spilled.length ≤ (handling .emul false).core.entryFrames := by decide +kernel

/-- ControlRegisters: readable, writable, S-level and nest registers, at both levels. -/
theorem wit_ControlRegisters : (crReadable 0x003 ∧ crReadable 0x100 ∧ crReadable 0x107 ∧ crReadable 0x101 ∧ crReadable 0x105 ∧ crReadable 0x106 ∧
    crReadable 0x012 ∧ crReadable 0x015 = false ∧ crReadable 0x3FFF = false) ∧ base.core.level = .s ∧ (atU base).core.level = .u ∧
    [0x022, 0x100, 0x101, 0x048].all (fun n => (Instr.cwrite ⟨1, n⟩).wf) = true ∧ (crWritable 0x022 ∧ crWritable 0x100 ∧ crWritable 0x101 ∧ crWritable 0x048 ∧ crWritable 0x003 = false) ∧ isNestReg 0x048 = true ∧ base.begun.inNest = false ∧
    nested.begun.inNest = true ∧ ((holding base (.s, 1) 0x1000).core.word (.s, 1)).toNat % 4096 = 0 ∧
    ((holding base (.s, 1) 0x1001).core.word (.s, 1)).toNat % 4096 ≠ 0 ∧ (base.jobAt base.core.task.fn).isSome = true ∧ base.core.free (.s, 1) = true := by
  decide +kernel

/-- A mapping request stands at 0x100100: VA 0x200000, PA 0x10000, 64 KiB, writable. -/
def mapping : State :=
  { holding base (.s, 1) 0x100100 with mem := memPut base.mem 0x100 (toBytes 8 0x200000 ++ toBytes 8 0x10000 ++ toBytes 8 0x10000 ++ toBytes 8 4) }
def mapGot : Nat × State := okOf (0, base) (mapping.begun.translate 0x100100 [.read])
def mapRead : List Byte × State := okOf ([], base) (readVirtual mapGot.2 0 0 0x100100 32)

/-- The code of a request that is refused. -/
def errOf {α : Type} (x : Except Nat α) : Nat := match x with | .error c => c | .ok _ => 0
/-- MappingRequests: a request that is taken, an unmapping one, one with a length of 0, one of memory that is not the function's, a record of the capability page, and a TLB to clear. -/
theorem wit_MappingRequests : (mapping.core.level = .s ∧ mapping.core.ready (.s, 1) = true ∧ (mapping.core.word (.s, 1)).toNat = 0x100100) ∧
    isOk (mapping.begun.translate 0x100100 [.read]) = true ∧ mapGot.2.core.order.acc = [] ∧ isOk (readVirtual mapGot.2 0 0 0x100100 32) = true ∧
    mapRead.2.jobAt mapRead.2.core.task.fn = some placeJob ∧ isOk (mapRead.2.mapRequest 0 placeJob mapRead.1) = true ∧
    (mappingOf mapRead.1).2.testBit 5 = false ∧
    isOk (base.mapRequest 0 placeJob (toBytes 8 0x100000 ++ toBytes 8 0 ++ toBytes 8 0x10000 ++ toBytes 8 0x20)) = true ∧
    (base.mapRequest 0 placeJob (toBytes 8 0x200000 ++ toBytes 8 0x10000 ++ toBytes 8 0 ++ toBytes 8 4) |> errOf) = 1 ∧
    ((base.modFn 0 (fun f => { f with share := [] })).mapRequest 0 placeJob mapRead.1 |> errOf) = 2 ∧
    pageBytes placeMap.page ∣ placeMap.len ∧ base.core.free (.s, 0) = true := by decide +kernel

/-! Witnesses: accesses, performance, exceptions -/

/-- s1 holds a mapped, aligned address; every other register is 0. -/
def addressed : State := holding base (.s, 1) 0x100100
/-- AccessesAreIssued: every form, loads and stores and atomics, at a mapped address. -/
theorem wit_AccessesAreIssued : [Instr.ldB ⟨2, 1, 0, 0, none⟩, .ldBU ⟨2, 1, 0, 0, none⟩, .ldH ⟨2, 1, 0, 0, none⟩, .ldHU ⟨2, 1, 0, 0, none⟩, .ldW ⟨2, 1, 0, 0, none⟩,
  .ldWU ⟨2, 1, 0, 0, none⟩, .ldD ⟨2, 1, 15, 0, none⟩, .ldaW ⟨2, 1, 0, 3, 0xFFFF⟩, .ldaD ⟨2, 1, 0, 2, 1⟩, .stB ⟨2, 1, 0, 0, none⟩, .stH ⟨2, 1, 0, 0, none⟩,
  .stW ⟨2, 1, 0, 0, none⟩, .stD ⟨2, 1, 0, 0, none⟩, .stlW ⟨2, 1, 0, 3, 0⟩, .stlD ⟨2, 1, 0, 2, 0⟩, .amoAdd ⟨2, 1, 3, 0, none⟩, .amoAnd ⟨2, 1, 3, 0, none⟩,
  .amoOr ⟨2, 1, 3, 0, none⟩, .amoXor ⟨2, 1, 3, 0, none⟩, .amoMin ⟨2, 1, 3, 0, none⟩, .amoMax ⟨2, 1, 3, 0, none⟩, .amoMinu ⟨2, 1, 3, 0, none⟩,
  .amoMaxu ⟨2, 1, 3, 0, none⟩, .amoSwap ⟨2, 1, 3, 3, some ⟨1, 3, 1, 0, 2⟩⟩, .cas ⟨2, 1, 3, 0, none⟩, .cas2 ⟨2, 1, 4, 0, none⟩, .redx ⟨1, 3, none⟩,
  .uadd ⟨0, 1, 3, 0, 0⟩, .umin ⟨0, 1, 3, 0, 1⟩, .umax ⟨0, 1, 3, 0, 0⟩, .uand ⟨0, 1, 3, 0, 0⟩, .uor ⟨0, 1, 3, 0, 0⟩, .uxor ⟨0, 1, 3, 0, 0⟩, .uminF ⟨0, 1, 3, 0, 0⟩,
  .umaxF ⟨0, 1, 3, 0, 0⟩].map (fun i => match accForm i with
    | some f => i.wf && addressed.powered && addressed.core.allReady f.srcs && f.dsts.all addressed.core.free && decide ((f.va addressed.core).toNat < 2 ^ 56) &&
        decide ((f.va addressed.core).toNat % f.size = 0) &&
        (match addressed.begun.translate (f.va addressed.core).toNat f.needs with
         | .ok (pa, u) => (u.core.served (f.acc []).cls (f.srcs.map u.core.reg) (f.va addressed.core).toNat pa f.size []).isNone
         | .error _ => false)
    | none => false) = List.replicate 35 true := by decide +kernel

/-- AccessesAreOrdered: a release with no update-only line, and none. -/
theorem wit_AccessesAreOrdered : ((0 : BitVec 16) = 0 ∨ base.core.upd = []) ∧ ((0xFFFF : BitVec 16) = 0 ∨ base.core.upd = []) ∧
    (let x : Access := { Access.blank with pa := 0x100, len := 2, enable := [true, false] }
     x.meets 0xFF 2 [] = true ∧ x.meets 0xFF 2 [true, false] = false ∧ x.meets 0x101 1 [] = false ∧ x.meets 0x100 1 [] = true ∧ 0 < x.len) := by decide +kernel

/-- An older store of the own store buffer covers the addressed word. -/
def buffered : State := { addressed with core := { addressed.core with order := { addressed.core.order with
  acc := [{ Access.blank with id := 1, kind := .store, pa := 0x100, len := 8, data := toBytes 8 0x1122334455667788 }] } } }
/-- StoreBufferForwards. -/
theorem wit_StoreBufferForwards : (match accForm (.ldW ⟨2, 1, 0, 0, none⟩) with
    | some f => decide (f.srcs = [(.s, 1)] ∧ f.dsts = [(.s, 2)] ∧ (f.acc []).kind = .load 4 true ∧ (f.acc []).acquire = false) &&
        buffered.core.allReady f.srcs && f.dsts.all buffered.core.free && decide ((f.va buffered.core).toNat < 2 ^ 56) &&
        decide ((f.va buffered.core).toNat % f.size = 0) &&
        (match buffered.begun.translate (f.va buffered.core).toNat [.read] with
         | .ok (pa, u) => (match u.core.served (f.acc []).cls [u.core.reg (.s, 1)] (f.va buffered.core).toNat pa 4 [] with | some (bs, fwd) => bs == [0x88, 0x77, 0x66, 0x55] && fwd.length == 1 | none => false)
         | .error _ => false)
    | none => false) = true ∧ (buffered.core.order.acc.map (fun x => x.id)).Nodup ∧
    (buffered.core.order.forward 0x100 4 []).isSome = true := by decide +kernel

/-- The same job with its mapping not writable. -/
def readOnly : State := addressed.modJob 0 (fun j => { j with maps := [{ placeMap with w := false, x := false }] })
/-- TranslationAndFaults: a mapped address, one not mapped, one above the space, permissions had and missing, a region that does not stand. -/
theorem wit_TranslationAndFaults : (addressed.core.tlb = [] ∧ addressed.l2 = [] ∧ addressed.jobAt 0 = some placeJob) ∧ 2 ^ 56 ≤ 2 ^ 56 ∧
    ((placeJob.maps ++ windowMaps 0 (addressed.libraryOf 0)).all (fun m => !m.covers 0x110000)) = true ∧
    ((placeJob.maps ++ windowMaps 0 (addressed.libraryOf 0)).find? (fun m => m.covers 0x100000) = some placeMap ∧ placeMap.formOk = true ∧ placeMap ∈ placeJob.maps ∧
      addressed.regionOk (placeMap.pageAt 0x100000).pa = true ∧ (placeMap.pageAt 0x100000).pa < 2 ^ 48) ∧
    (placeMap.w = true ∧ placeMap.x = true) ∧
    (let m := { placeMap with w := false, x := false, pa := 0xC000000000 }
     (m.formOk ∧ m.w = false ∧ m.x = false ∧ (m.pageAt 0x100000).pa < 2 ^ 48 ∧ addressed.regionOk (m.pageAt 0x100000).pa = false)) ∧
    ((accForm (.ldD ⟨2, 1, 0, 0, none⟩)).isSome = true ∧ (Instr.ldD ⟨2, 1, 0, 0, none⟩).wf = true) ∧
    (match accForm (.ldD ⟨2, 1, 0, 0, none⟩) with
     | some f => decide (2 ^ 56 ≤ (f.va (holding base (.s, 1) (2 ^ 56)).core).toNat) && decide ((f.va (holding base (.s, 1) 0x100101).core).toNat % f.size ≠ 0) &&
         !isOk ((holding base (.s, 1) 0x110000).begun.translate (f.va (holding base (.s, 1) 0x110000).core).toNat f.needs)
     | none => false) = true ∧
    (match readOnly.begun.translate 0x100100 [.write] with | .error c => c | .ok _ => 0) = 0x12 := by decide +kernel

/-- A core with one access of its own that nothing holds back. -/
def waiting (a : Access) : State := { base with core := { base.core with order := { base.core.order with acc := [a], nextId := 9 } } }
def aStore : Access := { Access.blank with id := 3, kind := .store, pa := 0x10000, len := 8, data := toBytes 8 0x0102030405060708 }
def aMasked : Access := { aStore with enable := [true, false, true, false, true, false, true, true] }
def aLoad : Access := { Access.blank with id := 3, kind := .load 8 false, pa := 0x10000, len := 8, dsts := [regKey 0 7], tag := some 15 }
/-- AccessesArePerformed: a store whole and with enables, and a load. -/
theorem wit_AccessesArePerformed : ((waiting aStore).mayPerform 3 aStore ∧ aStore.kind = .store ∧ aStore.dsts = [] ∧ aStore.tag = none ∧ 0 < aStore.len ∧
      aStore.acquire = false ∧ aStore.data.length = aStore.len ∧ aStore.enable = [] ∧ (waiting aStore).core.upd = [] ∧ (linesOf aStore.pa aStore.len = [0x200] ∧ (waiting aStore).reduce = [] ∧ (waiting aStore).cores.all (fun c => c.upd.isEmpty) = true)) ∧
    (∀ i, i < 8 → (waiting aStore).core.ownsAttic (aStore.va.toNat + i) = false) ∧ (waiting aLoad).core.meetsAttic aLoad.va.toNat 8 = false ∧
    ((waiting aMasked).mayPerform 3 aMasked ∧ aMasked.enable.length = aMasked.len) ∧
    ((waiting aLoad).mayPerform 3 aLoad ∧ aLoad.kind = .load 8 false ∧ aLoad.dsts = [regKey 0 7] ∧ aLoad.tag = some 15 ∧ aLoad.l1 = false ∧ aLoad.clean.contains (regKey 0 7) = false ∧ (waiting aLoad).core.upd = [] ∧
      (∀ x ∈ (waiting aLoad).core.order.acc, x.id ≠ 3 → x.tag ≠ some 15) ∧ (∀ q ∈ (waiting aLoad).core.queues, ∀ e ∈ q.entries, e.tag ≠ some 15) ∧
      (waiting aLoad).reduce = [] ∧ (waiting aLoad).cores.all (fun c => c.upd.isEmpty) = true) := by
  simp only [State.mayPerform]; decide +kernel

def anAmo (k : AccKind) (n : Nat) : Access := { Access.blank with id := 3, kind := k, pa := 0x10000, len := n, dsts := [regKey 0 7], tag := some 0, operand := 5 }
/-- AtomicsArePerformed: every operation in both widths, cas where it matches, and an exact addition. -/
theorem wit_AtomicsArePerformed : (∀ op, op ≤ 8 → ∀ n, n = 4 ∨ n = 8 → (waiting (anAmo (.amo op) n)).core.order.acc.find? (fun x => x.id == 3) = some (anAmo (.amo op) n)) ∧
    ((waiting (anAmo .cas 8)).mayPerform 3 (anAmo .cas 8) ∧ (anAmo .cas 8).pa % 8 = 0 ∧ (waiting (anAmo .cas 8)).core.meetsAttic (anAmo .cas 8).va.toNat 8 = false ∧ (anAmo .cas 8).acquire = false ∧ (anAmo .cas 8).failAcquire = false ∧
      (waiting (anAmo .cas 8)).core.upd = [] ∧ (waiting (anAmo .cas 8)).reduce = [] ∧ (waiting (anAmo .cas 8)).cores.all (fun c => c.upd.isEmpty) = true ∧
      ofBytes ((waiting (anAmo .cas 8)).bytesFrom 0x10000 8) = (anAmo .cas 8).expect.toNat % 2 ^ 64) ∧
    ((base.exactAdd 0 0x10000 [0x33800000]).isSome = true ∧ base.reduce = [] ∧ base.cores.all (fun c => c.upd.isEmpty) = true) := by
  refine ⟨?_, ?_⟩
  · intro op h n hn; simp [waiting, anAmo]
  · simp only [State.mayPerform]; decide +kernel

/-- OrderingOperations: a fence at device scope over an older store, tags outstanding and not, ldisc of one line and of a length that is no multiple. -/
theorem wit_OrderingOperations : ((waiting aStore).core.upd = [] ∧ (0xFFFF : BitVec 16).getLsbD aStore.cls = true) ∧ (base.core.order.acc = [] ∧ base.core.order.holds = []) ∧ base.core.free (.s, 1) = true ∧
    (waiting aLoad).core.outstanding &&& 0x8000 ≠ 0 ∧ (loading.core.outstanding = 1 ∧ (0x8000 : BitVec 16).getLsbD 15 = true ∧ loading.core.outstanding &&& 0x8000 = 0) ∧ base.core.outstanding &&& 0xFFFF = 0 ∧ base.core.outstanding = 0 ∧
    ((two 0x100100 128).core.ready (.s, 1) = true ∧ 0x100100 % 128 = 0 ∧
      isOk ((two 0x100100 128).begun.translateAll .write ((List.range (128 / 128)).map (fun i => 0x100100 + 128 * i))) = true) ∧
    ((two 0x100100 0x100000).core.word (.s, 2)).toNat ≤ 2 ^ 20 ∧ ¬ ((two 0x100100 64).core.word (.s, 2)).toNat % 128 = 0 := by decide +kernel

/-- A core whose bank 1 is at rung 2 and bank 2 at rung 3. -/
def worn : State := { base with ladders := { base.ladders with banks := [(1, 2), (2, 3)] } }
/-- PantryAccesses: loads and stores at the ends of a bank; past the pantry, misaligned, retired and in the missing half. -/
theorem wit_PantryAccesses : [Instr.ldpB ⟨2, 1, 0, none⟩, .ldpBU ⟨2, 1, 0, none⟩, .ldpH ⟨2, 1, 0, none⟩, .ldpHU ⟨2, 1, 0, none⟩, .ldpW ⟨2, 1, 0, none⟩,
    .ldpWU ⟨2, 1, 0, none⟩, .ldpD ⟨2, 1, 0, none⟩].all (fun i => (pantryLoad i).isSome) = true ∧
    [Instr.stpB ⟨2, 1, 0, none⟩, .stpH ⟨2, 1, 0, none⟩, .stpW ⟨2, 1, 0, none⟩, .stpD ⟨2, 1, 0, none⟩].all (fun i => (pantryStore i).isSome) = true ∧
    (base.pantryCode 0 0 8 = none ∧ base.defined 0 0 8 = true ∧ base.pantryCode 0 0xBFFF8 8 = none ∧ base.defined 0 0xBFFF8 8 = true) ∧
    base.pantryCode 0 0xC0000 8 = some 0x15 ∧ base.pantryCode 0 4 8 = some 0x13 ∧ worn.pantryCode 0 0x18000 8 = some 0x16 ∧
    worn.pantryCode 0 0x12000 8 = some 0x15 ∧ worn.pantryCode 0 0x11FF8 8 = none ∧ base.core.ready (.s, 1) = true ∧ base.core.ready (.s, 2) = true ∧ base.core.pantryOpen = true ∧
    { base.core with drains := [{ owner := 0, lo := 0, hi := 64, ready := 9, fenced := true }] }.pantryOpen = false := by
  decide +kernel

/-- An operation that makes tile 5 may be reading the first 128 bytes of bank 0 until cycle 9. -/
def reading : State := { base with core := { base.core with reads := [{ spans := [(0, 0, 128)], until_ := some 9, target := .tile 5 }] } }
/-- PantryAccesses: a write that meets no read, one that another core's meets at its last byte, the own sequencer's, and one beside it. -/
theorem wit_PantryAccesses_reads : base.undisturbed (some 0) [(0, 0, 8)] ∧ reading.undisturbed (some 0) [(0, 120, 128)] ∧ reading.undisturbed none [(0, 128, 136)] ∧
    (let r : OpenRead := { spans := [(0, 0, 128)], until_ := some 9, target := .tile 5 }
     reading.core.reads = [r] ∧ reading.parked = [] ∧ r.meets reading.core none (0, 127, 128) = true ∧ 128 = 127 + [(1 : Byte)].length) := by
  simp only [State.undisturbed]; decide +kernel

def someFault : FaultInfo := base.core.faultOf 0x02
/-- FaultRecordLayout. -/
theorem wit_FaultRecordLayout : someFault.code < 256 ∧ someFault.slot < 256 ∧ someFault.kind < 256 ∧ someFault.queue < 256 ∧ 2 ^ 64 - 1 < 2 ^ 64 := by decide +kernel

/-- A job with a supervisor handler at a header with L = 1, and room for its records. -/
def supervised : State :=
  { base.modJob 0 (fun j => { j with svec := 0x100200, srec := 0x101000 }) with mem := memPut base.mem 0x200 [0, 0, 0, 0xC8] }
def supervisedAt : State := okOf base (writeSelf supervised.stopped 0 0 0x101000 (recordBytes someFault false supervised.stopped.core.faults))
/-- SupervisorTakesFaults: a handler that is entered, none, a handler that is active, records that cannot be written, no header. -/
theorem wit_SupervisorTakesFaults : (supervised.jobAt 0).isSome = true ∧ supervised.stopped.userEntry someFault = none ∧ supervised.stopped.core.sup = false ∧
    isOk (writeSelf supervised.stopped 0 0 0x101000 (recordBytes someFault false supervised.stopped.core.faults)) = true ∧
    supervisedAt.headerAt 0x100200 = some true ∧ (base.jobAt 0).map (fun j => j.svec) = some 0 ∧ base.stopped.userEntry someFault = none ∧
    (handling .main true).stopped.core.sup = true ∧ (handling .main true).stopped.userEntry someFault = none ∧
    isOk (writeSelf supervised.stopped 0 0 0x110000 (recordBytes someFault false supervised.stopped.core.faults)) = false ∧
    supervisedAt.headerAt 0x100208 ≠ some true := by decide +kernel

/-- Main code at U level with a trap table at 0x102000 whose entry for code 2 leads to a header at 0x100200. -/
def trapped : State :=
  atU (ctl { base with mem := memPut (memPut base.mem 0x200 [0, 0, 0, 0xC8]) 0x2010 (toBytes 8 0x100200) } 0x20 0x102000)
/-- UserTakesFaults. -/
theorem wit_UserTakesFaults : trapped.stopped.userEntry someFault = some 0x100200 ∧
    isOk (writeSelf trapped.stopped 0 0 0x102400 (recordBytes someFault false (trapped.core.faults + 1))) = true := by decide +kernel

/-- StepKeepsStores: the stores are canonical and the step answers a next state. -/
theorem wit_StepKeepsStores : (Memory.wf base.mem = true ∧ Memory.wf base.pantry = true ∧ SMap.wf none base.larder = true) ∧
    nextIs (step stepState) (fun t => t.core.cycle == 1) = true := by decide +kernel

/-! Witnesses: the Granary, work, preemption -/

def aRec (bin : Nat) : Rec := { bin := bin, res := false, lock := false, user := 1, entry := 0, arg0 := 1, arg1 := 2, arg2 := 3, slice := 0, spilled := false }
def aSession (st : Nat) (recs : List Rec) (popped : List Popped) : Session :=
  { uid := 4, num := 7, fn := 0, group := 0, gctr := 3, delta := 8, lowm := 64, spillOff := 0, spillB := 0, opener := some 1, st := st, dead := false, recs := recs,
    popped := popped, floor := 0, fc := 2, fu := 2, p := 0, r := 0, s := 0, d := 0, wave := 0, replies := [], prev := [], committed := 0, asked := false,
    lastPeer := 0, peers := [], endedOn := [], late := [] }
/-- A task attached to a session. -/
def attached (x : Session) : State := { base with sessions := [x], core := { base.core with session := some 4 } }
/-- A record held by the task. -/
def heldRec : Popped := { task := 1, rec_ := aRec 2, lock := false }
/-- A session of its own that fills a slice, and a state in which such sessions fill some. -/
def filler (sl : Nat) : Session := { aSession 0 (List.replicate Config.sliceRecords { aRec 0 with slice := sl }) [] with uid := 9 + sl }
def crowd (x : Session) (sls : List Nat) : State := { attached x with sessions := x :: sls.map filler }
theorem filler_count (sl i : Nat) :
    ((filler sl).recs.filter (fun r => r.slice == i && !r.spilled)).length = if sl = i then Config.sliceRecords else 0 := by
  simp only [filler, aSession, aRec, List.filter_replicate, Bool.not_false, Bool.and_true, beq_iff_eq]
  split <;> simp
theorem onChip_crowd (x : Session) (i : Nat) (sls : List Nat) (h : i ∈ sls) : Config.sliceRecords ≤ (crowd x sls).onChip i := by
  have mono : ∀ (l : List Session) (n : Nat), n ≤ l.foldl (fun n x => n + (x.recs.filter (fun r => r.slice == i && !r.spilled)).length +
      (x.popped.filter (fun p => p.rec_.slice == i)).length) n := by
    intro l
    induction l with
    | nil => exact fun n => Nat.le_refl n
    | cons y r ih => exact fun n => Nat.le_trans (Nat.le_trans (Nat.le_add_right _ _) (Nat.le_add_right _ _)) (ih _)
  have all : ∀ (l : List Nat) (n : Nat), i ∈ l → Config.sliceRecords ≤ (l.map filler).foldl (fun n x =>
      n + (x.recs.filter (fun r => r.slice == i && !r.spilled)).length + (x.popped.filter (fun p => p.rec_.slice == i)).length) n := by
    intro l
    induction l with
    | nil => intro n h; cases h
    | cons y r ih =>
      intro n h
      simp only [List.map_cons, List.foldl_cons]
      by_cases e : y = i
      · refine Nat.le_trans ?_ (mono _ _)
        rw [filler_count, if_pos e]
        omega
      · exact ih _ (by simpa [show ¬ i = y from fun q => e q.symm] using h)
  exact all sls _ h

/-- RecordsPushedAndPopped: outside a session, in a running and an ended one, with room; a bad head; pops with a record in the window, with none, with one held. -/
theorem wit_RecordsPushedAndPopped : (base.core.allReady (quadRegs 4) = true ∧ base.core.free (.s, 8) = true ∧ base.joined = none) ∧
    bit ((holding base (.s, 4) (2 ^ 48)).core.word (.s, 4)).toNat 48 = true ∧
    (attached (aSession 0 [] [])).joined = some (aSession 0 [] []) ∧ (aSession 1 [] []).st ≠ 0 ∧
    ((attached (aSession 0 [] [])).core.order.acc = [] ∧ (attached (aSession 0 [] [])).onChip (sliceDie 0) < Config.sliceRecords) ∧
    base.core.popFree ⟨4, 8, 1⟩ = true ∧ ((4 : BitVec 6).toNat % 4 = 0) ∧
    ((aSession 0 [] [heldRec]).heldBy 1).isSome = true ∧ (aSession 0 [] []).heldBy 1 = none ∧ (aSession 0 [] []).candidates (sliceDie 0) = [] ∧
    (aSession 0 [aRec 10] []).candidates (sliceDie 0) = [aRec 10] ∧ (aSession 0 [aRec 11] []).candidates (sliceDie 0) = [] ∧
    (aSession 0 [aRec 10] []).awaitsRefill [aRec 10] = false ∧
    (let x := aSession 0 [aRec 10, { aRec 10 with spilled := true }] []
     x.candidates (sliceDie 0) ≠ [] ∧ x.awaitsRefill (x.candidates (sliceDie 0)) = true) ∧
    (attached (aSession 0 [] [])).core.named (taintOf ((quadRegs 4).map base.core.reg) ||| base.core.order.ptaint) = [] ∧
    (let e : Entry := { Entry.blank with tag := some 3, id := 9 }
     let c : Core := { base.core with queues := [{ Queue.reset with entries := [e] }, Queue.reset, Queue.reset, Queue.reset], order := { base.core.order with ptaint := 8 } }
     c.order.acc = [] ∧ c.named (taintOf ((quadRegs 4).map c.reg) ||| c.order.ptaint) ≠ []) := by decide +kernel

/-- RecordsPushedAndPopped, a full slice: a bin to spill with a chunk's room and with a byte less, none with the next slice free, and none with no room at
all; of equal bins the record with RES, and another slice where the own has none. -/
theorem wit_RecordsPushedAndPopped_full :
    (∀ x, Config.sliceRecords ≤ (crowd x [0]).onChip (sliceDie 0)) ∧ (∀ x d, d < 4 → Config.sliceRecords ≤ (crowd x [0, 1, 2, 3]).onChip d) ∧
    (let x : Session := { aSession 0 [aRec 100] [] with spillB := 4096 }
     (crowd x [0]).joined = some x ∧ (crowd x [0]).core.order.acc = [] ∧ x.spillBin 0 = some 100 ∧ x.chunks * 4096 + 4096 ≤ x.spillB ∧
       4095 < x.chunks * 4096 + 4096) ∧
    ((aSession 0 [aRec 10] []).spillBin 0 = none ∧ (crowd (aSession 0 [] []) [0, 1, 2, 3]).joined = some (aSession 0 [] [])) ∧
    (let r : Rec := { aRec 5 with res := true }
     let q : Rec := { aRec 3 with slice := 1 }
     let x := aSession 0 [aRec 5, r, q, aRec 1023] []
     (∀ y ∈ x.recs, y.bin < 1024) ∧ x.candidates 0 = [r] ∧ x.candidates 2 = [q]) :=
  ⟨fun x => onChip_crowd x 0 [0] (by simp), fun x d h => onChip_crowd x d [0, 1, 2, 3] (by simp; omega), by decide +kernel, by decide +kernel, by decide +kernel⟩
theorem wit_RecordsPushedAndPopped_next : (crowd (aSession 0 [] []) [0]).onChip 1 < Config.sliceRecords := by
  simp only [State.onChip, crowd, List.map_cons, List.map_nil, List.foldl_cons, List.foldl_nil]
  rw [filler_count]
  decide +kernel

/-- A descriptor of session 7 at 0x100100, bound to graph counter 3. -/
def descriptor : List Byte := toBytes 4 0x47524E59 ++ toBytes 2 1 ++ toBytes 2 7 ++ toBytes 2 0 ++ toBytes 2 3 ++ toBytes 2 8 ++ toBytes 2 0 ++ List.replicate 48 0
def joining : State := { holding base (.s, 1) 0x100100 with mem := memPut base.mem 0x100 descriptor }
def joinAt : Nat × State := okOf (0, base) (joining.begun.translate 0x100100 [.read])
def joinRead : List Byte × State := okOf ([], base) (readVirtual joinAt.2 0 0 0x100100 64)
/-- SessionsAndHeldRecords: a held record, none, one that a cancel has discarded; joining an open session and opening one. -/
theorem wit_SessionsAndHeldRecords : ((attached (aSession 0 [] [heldRec])).joined = some (aSession 0 [] [heldRec]) ∧
      (aSession 0 [] [heldRec]).heldBy (attached (aSession 0 [] [heldRec])).core.task.num = some heldRec) ∧
    (attached (aSession 0 [] [heldRec])).core.allReady (quadRegs 60) = true ∧ base.joined = none ∧ base.core.allReady (quadRegs 60) = true ∧ base.core.discarded = false ∧ base.core.session = none ∧
    ((aSession 0 [] []).st < 4 ∧ (aSession 0 [] []).fc < 1024 ∧ (aSession 0 [] []).fu < 1024 ∧ (aSession 0 [] []).delta < 1024) ∧
    isOk (joining.begun.translate 0x100100 [.read]) = true ∧ isOk (readVirtual joinAt.2 0 0 0x100100 64) = true ∧
    (let f (o n : Nat) : Nat := ofBytes ((joinRead.1.drop o).take n)
     f 0 4 = 0x47524E59 ∧ f 4 2 = 1 ∧ f 6 2 = 7 ∧ f 8 2 = 0 ∧ joinRead.2.core.session = none ∧ joinRead.2.core.task.fn = joinAt.2.core.task.fn ∧
     joinRead.2.openSession 0 7 = none ∧ joinRead.2.jobAt 0 = some placeJob ∧ joinRead.2.core.level = .s ∧ descriptorOk joinRead.1 = true ∧
     (joinRead.2.sessions.filter (fun x => x.fn == 0 && x.st == 0)).length < 8 ∧ f 0x10 8 + f 0x18 8 ≤ placeJob.spill ∧ placeJob.graphs (f 0x0A 2) = 0 ∧
     placeJob.gmarks.contains (f 0x0A 2) = false ∧ (∀ x ∈ joinRead.2.sessions, x.fn = 0 → x.st = 0 → overlaps x.spillOff x.spillB (f 0x10 8) (f 0x18 8) = false)) ∧
    (attached (aSession 0 [] [])).openSession 0 7 = some (aSession 0 [] []) := by decide +kernel

/-- SessionsAndHeldRecords, ends: an opener that leaves with a record and without, a holder whose done leaves nothing, sessions that end and that are
cancelled while their graph has another counted. -/
theorem wit_SessionsAndHeldRecords_ends : (let x := aSession 0 [] [heldRec]
      (attached x).joined = some x ∧ x.heldBy 1 = some heldRec ∧ (attached x).core.task.num = 1 ∧ x.opener = some 1 ∧ (attached x).core.order.acc = []) ∧
    ((attached (aSession 0 [] [])).joined = some (aSession 0 [] []) ∧ (aSession 0 [] []).heldBy 1 = none) ∧
    (let x : Session := { aSession 0 [] [] with opener := none }
     let s := (attached x).modJob 0 (fun j => { j with gctr := [(3, 2)] })
     x.st = 0 ∧ x.group = 0 ∧ x.opener = none ∧ x.recs = [] ∧ x.popped = [] ∧ s.sessionAt 4 = some x ∧
       (s.jobAt 0).map (fun j => (j.graphs 3, j.jctr, j.rootTask)) = some (2, 1, s.core.task.num) ∧ s.core.run ≠ .idle) ∧
    (let x := aSession 0 [aRec 3] [heldRec]
     let s := (attached x).modJob 0 (fun j => { j with gctr := [(3, 2)] })
     s.sessionAt 4 = some x ∧ ¬ (x.opener = none ∧ x.recs = []) ∧ s.cores = [s.core] ∧ s.coreAt s.core.id = s.core ∧ heldRec.task = s.core.task.num) ∧
    (aSession 1 [] []).st ≠ 0 := by decide +kernel

/-- A launch record at 0x100100 of a kernel whose header stands at 0x100200, and the header. -/
def launchRecord (ngang ganglog caps : Nat) : List Byte :=
  toBytes 4 0x4C4E4348 ++ toBytes 2 1 ++ toBytes 2 0 ++ toBytes 8 0x100200 ++ toBytes 8 5 ++ toBytes 8 0x104000 ++ toBytes 8 0 ++ toBytes 4 256 ++ toBytes 4 ngang ++
  [BitVec.ofNat 8 ganglog, 0] ++ toBytes 2 caps ++ [0, 0] ++ toBytes 2 1 ++ toBytes 2 0 ++ toBytes 2 0xFFFF ++ toBytes 2 0xFFFF ++ toBytes 2 0 ++ List.replicate 64 0
def kernelHeader : List Byte :=
  toBytes 4 0x47584B31 ++ toBytes 2 3 ++ List.replicate 50 0 ++ toBytes 8 0x80 ++ List.replicate 16 0 ++ toBytes 8 0x100 ++ List.replicate 40 0
def launching (ngang ganglog caps : Nat) : State :=
  { holding base (.s, 1) 0x100100 with mem := memPut (memPut base.mem 0x100 (launchRecord ngang ganglog caps)) 0x200 kernelHeader }
def launchRead (s : State) : List Byte × State := okOf ([], base) (readVirtual s.begun 0 0 0x100100 128)
def kernelRead (s : State) : List Byte × State := okOf ([], base) (readVirtual (launchRead s).2 0 0 (fieldAt (launchRead s).1 8 8) 128)
def kernelOf (s : State) : KernelHeader := (parseKernel (kernelRead s).1).getD { encver := 0, det := false, caps := 0, steer := 0, drainOff := 0, drainN := 0, attic := 0, entry := 0, len := 0 }
/-- LaunchesAreAccepted: a launch of two gangs of eight; one that waits for its own counter's class in vain; one whose counter is not 0. -/
theorem wit_LaunchesAreAccepted : (let s := launching 2 3 0
     s.core.ready (.s, 1) = true ∧ s.core.order.acc = [] ∧ s.suspending 0 = false ∧ isOk (readVirtual s.begun 0 0 0x100100 128) = true ∧
     launchForm (launchRead s).1 = true ∧ isOk (readVirtual (launchRead s).2 0 0 (fieldAt (launchRead s).1 8 8) 128) = true ∧
     (parseKernel (kernelRead s).1).isSome = true ∧ (kernelRead s).2.jobAt 0 = some placeJob ∧ (kernelRead s).2.core.task.fn = 0 ∧
     0 < (kernelRead s).2.fns.length ∧ (kernelRead s).2.launchOk placeJob (launchRead s).1 (kernelOf s) = true ∧ placeJob.gmarks.contains 0 = false ∧
     positions 8 ((kernelRead s).2.eligible 0 0 0) ≠ []) ∧
    (let s := launching 2 3 0
     (kernelRead s).2.launchOk { placeJob with lctr := [(1, 4)] } (launchRead s).1 (kernelOf s) = false) ∧
    (let s := { launching 1 0 4 with ladders := { base.ladders with engines := (List.range 256).map (fun c => (c, 0x0001)) } }
     positions 1 ((kernelRead s).2.eligible 0 4 0) = []) ∧
    (let s := holding base (.s, 1) 0x100100
     isOk (readVirtual s.begun 0 0 0x100100 128) = true ∧ launchForm (launchRead s).1 = false) ∧
    (let s := { launching 2 3 0 with mem := memPut base.mem 0x100 (launchRecord 2 3 0) }
     launchForm (launchRead s).1 = true ∧ isOk (readVirtual (launchRead s).2 0 0 (fieldAt (launchRead s).1 8 8) 128) = true ∧ (parseKernel (kernelRead s).1).isNone = true) := by decide +kernel

def withPhases : State := base.modJob 0 (fun j => { j with phases := [{ attic := 0, carve := [] }, { attic := 0, carve := [] }], lctr := [(2, 1)], gctr := [(255, 1)] })
/-- CountersAndTaskEnds: phases that the job has and has not, counters at 0 and above, a gang that has met and one that has not, handlers, stubs, stopped queues. -/
theorem wit_CountersAndTaskEnds : ((withPhases.jobAt 0).map (fun j => (j.phases.length, j.launches 2, j.launches 0, j.graphs 255, j.graphs 0)) = some (2, 1, 0, 1, 0)) ∧
    withPhases.core.level = .s ∧ ((atU withPhases).core.level = .u ∧ (atU withPhases).jobAt 0 = withPhases.jobAt 0) ∧ base.core.order.acc = [] ∧ base.core.drains = [] ∧ base.core.steered = [] ∧ loading.core.order.acc ≠ [] ∧ (base.gangArrivals base.core.task).all (fun p => p.1 == base.core.task.num || decide (1 ≤ p.2)) = true ∧
    (let s : State := { base with parked := [(1, { base.core with id := 1, task := { base.core.task with num := 2 } })] }
     (s.gangArrivals s.core.task).all (fun p => p.1 == s.core.task.num || decide (1 ≤ p.2)) = false) ∧
    (base.core.inHandler = false ∧ base.core.stopped = none ∧ base.core.ctl 0x36 = 0) ∧ (handling .user false).core.inHandler = true ∧ (ctl base 0x36 1).core.ctl 0x36 ≠ 0 ∧
    Core.stopped { base.core with queues := [Queue.reset, { Queue.reset with stop := some 0x30 }, Queue.reset, Queue.reset] } = some (1, 0x30) := by decide +kernel

def aLaunch : Launch := (kernelRead (launching 2 3 0)).2.launchOf placeJob (launchRead (launching 2 3 0)).1 (kernelOf (launching 2 3 0))
def placing (st : GangState) (b : Nat) (held : List (Nat × Nat)) : State :=
  { base with dist := { base.dist with launches := [aLaunch], gangs := [{ launch := aLaunch.id, num := 0, st := st, b := b, ended := [], cores := [] }], held := held } }
/-- PlacementAndStart: a gang that waits, the one at the longest back-off, one whose holds are all granted. -/
theorem wit_PlacementAndStart : ((placing .wait 64 []).dist.launches.find? (fun l => l.id == aLaunch.id) = some aLaunch ∧ aLaunch.deps = [] ∧
      (placing .wait 64 []).admits aLaunch.fn = true ∧ (∀ g ∈ (placing .wait 64 []).dist.gangs, (placing .wait 64 []).gangTurn g = true) ∧
      (∀ g ∈ (placing .wait 64 []).dist.gangs, g.b ≠ 8192) ∧ aLaunch.nest = false ∧ aLaunch.fn < (placing .wait 64 []).fns.length) ∧
    (placing .wait 8192 []).dist.gangs.find? (fun g => g.launch == aLaunch.id && g.num == 0) =
      some { launch := aLaunch.id, num := 0, st := .wait, b := 8192, ended := [], cores := [] } ∧
    (let s := placing (.hold 8) 64 ((List.range 8).map (fun k => (8 + k, gangKey aLaunch.id 0)))
     s.allHeld aLaunch 0 = true ∧ s.admits aLaunch.fn = true ∧ s.dist.gangs.map (fun g => g.st) = [.hold 8]) := by decide +kernel
/-- PlacementAndStart: the cores of a position, and core 255, stand under their numbers. -/
theorem wit_PlacementAndStart_cores : (∀ k, k < 8 → ((placing (.hold 8) 64 []).coreAt (8 + k)).id = 8 + k) ∧ (base.coreAt 255).id = 255 := by decide +kernel
/-- The launch counter of a waiting gang of eight stands at `n`, its graph at 2; a session is bound to the graph, too. -/
def cancelling (n : Nat) : State :=
  ({ placing .wait 64 [] with sessions := [{ aSession 0 [aRec 3] [] with gctr := 0 }] } : State).modJob 0 (fun j => { j with lctr := [(1, n)], gctr := [(0, 2)] })
/-- CountersAndTaskEnds, cancels: a launch that keeps a task, one that loses its last, counters at 0; the graph, its phase and the job. -/
theorem wit_CountersAndTaskEnds_cancel : [8, 9].all (fun n =>
    let s := cancelling n
    decide (s.dist.launches.find? (fun x => x.fn == 0 && x.lctr == 1) = some aLaunch ∧ s.dist.launches.filter (fun x => x.fn == 0 && x.lctr == 1) = [aLaunch] ∧
      s.dist.suspended = [] ∧ s.dist.gangs.countP (fun g => g.launch == aLaunch.id && g.st != .run) * 2 ^ aLaunch.ganglog = 8 ∧ aLaunch.gctr = 0 ∧
      (s.jobAt 0).map (fun j => (j.launches 1, j.launches 0, j.graphs 0, j.graphs 1, SMap.get 0 j.gphase 0, j.jctr)) = some (n, 0, 2, 0, 0, 1) ∧
      s.sessions.map (fun x => (x.fn, x.gctr, x.st)) = [(0, 0, 0)] ∧ s.sessions.map some = s.sessions.map (fun x => s.sessionAt x.uid))) = true ∧
    (let s : State := { cancelling 9 with dist := { (cancelling 9).dist with launches := [{ aLaunch with evt := true, issuer := base.core.task.num }] } }
     s.core.run ≠ .idle ∧ s.core.task.num = base.core.task.num) := by decide +kernel
/-- The loop nest of R79's example. -/
def nestLaunch : Launch := { aLaunch with nest := true, nlev := 3, counts := [4, 3, 8, 0, 0, 0], perm := 0x81, slice := 6, ngang := 4, ganglog := 2 }
theorem wit_PlacementAndStart_nest : (base.jobAt nestLaunch.fn).isSome = true ∧
    (min (5 * nestLaunch.slice) (pointCount nestLaunch) = 30 ∧ pointCount nestLaunch = 96 ∧ min (16 * nestLaunch.slice) (pointCount nestLaunch) = 96) ∧
    (∀ q, q < 3 → bits 0x81 (3 * q) 3 < 3) ∧ (∀ q, q < 3 → ∀ x, x < 3 → bits 0x81 (3 * q) 3 = bits 0x81 (3 * x) 3 → q = x) := by decide +kernel
/-- R79: task 5 of its example starts at points 30 to 36, at (3, 0, 6). -/
theorem test_start_nest : ([0x013, 0x014, 0x018, 0x019, 0x01A, 0x01B].map (fun r => (base.startTask nestLaunch 1 1 0).core.ctl r)) = [30, 36, 3, 0, 6, 0] := by
  decide +kernel

/-- A task with its context area at 0x103000 and a drain table at 0x102000 of one entry that covers its kernel; the stub and the restore routine stand at
0x100280 and 0x1002C0. -/
def preempted : State :=
  ctl (ctl (ctl { base with
    core := { base.core with preempt := 1 },
    mem := memPut (memPut (memPut base.mem 0x280 [0, 0, 0, 0xC8]) 0x2C0 [0, 0, 0, 0xC8])
      0x2000 (toBytes 8 0 ++ toBytes 8 0x100 ++ toBytes 8 0x280 ++ toBytes 8 0x2C0) } 0x33 0x103000) 0x34 0x102000) 0x35 1
def asSuspended : Suspended := { core := { base.core with run := .idle }, pantry := [], kind := .full, posts := [] }
/-- PreemptionSteps: a diversion with a table entry, one without, and a suspended task to resume. (A full save: wit_PreemptionSteps_save.) -/
theorem wit_PreemptionSteps :
    isOk (writeSelf preempted.begun 0 0 0x103000 (contextHeader preempted.core.pc 1 0 0)) = true ∧
    (okOf base (writeSelf preempted.begun 0 0 0x103000 (contextHeader preempted.core.pc 1 0 0))).drainEntry preempted.core.pc = some (0x100280, 0x1002C0) ∧
    (let s := ctl preempted 0x35 0
     (okOf base (writeSelf s.begun 0 0 0x103000 (contextHeader s.core.pc 1 0 0))).drainEntry s.core.pc = none) ∧
    (let s : State := { base with dist := { base.dist with suspended := [asSuspended], busy := [] } }
     s.dist.suspended.find? (fun y => y.core.task.num == asSuspended.core.task.num) = some asSuspended ∧ asSuspended.kind = .full ∧ asSuspended.posts = [] ∧ s.mayResume asSuspended.core.task s.core.id = true ∧
       { asSuspended with kind := .stub }.kind = .stub) ∧
    ({ base.core with run := .leaving, forced := true } : Core).run = .leaving := by
  decide +kernel

/-! Witnesses: vectors and matrices -/

/-- LaneFormsComplete, FloatLanesComplete, ExactRecordsComplete, SpecialFunctions: every form on ready registers, guarded and not. -/
theorem wit_LaneFormsComplete : [Instr.vadd ⟨.v0, 1, 2, 3, 1, 0, none⟩, .vsub ⟨.v1, 1, 2, 3, 7, 3, none⟩, .vmul ⟨.v0, 1, 2, 3, 0, 1, none⟩,
  .vmulh ⟨.v0, 1, 2, 3, 0, 0, some ⟨0, 0, 0, 0, 0x800⟩⟩, .vmad ⟨.v0, 1, 2, 3, 0, 0, some ⟨4, 0, 0, 0, 0⟩⟩, .vmin ⟨.v0, 1, 2, 3, 0, 0, none⟩, .vmax ⟨.v0, 1, 2, 3, 0, 0, none⟩,
  .vabs ⟨.v0, 1, 2, 0, 0, 0, none⟩, .vneg ⟨.v0, 1, 2, 0, 0, 0, none⟩, .vand ⟨.v0, 1, 2, 3, 0, 0, none⟩, .vor ⟨.v0, 1, 2, 3, 0, 0, none⟩, .vxor ⟨.v0, 1, 2, 3, 0, 0, none⟩,
  .vshl ⟨.v0, 1, 2, 3, 0, 0, none⟩, .vshr ⟨.v0, 1, 2, 3, 0, 0, none⟩, .vsra ⟨.v0, 1, 2, 3, 0, 0, none⟩, .vadds ⟨.v0, 1, 2, 3, 0, 0, none⟩, .vsubs ⟨.v0, 1, 2, 3, 0, 0, none⟩,
  .vqshr ⟨.v0, 1, 2, 3, 0, 0, some ⟨0, 0, 0, 0, 31⟩⟩, .vpack ⟨.v0, 1, 2, 3, 0, 0, none⟩, .vunpk ⟨.v0, 1, 2, 0, 0, 0, none⟩, .vdot2 ⟨.v0, 1, 2, 3, 0, 0, some ⟨5, 0, 0, 0, 1⟩⟩,
  .vsel ⟨.v0, 1, 2, 3, 1, 0, none⟩, .vredAdd ⟨.v0, 1, 2, 0, 1, 0, none⟩, .vredMin ⟨.v0, 1, 2, 0, 0, 0, none⟩, .vredMax ⟨.v0, 1, 2, 0, 0, 0, none⟩,
  .vbcst ⟨.v0, 1, 2, 0, 0, 0, some ⟨0, 0, 0, 0, 63⟩⟩, .vcmpEq ⟨.v0, 7, 2, 3, 1, 0, none⟩, .vcmpNe ⟨.v0, 1, 2, 3, 0, 0, none⟩, .vcmpLt ⟨.v0, 1, 2, 3, 0, 0, none⟩,
  .vcmpLtu ⟨.v0, 1, 2, 3, 0, 0, none⟩, .vcmpGe ⟨.v0, 1, 2, 3, 0, 0, none⟩, .vcmpGeu ⟨.v0, 1, 2, 3, 0, 0, none⟩, .fcmpEq ⟨.v0, 1, 2, 3, 0, 0, none⟩,
  .fcmpNe ⟨.v0, 1, 2, 3, 0, 1, none⟩, .fcmpLt ⟨.v0, 1, 2, 3, 0, 0, none⟩, .fcmpLe ⟨.v0, 1, 2, 3, 0, 0, none⟩, .fcmpUn ⟨.v0, 1, 2, 3, 0, 0, none⟩, .mand ⟨.v0, 1, 2, 3, 0, 0, none⟩,
  .mor ⟨.v0, 1, 2, 3, 0, 0, none⟩, .mnot ⟨.v0, 1, 2, 0, 0, 0, none⟩, .mpop ⟨.v0, 1, 2, 0, 0, 0, none⟩, .xmovSv ⟨.c0, 31, 1, 31⟩, .xmovVs ⟨.c0, 1, 1, 31⟩, .xmovVw ⟨.c0, 1, 1⟩,
  .xmovWv ⟨.c0, 1, 1⟩, .xmovSc ⟨.c0, 15, 63⟩, .xmovCs ⟨.c0, 1, 1⟩, .xmovSd ⟨.c1, 1, 1⟩, .xmovDs ⟨.c1, 1, 1⟩, .xmovKv ⟨.c0, 1, 3⟩, .cadd ⟨.c1, 15, 1, 0xFF, none⟩,
  .cmovi ⟨.c0, 1, 5, none⟩, .clea ⟨.c0, 1, 2, 3, 3⟩].map (fun i =>
    match integerLanes i, maskResults i, copyForm i with
    | some f, _, _ => i.wf && f.ready base.core
    | _, some f, _ => i.wf && f.ready base.core
    | _, _, some f => i.wf && f.ready base.core
    | _, _, _ => false) = List.replicate 53 true := by decide +kernel

theorem wit_FloatLanesComplete : [Instr.fadd ⟨.v0, 1, 2, 3, 1, 0, some ⟨0, 3, 0, 0, 0⟩⟩, .fsub ⟨.v1, 1, 2, 3, 0, 1, none⟩, .fmul ⟨.v0, 1, 2, 3, 0, 0, none⟩,
  .ffma ⟨.v0, 1, 2, 3, 0, 0, some ⟨4, 0, 0, 0, 0⟩⟩, .fmin ⟨.v0, 1, 2, 3, 0, 0, none⟩, .fmax ⟨.v0, 1, 2, 3, 0, 0, none⟩, .fabs ⟨.v0, 1, 2, 0, 0, 0, none⟩,
  .fneg ⟨.v0, 1, 2, 0, 0, 0, none⟩, .fcvt ⟨.v0, 1, 2, 0, 0, 0, some ⟨0, 0, 2, 10, 0⟩⟩, .fred ⟨.v0, 1, 2, 0, 0, 0, none⟩, .vmxd ⟨.v0, 1, 2, 0, 0, 0, some ⟨0, 0, 5, 0, 0⟩⟩,
  .vmxq ⟨.v0, 1, 2, 0, 0, 0, some ⟨0, 0, 0, 8, 0⟩⟩].map (fun i => match floatLanes i with | some f => i.wf && base.powered && f.ready base.core | none => false) =
    List.replicate 12 true := by decide +kernel

theorem wit_ExactRecordsComplete : [Instr.xsadd ⟨.v0, 2, 2, 3, 1, 0, none⟩, .xsfold ⟨.v0, 2, 4, 6, 0, 0, none⟩, .xsfold ⟨.v1, 30, 30, 0, 0, 0, some ⟨0, 0, 0, 0, 1⟩⟩,
  .xsround ⟨.v0, 1, 2, 0, 0, 0, none⟩, .xpadd ⟨.v0, 4, 4, 8, 0, 0, none⟩, .xpadd ⟨.v0, 28, 24, 3, 1, 0, some ⟨0, 0, 0, 0, 1⟩⟩, .xpadd ⟨.v0, 4, 8, 0, 0, 0, some ⟨0, 0, 0, 0, 2⟩⟩,
  .xpround ⟨.v0, 1, 4, 0, 0, 0, none⟩, .xpmul ⟨.v0, 4, 1, 2, 7, 0, none⟩].map (fun i => match recordForm i with | some f => i.wf && base.powered && f.ready base.core | none => false) =
    List.replicate 9 true := by decide +kernel

theorem wit_SpecialFunctions : [Instr.fdiv ⟨.v0, 1, 2, 3, 1, 0, none⟩, .fexp ⟨.v0, 1, 2, 0, 0, 1, none⟩, .fexp2 ⟨.v0, 1, 2, 0, 0, 0, none⟩, .flog ⟨.v0, 1, 2, 0, 0, 0, none⟩,
  .flog2 ⟨.v0, 1, 2, 0, 0, 0, none⟩, .fsin ⟨.v0, 1, 2, 0, 0, 0, none⟩, .fcos ⟨.v0, 1, 2, 0, 0, 0, none⟩, .ftanh ⟨.v0, 1, 2, 0, 0, 0, none⟩, .fsigm ⟨.v0, 1, 2, 0, 0, 0, none⟩,
  .ferf ⟨.v0, 1, 2, 0, 0, 0, none⟩, .frcp ⟨.v0, 1, 2, 0, 0, 0, none⟩, .frsq ⟨.v0, 1, 2, 0, 0, 0, none⟩, .fsqrt ⟨.v0, 1, 2, 0, 7, 0, none⟩].map (fun i => match specialForm i with
    | some (o, srcs, _) => i.wf && base.powered && base.core.allReady (laneSrcs o srcs) && base.core.free (vFile o.v, o.d.toNat)
    | none => false) = List.replicate 13 true ∧
    (let x : Special := { id := 2, cyc := 0, key := regKey 2 1, cell := RegCell.zero }
     let s : State := { base with core := { base.core with specials := [x] } }
     s.core.specials.find? (fun y => y.id == x.id) = some x) := by decide +kernel

/-- ShufflesAndNops. -/
theorem wit_ShufflesAndNops : base.core.pflights = [] ∧ base.core.ready (.v, 2) = true ∧
    (laneForm ⟨.v0, 1, 2, 3, 0, 0, none⟩ [(.v, 2), (.v, 3)] 32 64 3 (fun _ _ => 0)).ready base.core = true := by decide +kernel

/-- v1 holds a pantry address in its lane 0, in a bank of a format. -/
def basing (a fmt : Nat) : State := { holding base (.v, 1) a with core := { (holding base (.v, 1) a).core with bfmt := if fmt = 0 then [] else [(0, fmt)] } }
def vm : VM := ⟨.v0, 2, 1, 3, 0, none⟩
/-- VectorPantryAccesses: loads and stores with all lanes active, and with none. -/
theorem wit_VectorPantryAccesses : (let s := basing 0xBF00 0
     s.core.allReady ([(.v, 1)] ++ keptRegs vm) = true ∧ s.core.free (.v, 2) = true ∧ (List.range 64).any (s.core.lane vm) = true ∧ (s.core.baseOf vm).toNat < 2 ^ 20 ∧ s.core.pantryOpen = true ∧
     s.pantryCode 0 (s.core.baseOf vm + 256 * vmDisp vm).toNat 256 = none ∧ s.defined 0 (s.core.baseOf vm + 256 * vmDisp vm).toNat 256 = true ∧
     (∀ j, j < 64 → s.pantryCode 0 (s.core.baseOf vm + vmDisp vm + BitVec.ofNat 64 (bits (s.core.regVal (.v, 3)) (32 * j) 32)).toNat 4 = none ∧
       s.defined 0 (s.core.baseOf vm + vmDisp vm + BitVec.ofNat 64 (bits (s.core.regVal (.v, 3)) (32 * j) 32)).toNat 4 = true)) ∧
    (List.range 64).any (base.core.lane { vm with m := 1 }) = false ∧ base.core.allReady ([(.v, 1)] ++ keptRegs { vm with m := 1 }) = true ∧
    (basing 0xBF00 0).cores.all (fun c => c.reads.isEmpty) = true ∧ base.core.allReady ([(.v, 1), (.v, 2)] ++ guardRegs { vm with m := 7 }) = true := by decide +kernel
theorem wit_VectorPantryAccesses_decoded : (let s := basing 0x100 2
     ((List.range 64).filter (s.core.lane vm)).getLast? = some 63 ∧ s.decodeCode 0 0x100 64 = none ∧ s.core.carving 0x100 = false ∧ (s.readElems none 0 0 2 (0x100 * 8 / 16) 64).2 = s) ∧
    (let t := basing 0x100 2
     let s : State := { t with core := { t.core with carve := some { banks := [0], until_ := 40 } } }
     s.decodeCode 0 0x100 64 = none ∧ s.core.carving 0x100 = true ∧ s.core.pantryOpen = true) := by decide +kernel

/-- VectorGlobalAccesses: an aligned mapped address with every lane active, and no lane active. -/
theorem wit_VectorGlobalAccesses : (let s := basing 0x100100 0
     s.core.allReady ([(.v, 1)] ++ keptRegs vm) = true ∧ s.core.free (.v, 2) = true ∧ s.core.ready (.v, 2) = true ∧ (List.range 64).any (s.core.lane vm) = true ∧
     (s.core.baseOf vm + 256 * vmDisp vm).toNat % 256 = 0 ∧ isOk (s.begun.translate 0x100100 [.read]) = true ∧ isOk (s.begun.translate 0x100100 [.write]) = true ∧
     (okOf (0, base) (s.begun.translate 0x100100 [.read])).2.core.served (vmCls vm) (([(File.v, 1)] ++ keptRegs vm).map s.core.reg) 0x100100 0x100 256 [] = none) ∧
    (List.range 64).any (base.core.lane { vm with m := 1 }) = false := by decide +kernel
theorem wit_VectorGlobalAccesses_buffered : (let s := basing 0x100100 0
     let b : State := { s with core := { s.core with order := { s.core.order with acc := [{ Access.blank with va := 0x100100, pa := 0x100, len := 256, data := List.replicate 256 7 }] } } }
     let r := okOf (0, base) (b.begun.translate 0x100100 [.read])
     isOk (b.begun.translate 0x100100 [.read]) && r.1 == 0x100 && (r.2.core.served (vmCls vm) (([(File.v, 1)] ++ keptRegs vm).map b.core.reg) 0x100100 0x100 256 []).isSome) = true := by
  decide +kernel

/-- A descriptor of this core's pantry. -/
def descWord (fmt kn rows cols stride paddr : Nat) : Nat := paddr + stride * 2 ^ 20 + cols * 2 ^ 89 + rows * 2 ^ 100 + kn * 2 ^ 111 + fmt * 2 ^ 116
/-- g0 and g1 hold descriptors of banks 0 and 1. -/
def operands (fa fb a b : Nat) : State :=
  let s := holding (holding base (.g, 0) a) (.g, 1) b
  { s with core := { s.core with bfmt := [(0, fa), (1, fb)].filter (fun p => p.2 != 0) } }
def e2m1Sparse : State := operands 5 5 (descWord 5 1 32 128 64 0) (descWord 5 1 32 256 128 0xC000)
/-- ProductsComplete: a dense product of two 32 x 256 FP4 blocks, and a sparse one. -/
theorem wit_ProductsComplete_dense : (let s := operands 5 5 (descWord 5 1 32 256 128 0) (descWord 5 1 32 256 128 0xC000)
     (denseForm (.mmaE2m1 ⟨767, 0, 1, 0⟩)).isSome = true ∧ s.core.ready (.g, 0) = true ∧ s.core.ready (.g, 1) = true ∧ (s.core.desc 0).kn = 1 ∧ (s.core.desc 1).kn = 1 ∧
     s.core.tileReady 767 = true ∧ s.core.engineFree = true ∧ s.core.pantryOpen = true ∧ s.bitmap 0 &&& prodE2m1.need = prodE2m1.need ∧ 1 ≤ prodE2m1.kmax) := by decide +kernel

/-- The form, the bank and the bytes of an operand. -/
def standing (s : State) (d : Desc) (fmts : List Nat) (rows cols : Nat) : Bool :=
  d.formOk && fmts.contains d.fmt && d.rows == rows && d.cols == cols && (s.descFault d).isNone && d.mc.isNone && decide ((s.readMatrix d).2 = s)
theorem standing_operandOk {s : State} {d : Desc} {fmts : List Nat} {rows cols : Nat} (h : standing s d fmts rows cols = true) : s.operandOk d fmts rows cols := by
  simp only [standing, Bool.and_eq_true, beq_iff_eq, decide_eq_true_eq, Option.isNone_iff_eq_none, List.contains_iff_mem] at h
  exact ⟨⟨h.1.1.1.1.1.1, h.1.1.1.1.1.2, h.1.1.1.1.2, h.1.1.1.2, h.1.1.2⟩, h.1.2, h.2⟩

/-- ProductsComplete, dense: operands of each product in form and standing. -/
theorem wit_ProductsComplete_bf16 : (let s := operands 2 2 (descWord 2 1 32 256 512 0) (descWord 2 1 32 256 512 0xC000)
    standing s (s.core.desc 0) [2] 32 256 && standing s (s.core.desc 1) [2] 32 256 && s.core.ready (.g, 0) && s.core.tileReady 0 && s.core.engineFree && s.core.pantryOpen &&
    s.bitmap 0 &&& 4 == 4) = true := by decide +kernel
theorem wit_ProductsComplete_f8 : (let s := operands 3 4 (descWord 3 1 32 256 256 0) (descWord 4 1 32 256 256 0xC000)
    standing s (s.core.desc 0) (prodF8 1).fmtA 32 256 && standing s (s.core.desc 1) (prodF8 1).fmtB 32 256) = true := by decide +kernel
theorem wit_ProductsComplete_e2m1 : (let s := operands 5 5 (descWord 5 1 32 256 128 0) (descWord 5 1 32 256 128 0xC000)
    standing s (s.core.desc 0) [5] 32 256 && standing s (s.core.desc 1) [5] 32 256 && (s.core.desc 0).kn == 1 && (s.core.desc 1).kn == 1) = true := by decide +kernel
theorem wit_ProductsComplete_i8 : (let s := operands 10 6 (descWord 10 1 32 256 256 0) (descWord 6 1 32 256 256 0xC000)
    standing s (s.core.desc 0) [6, 10] 32 256 && standing s (s.core.desc 1) [6, 10] 32 256) = true := by decide +kernel
theorem wit_ProductsComplete_i6 : (let s := operands 7 7 (descWord 7 1 32 256 192 0) (descWord 7 1 32 256 192 0xC000)
    standing s (s.core.desc 0) [7] 32 256 && standing s (s.core.desc 1) [7] 32 256) = true := by decide +kernel
theorem wit_ProductsComplete_i4 : (let s := operands 8 8 (descWord 8 1 32 256 128 0) (descWord 8 1 32 256 128 0xC000)
    standing s (s.core.desc 0) [8] 32 256 && standing s (s.core.desc 1) [8] 32 256) = true := by decide +kernel

/-- A descriptor with MC set and an MCID of 3 (R116, R141). -/
def mcastWord (fmt kn rows cols stride paddr : Nat) : Nat := descWord fmt kn rows cols stride paddr + 2 ^ 123 + 3 * 2 ^ 124
/-- ProductsComplete, multicast: an operand that stands, and one whose read joins a read of its gang. -/
theorem wit_ProductsComplete_multicast : (let s := operands 5 5 (mcastWord 5 1 32 256 128 0) (descWord 5 1 32 256 128 0xC000)
     let d := s.core.desc 0
     let x : Multicast := { launch := 4, gang := 1, mcid := 3, core := 0, paddr := 0, since := 0, bytes := [(0, 7), (1, 9)] }
     let t : State := { s with core := { s.core with task := { s.core.task with launch := 4, gang := 1, root := false } }, dist := { s.dist with merged := [x] } }
     (d.formOk && d.fmt == 5 && d.rows == 32 && d.cols == 256 && (s.descFault d).isNone && d.mc == some 3 && d.kn == 1 && s.core.tileReady 767 && s.core.engineFree && s.core.pantryOpen &&
       s.bitmap 0 &&& prodE2m1.need == prodE2m1.need) = true ∧ t.joinable d 3 = some x ∧ (∀ p ∈ x.bytes, p.1 = 0 + 1 → p = (1, 9)) ∧
     x.bytes.find? (fun q => q.1 == 0 + 1) = some (1, 9)) := by decide +kernel
theorem wit_ProductsComplete_sum : prodI8.int = true ∧ (0xFFFFFFFF : Nat) < 2 ^ 32 := by decide

/-- Metadata of one code for every group, in bank 2. -/
def sparse (byte : Byte) (fa fb sa sb : Nat) : State :=
  let s := operands fa fb (descWord fa 1 32 128 sa 0) (descWord fb 1 32 256 sb 0xC000)
  { s with pantry := if byte = 0 then [] else (List.range' 0x18000 1024).map (fun a => (a, byte)) }
/-- ProductsComplete, sparse: code 4 names a pair in every group; code 0 names none in the first. -/
theorem wit_ProductsComplete_sparse : [(5, 5, 64, 128), (2, 2, 256, 512), (3, 3, 128, 256), (10, 10, 128, 256), (8, 8, 64, 128)].all (fun x =>
    let s := sparse 0x44 x.1 x.2.1 x.2.2.1 x.2.2.2
    standing s (s.core.desc 0) [x.1] 32 128 && standing s (s.core.desc 1) [x.2.1] 32 256 && (s.metaFault 0 0x18000 1024).isNone && 0x18000 % 64 == 0 &&
    decide ((s.pantryReadFor (some 0) 0 0x18000 1024).2 = s) && s.bitmap 0 &&& 15 == 15 && s.core.tileReady 0 && s.core.pantryOpen) = true := by decide +kernel
theorem get_run (b : Byte) : ∀ n k j : Nat, j < n → SMap.get 0 ((List.range' k n).map (fun a => (a, b))) (k + j) = b := by
  intro n
  induction n with
  | zero => intro k j h; omega
  | succ n ih =>
    intro k j h
    simp only [List.range'_succ, List.map_cons, SMap.get]
    cases j with
    | zero => simp
    | succ j =>
      have := ih (k + 1) j (by omega)
      rw [show k + (j + 1) = k + 1 + j by omega]
      simpa [show ¬ (k = k + 1 + j) by omega] using this
theorem wit_ProductsComplete_codes : (∀ i, i < 1024 → (sparse 0x44 5 5 64 128).pantryByte 0 (0x18000 + i) = 0x44) ∧
    (sparsePair (bits (0x44 : Byte).toNat 0 4)).isSome = true ∧ (sparsePair (bits (0x44 : Byte).toNat 4 4)).isSome = true ∧
    (sparsePair (bits (nth 0 ((sparse 0 5 5 64 128).pantryReadFor (some 0) 0 0x18000 1024).1 0).toNat 0 4)).isSome = false := by
  refine ⟨fun i h => ?_, by decide, by decide, by decide +kernel⟩
  have e : pantryKey 0 (0x18000 + i) = 0x18000 + i := by simp [pantryKey]
  show SMap.get 0 ((List.range' 0x18000 1024).map (fun a => (a, (0x44 : Byte)))) (pantryKey 0 (0x18000 + i)) = 0x44
  rw [e]; exact get_run 0x44 1024 0x18000 i h

/-- TileOperations: tiles at hand, a matrix for mload and one for each size of mrot. -/
theorem wit_TileOperations : (let s := operands 1 2 (descWord 1 0 32 32 128 0) (descWord 2 0 32 256 512 0xC000)
    s.core.engineFree && s.core.pantryOpen && s.core.tileReady 767 && s.core.tileReady 0 && s.core.ready (.g, 0) && standing s (s.core.desc 0) [0, 1, 2, 3, 4, 9, 10] 32 32 &&
    standing s (s.core.desc 0) [1, 2, 3, 4, 5, 6, 7, 8] 32 32 && standing s (s.core.desc 1) [1, 2, 3, 4, 5, 6, 7, 8] 32 256 &&
    (Instr.mrot ⟨760, 1, 2⟩).wf && (Instr.mrot ⟨767, 0, 0⟩).wf && s.bitmap 0 &&& 16 == 16 && (List.range 8).all (fun q => s.core.tileReady (760 + q))) = true ∧
    standing (operands 0 0 (descWord 0 0 32 32 128 0) 0) ((operands 0 0 (descWord 0 0 32 32 128 0) 0).core.desc 0) [0] 32 32 = true ∧
    standing (operands 1 0 (descWord 1 0 32 64 256 0) 0) ((operands 1 0 (descWord 1 0 32 64 256 0) 0).core.desc 0) [1] 32 64 = true := by decide +kernel

/-- A drain parameter block at 0x18000: scale 1.0, a residual in bank 1. -/
def draining (flags rfmt raddr rstride : Nat) : State :=
  let s := operands 2 1 (descWord 2 0 32 32 64 0) 0
  s.pantryWrite 0 0x18000 (toBytes 4 0x3F800000 ++ List.replicate 28 0 ++ toBytes 2 flags ++ [0, BitVec.ofNat 8 rfmt] ++ toBytes 4 raddr ++ toBytes 4 rstride ++ List.replicate 20 0)
/-- DrainsComplete: mdrain raw and in BF16; mdrainx plain, and with dropping and a residual. -/
theorem wit_DrainsComplete : ([(0, 128), (2, 64)].all (fun x =>
      let s := operands x.1 0 (descWord x.1 0 32 32 x.2 0) 0
      let g := s.core.desc 0
      s.cores.all (fun c => c.reads.isEmpty) && s.core.ready (.g, 0) && s.core.tileReady 5 && s.core.engineFree && s.core.pantryOpen && g.formOk && decide (g.fmt ≤ 10) && g.rows == 32 && g.cols == 32 && (s.descFault g).isNone)) = true ∧
    (isMx 2 = false ∧ (2 : Nat) ≠ 0) ∧
    ([draining 0 0 0 0, draining 3 1 0xC000 128].all (fun s =>
      let g := s.core.desc 0
      s.cores.all (fun c => c.reads.isEmpty) &&
      let m := s.pantryReadFor (some 0) 0 0x18000 64
      let p := drainParam 0 m.1
      (s.pantryCode 0 0x18000 64).isNone && decide (m.2 = s) && p.ok && g.formOk && g.fmt == 2 && g.rows == 32 && g.cols == 32 && (s.descFault g).isNone &&
      (!p.res || standing s p.resDesc [p.resDesc.fmt] 32 32) && s.bitmap 0 &&& 32 == 32)) = true := by decide +kernel

/-- DescriptorMovesAndStatus: registers at hand; an idle engine and one with a bound to pass. -/
theorem wit_DescriptorMovesAndStatus : ((Instr.gset ⟨0, 1, 14⟩).wf = true ∧ base.core.allReady [(.d, 14), (.d, 15)] = true ∧ base.core.free (.g, 0) = true ∧
      base.core.ready (.g, 0) = true ∧ base.core.free (.c, 0) = true) ∧ ((Instr.mcap ⟨10⟩).wf = true ∧ ∀ i, i < 6 → base.core.free (.k, 10 + i) = true) ∧
    (base.core.steered.isEmpty && base.core.emul.isNone && base.core.serving.isNone && base.core.drains.isEmpty && base.core.tflights.all (fun x => x.row.isSome)) = true ∧
    (({ base.core with drains := [{ owner := 0, lo := 0, hi := 1, ready := 9, fenced := false }] } : Core).drains.isEmpty) = false ∧ base.core.engineFree = true := by decide +kernel

/-- An engine that lacks the BF16 class, with a policy; core 1 of the cluster has it or lacks it too. -/
def lacking (policy : Nat) (able : Bool) : State :=
  let s := ctl (operands 2 2 (descWord 2 1 32 256 512 0) (descWord 2 1 32 256 512 0xC000)) 9 (BitVec.ofNat 64 policy)
  { s with ladders := { s.ladders with engines := if able then [(0, 0x003B)] else (List.range 8).map (fun c => (c, 0x003B)) } }
def withLibrary (s : State) : State := s.modFn 0 (fun f => { f with ext := some { devnum := none, clusters := 0, engines := [], banks := [], chans := [], library := true, errata := [] } })
/-- SteeringAndMoves: every policy, with an able engine and without, with a library and without; in a handler; a steered operation on its way. -/
theorem wit_SteeringAndMoves : (let s := lacking 4 true
     s.core.ready (.g, 0) && s.core.ready (.g, 1) && (s.core.desc 0).kn == 1 && (s.core.desc 1).kn == 1 && standing s (s.core.desc 0) [2] 32 256 &&
     standing s (s.core.desc 1) [2] 32 256 && s.bitmap 0 &&& 4 == 0 && !s.core.inHandler && (s.core.ctl 9).toNat == 4) = true ∧
    ((lacking 1 false).ableEngine 4 = none ∧ ((lacking 1 false).core.ctl 9).toNat = 1) ∧ (lacking 2 true).hasLibrary = false ∧ (withLibrary (lacking 2 true)).hasLibrary = true ∧
    ((lacking 3 false).ableEngine 4 = none ∧ (withLibrary (lacking 3 false)).hasLibrary = true ∧ (lacking 3 true).core.tileReady 5 = true ∧ (lacking 3 true).core.engineFree = true ∧ (lacking 3 true).core.pantryOpen = true) ∧
    ((lacking 3 true).ableEngine 4 = some 1 ∧ (lacking 1 true).ableEngine 4 = some 1 ∧ (lacking 1 true).core.steered.length < 4 ∧
      ({ (lacking 1 true).core with mFree := 9 } : Core).engineFree = false ∧ ({ (lacking 1 true).core with mFree := 9 } : Core).tileReady 5 = true) ∧
    ({ (lacking 4 true).core with handler := .user }).inHandler = true ∧
    ((lacking 4 true).core.tilePending 5 = false ∧ (lacking 4 true).core.pantryOpen = true ∧ (lacking 4 true).core.engineFree = true) ∧
    4 ≤ ({ (lacking 1 true).core with steered := List.replicate 4 { id := 2, cyc := 3, names := [6], fenced := false, tiles := [], bytes := [], fault := none } } : Core).steered.length := by
  decide +kernel
theorem wit_SteeringAndMoves_complete : (let x : Steered := { id := 2, cyc := 3, names := [5], fenced := false, tiles := [(5, 0)], bytes := [], fault := none }
     let y : Steered := { id := 3, cyc := 3, names := [6], fenced := false, tiles := [], bytes := [], fault := some someFault }
     let s : State := { base with core := { base.core with steered := [x, y] } }
     s.core.steered.find? (fun z => z.id == 2) = some x ∧ s.core.steered.find? (fun z => z.id == 3) = some y ∧ x.fault = none ∧ y.fault = some someFault ∧
     s.core.steered.contains x = true ∧ (3 == s.core.cycle) = false ∧ s.core.tilePending 5 = true ∧ s.core.tilePending 6 = true ∧ s.core.serving = none) ∧ base.core.tilePending 5 = false ∧ base.core.tflights = [] ∧ base.core.free (.v, 31) = true ∧ base.core.ready (.v, 31) = true := by
  decide +kernel

/-- TagTableAndBanks: no tagged bank, one; a hit, a miss with a usable slot, none usable. -/
def tagging (tags : SMap Word) (a b : Nat) : State :=
  let s := holding (holding base (.c, 1) a) (.c, 2) b
  { s with core := { s.core with tagged := 1, tags := tags } }
theorem wit_TagTableAndBanks : (base.core.slots = 0 ∧ (tagging [] 0 0).core.slots = 192) ∧
    (let s := tagging [(5, 0x8000000000001200)] 0x1200 0
     s.core.ready (.c, 1) = true ∧ s.core.free (.c, 3) = true ∧ 5 < s.core.slots ∧ (s.core.tag 5).getLsbD 63 = true ∧
     bits (s.core.tag 5).toNat 8 48 = bits (s.core.word (.c, 1)).toNat 8 48 ∧ (∀ j, j < 5 → (s.core.tag j).getLsbD 63 = false)) ∧
    ((tagging [] 0 0).slotUsable 0 = true ∧ (tagging [] 0 0).core.hand < 192 ∧ (tagging [] 0 0).core.tags = []) ∧
    (let s : State := { tagging [] 0 0 with ladders := { base.ladders with banks := [(15, 3)] } }
     (List.range 192).all (fun i => !s.slotUsable i) = true) ∧
    (((tagging [] 191 0x1200).core.word (.c, 1)).toNat < 192 ∧ (tagging [] 191 0x1200).slotUsable 191 = true ∧ ((tagging [] 191 0x1200).core.word (.c, 2)).toNat % 256 = 0 ∧
      192 ≤ ((tagging [] 192 0).core.word (.c, 1)).toNat ∧ ((tagging [] 191 0x1280).core.word (.c, 2)).toNat % 256 ≠ 0) ∧
    (((tagging [] 10 0).core.word (.c, 1)).toNat ≤ 10 ∧ 10 < ((tagging [] 11 0).core.word (.c, 1)).toNat ∧ base.rung 0 15 ≠ 3) ∧ base.core.carve = none ∧
    (base.cores.all (fun c => c.reads.isEmpty) = true ∧ (base.jobAt base.core.task.fn).isSome = true) ∧
    (let d : CarveDrain := { banks := [15], until_ := 0 }
     let s : State := { base with core := { base.core with carve := some d } }
     s.core.carve = some d ∧ d.until_ ≤ s.core.cycle ∧ ({ s.core with run := .idle } : Core).run ≠ .running ∧ d.banks.headD 0 + d.banks.length ≤ 16) := by
  decide +kernel

/-! Witnesses: engine queues -/

/-- c0 to c5 hold a command's words. -/
def commands (ws : List Nat) : State := ws.zipIdx.foldl (fun s p => holding s (.c, p.2) p.1) base
def wordsAt (s : State) (n k : Nat) : Nat := (nth 0 ((List.range n).map (fun k => s.core.word (cFile .c0, 0 + k))) k).toNat
def cq : CQ := ⟨.c0, 0, 0, 1, none⟩
def panTop : Nat := 2 ^ 63
/-- A copy from global memory to bank 0, whose descriptor (one run of one byte) stands at 0x100. -/
def aCopy : State := { commands [0x100000, panTop, 0x100] with pantry := [(0x100, 1)] }

/-- EngineCommandsEnter: every command with room in its queue, and a copy's descriptor. -/
theorem wit_EngineCommandsEnter : ([(Instr.qcopy cq, aCopy), (.qgath cq, commands [0x100000, panTop, 0, 0x40001]), (.qscat cq, commands [0x100000, panTop, 0, 0x40001]),
    (.qdec cq, commands [0x100000, 2 ^ 40 + 256 * 2 ^ 20, 1]), (.qput cq, commands [0x100000, 0x200000, 0x1000, 1]), (.qget cq, commands [0x100000, 0x200000, 0x1000, 1]),
    (.qputs cq, commands [0x100000, 0x200000, 0x1000, 1, 0x300000]), (.qputm cq, commands [0x100000, 0x200000, 0x1000, 1, 0x300000, 0x400000]),
    (.qcel cq, commands [0x100000, 0x1000, 0x200000, 0]), (.qcollContribute cq, commands [0x100000, 0x200000, 0x1000, 0, 1]),
    (.qcollDestination cq, commands [0x100000, panTop, 0x400001000, 0, 2 ^ 32 + 1])].map (fun p => match commandForm p.1 with
      | some (op, o, n) => p.1.wf && p.2.powered && p.2.core.queues.length == 4 && (List.range n).all (fun k => p.2.core.ready (cFile o.v, o.r.toNat + k)) &&
          decide ((p.2.core.queue op.home).entries.length < Config.queueEntries)
      | none => false)) = List.replicate 11 true ∧
    (aCopy.core.pantryOpen = true ∧ aCopy.pantryCode 0 0x100 64 = none ∧ aCopy.pantryCode 0 0x140 64 = none ∧ aCopy.defined 0 0x100 128 = true ∧
      (nestOf ((List.range 128).map (fun k => aCopy.pantryByte 0 (0x100 + k)))).isSome = true) ∧ base.core.free (.c, 0) = true := by decide +kernel
theorem wit_EngineCommandsEnter_words : aCopy.commandRight .copy (wordsAt aCopy 3) ∧
    (commands [0x100000, panTop, 0, 0x40001]).commandRight .gath (wordsAt (commands [0x100000, panTop, 0, 0x40001]) 4) ∧
    (commands [0x100000, 2 ^ 40 + 256 * 2 ^ 20, 1]).commandRight .dec (wordsAt (commands [0x100000, 2 ^ 40 + 256 * 2 ^ 20, 1]) 3) ∧
    (commands [0x100000, 0x200000, 0x1000, 1]).commandRight .put (wordsAt (commands [0x100000, 0x200000, 0x1000, 1]) 4) ∧
    (commands [0x100000, 0x200000, 0x1000, 1, 0x300000]).commandRight .puts (wordsAt (commands [0x100000, 0x200000, 0x1000, 1, 0x300000]) 5) ∧
    (commands [0x100000, 0x200000, 0x1000, 1, 0x300000, 0x400000]).commandRight .putm (wordsAt (commands [0x100000, 0x200000, 0x1000, 1, 0x300000, 0x400000]) 6) ∧
    (commands [0x100000, 0x1000, 0x200000, 0]).commandRight .cel (wordsAt (commands [0x100000, 0x1000, 0x200000, 0]) 4) := by
  refine ⟨?_, ?_, ?_, ?_, ?_, ?_, ?_⟩ <;> simp only [State.commandRight, moveRight, engineAt, pantryAt] <;> decide +kernel
def collA : State := commands [0x100000, 0x200000, 0x1000, 0, 1]
def collB : State := commands [0x100000, panTop, 0x400001000, 0, 2 ^ 32 + 1]
theorem wit_EngineCommandsEnter_coll : (collA.commandRight .collFrom (wordsAt collA 5) ∧ ¬ collA.core.arrivalBarred .collFrom (wordsAt collA 5)) ∧
    (collB.commandRight .collTo (wordsAt collB 5) ∧ ¬ collB.core.arrivalBarred .collTo (wordsAt collB 5)) := by
  have n : collB.fabric.devnum = none := by decide +kernel
  refine ⟨⟨?_, ?_⟩, ?_, ?_⟩
  · simp only [State.commandRight, State.collRight, engineAt, pantryAt, reduceCtorEq, false_implies]; decide +kernel
  · simp only [Core.arrivalBarred]; decide +kernel
  · simp only [State.commandRight, State.collRight, engineAt, pantryAt, n, reduceCtorEq, false_implies, implies_true, and_true]; decide +kernel
  · simp only [Core.arrivalBarred]; decide +kernel
/-- EngineCommandsEnter: words that break a rule (a length of 0), and a full queue. -/
theorem wit_EngineCommandsEnter_refused : ¬ (commands [0x100000, 0x200000, 0x1000, 0]).commandRight .put (wordsAt (commands [0x100000, 0x200000, 0x1000, 0]) 4) ∧
    Config.queueEntries ≤ ({ Queue.reset with entries := List.replicate Config.queueEntries Entry.blank }).entries.length := by
  simp only [State.commandRight, moveRight, engineAt, pantryAt]; decide +kernel

/-- q0 holds entries and may be stopped at one; c1 holds a word. -/
def queued (es : List Entry) (iss : Nat) (stop : Option Nat) (stopNum v : Nat) : State :=
  let s := holding base (.c, 1) v
  { s with core := { s.core with queues := [{ Queue.reset with entries := es, iss := iss, stop := stop, stopNum := stopNum }, Queue.reset, Queue.reset, Queue.reset] } }
def e0 : Entry := { Entry.blank with op := .copy }
def e1 : Entry := { Entry.blank with op := .copy, num := 1 }
/-- QueueControl: masks, the items of qstat, the actions of qirq, entries that stand, are complete, discarded or behind a stop, and ring bytes to give back. -/
theorem wit_QueueControl : (base.core.queues.length = 4 ∧ (∀ q, q < 4 → (base.core.queue q).entries.length < Config.queueEntries)) ∧
    ((queued [] 0 none 0 (2 ^ 64 - 1)).core.word (.c, 1)).toNat = 2 ^ 64 - 1 ∧ (queued [] 0 none 0 0).core.ready (.c, 1) = true ∧
    ((queued [e0] 1 none 0 0).core.queue 0).entries ≠ [] ∧ ((queued [e0] 1 (some 0x30) 0 0).core.queue 0).stop = some 0x30 ∧
    (let s := queued [] 1 none 0 5
     (s.core.word (.c, 1)).toNat ≠ 2 ^ 64 - 1 ∧ (s.core.queue 0).iss ≤ (s.core.word (.c, 1)).toNat % 2 ^ 32) ∧
    (let s := queued [] 1 none 0 (7 * 2 ^ 32)
     (s.core.word (.c, 1)).toNat ≠ 2 ^ 64 - 1 ∧ (s.core.word (.c, 1)).toNat % 2 ^ 32 < (s.core.queue 0).iss) ∧
    (let q := (queued [e1] 2 none 0 0).core.queue 0
     0 < q.iss ∧ q.discarded 0 = false ∧ q.entries.all (fun e => e.num != 0) = true ∧ q.discarded 1 = false ∧ q.entries.any (fun e => e.num == 1) = true ∧ q.stop = none) ∧
    (let q := (queued [e0, e1] 2 (some 0x30) 0 1).core.queue 0
     q.discarded 1 = false ∧ q.age q.stopNum ≤ q.age 1 ∧ q.stop = some 0x30) ∧
    (let q := (queued [e0, e1] 2 (some 0x30) 1 0).core.queue 0
     q.age 0 < q.age q.stopNum) ∧
    (let q : Queue := { Queue.reset with iss := 3, discLo := 1, discHi := 3, discCode := 0x30 }
     q.discarded 2 = true) ∧
    (let s := { holding base (.c, 1) 256 with core := { (holding base (.c, 1) 256).core with ring := { base := 0, size := 512, pi := 512, ci := 256 } } }
     (s.core.word (.c, 1)).toNat % 256 = 0 ∧ s.core.given = 0 ∧ (s.core.word (.c, 1)).toNat ≤ s.core.ring.pi - s.core.ring.ci ∧
       ¬ ({ s.core with defer := [.give 256] } : Core).given + (s.core.word (.c, 1)).toNat ≤ s.core.ring.pi - s.core.ring.ci) ∧
    ((queued [] 1 none 0 1).core.word (.c, 1)).toNat % 256 ≠ 0 := by decide +kernel

/-- A copy of 16 bytes between two banks is the only entry of q0. -/
def copying : State := queued [{ e0 with group := [BitVec.ofNat 64 panTop, BitVec.ofNat 64 (panTop + 0xC000), 0], nest := { run := 16, levels := [] } }] 1 none 0 0
def copyEntryOf : Entry := { e0 with group := [BitVec.ofNat 64 panTop, BitVec.ofNat 64 (panTop + 0xC000), 0], nest := { run := 16, levels := [] } }
/-- The check of 256 zero bytes, sixteen at a time. -/
theorem crc_zeros : (crc32c (List.replicate 256 0)).toNat = 0xB872B190 := by
  have h0 : (List.replicate 16 (0 : Byte)).foldl crcByte 0xFFFFFFFF#32 = 0xBD8F6515#32 := by decide +kernel
  have h1 : (List.replicate 16 (0 : Byte)).foldl crcByte 0xBD8F6515#32 = 0x756EC955#32 := by decide +kernel
  have h2 : (List.replicate 16 (0 : Byte)).foldl crcByte 0x756EC955#32 = 0xD773C546#32 := by decide +kernel
  have h3 : (List.replicate 16 (0 : Byte)).foldl crcByte 0xD773C546#32 = 0xFC371498#32 := by decide +kernel
  have h4 : (List.replicate 16 (0 : Byte)).foldl crcByte 0xFC371498#32 = 0xDFCA1DE3#32 := by decide +kernel
  have h5 : (List.replicate 16 (0 : Byte)).foldl crcByte 0xDFCA1DE3#32 = 0xAE0DFB54#32 := by decide +kernel
  have h6 : (List.replicate 16 (0 : Byte)).foldl crcByte 0xAE0DFB54#32 = 0x9706F904#32 := by decide +kernel
  have h7 : (List.replicate 16 (0 : Byte)).foldl crcByte 0x9706F904#32 = 0xF7D89B24#32 := by decide +kernel
  have h8 : (List.replicate 16 (0 : Byte)).foldl crcByte 0xF7D89B24#32 = 0x93E4DE9A#32 := by decide +kernel
  have h9 : (List.replicate 16 (0 : Byte)).foldl crcByte 0x93E4DE9A#32 = 0x1C545C65#32 := by decide +kernel
  have h10 : (List.replicate 16 (0 : Byte)).foldl crcByte 0x1C545C65#32 = 0x138DAB71#32 := by decide +kernel
  have h11 : (List.replicate 16 (0 : Byte)).foldl crcByte 0x138DAB71#32 = 0x8BCA87CF#32 := by decide +kernel
  have h12 : (List.replicate 16 (0 : Byte)).foldl crcByte 0x8BCA87CF#32 = 0xB27865B1#32 := by decide +kernel
  have h13 : (List.replicate 16 (0 : Byte)).foldl crcByte 0xB27865B1#32 = 0xB7050EE9#32 := by decide +kernel
  have h14 : (List.replicate 16 (0 : Byte)).foldl crcByte 0xB7050EE9#32 = 0x56CC8D06#32 := by decide +kernel
  have h15 : (List.replicate 16 (0 : Byte)).foldl crcByte 0x56CC8D06#32 = 0x478D4E6F#32 := by decide +kernel
  have e : List.replicate 256 (0 : Byte) = (List.replicate 16 (List.replicate 16 (0 : Byte))).flatten := by decide +kernel
  unfold crc32c
  rw [e, List.foldl_flatten]
  generalize List.replicate 16 (0 : Byte) = z at *
  simp only [List.replicate, List.foldl_cons, List.foldl_nil, h0, h1, h2, h3, h4, h5, h6, h7, h8, h9, h10, h11, h12, h13, h14, h15]
  decide
def decEntry : Entry := { Entry.blank with op := .dec, group := [0x100400, BitVec.ofNat 64 (2 ^ 40 + 256 * 2 ^ 20), 1], started := true, sent := true }
def decoding : State :=
  { base with
    core := { base.core with queues := [Queue.reset, Queue.reset, { Queue.reset with entries := [decEntry], iss := 1 }, Queue.reset], ring := { base := 0, size := 256, pi := 0, ci := 0 } },
    mem := memPut base.mem 0x400 (toBytes 4 0x43574231 ++ [0, 1, 0, 0] ++ toBytes 4 256 ++ toBytes 4 256 ++ toBytes 8 0 ++ toBytes 4 0xB872B190 ++ toBytes 4 0) }
def headGot : List Byte × State := okOf ([], base) (decoding.begun.readAt (.own 0 0) 0x100400 32)
def bodyGot : List Byte × State := okOf ([], base) (headGot.2.readAt (.own 0 0) 0x100420 256)
/-- QueueEntriesRun: nothing to start, a copy, entries that are done and are not, a block to decode. -/
theorem wit_QueueEntriesRun : base.core.startable 0 = [] ∧
    (copying.core.startable 0 = [copyEntryOf] ∧ (copying.core.queue 0).overlapped copyEntryOf = false ∧ copyEntryOf.op = .copy ∧ copyEntryOf.started = false ∧ copyEntryOf.elem = 0 ∧ copyEntryOf.nest.levels = [] ∧
      copying.core.upd = [] ∧ copying.core.queues.length = 4 ∧ copyEntryOf.loc 0 0 = .pan 0 0 ∧ copyEntryOf.loc 0 1 = .pan 0 0xC000 ∧ copyFmts copying { copyEntryOf with fmts := copying.formats } 0 = (0, 0) ∧
      copying.panCode 0 2 0 16 = none ∧ copying.panCode 0 2 0xC000 16 = none ∧ copying.defined 0 0 16 = true ∧ (∀ i, i < 16 → (copying.coreAt 0).carving (0xC000 + i) = false)) ∧
    ((copying.core.queue 0).entries.find? (fun x => x.num == 0) = some copyEntryOf ∧ copying.completable 0 copyEntryOf = false ∧
      copying.completable 0 { copyEntryOf with sent := true } = true ∧ ((ctl base 0x22 1).core.ctl 0x22).getLsbD 0 = true ∧ base.core.run ≠ .idle) ∧ base.core.decoding = none ∧ decoding.core.decoding = some decEntry := by decide +kernel
theorem wit_QueueEntriesRun_block : isOk (decoding.begun.readAt (.own 0 0) 0x100400 32) = true ∧ isOk (headGot.2.readAt (.own 0 0) 0x100420 256) = true ∧
    (match blockHead headGot.1 with
     | some h => h.stored && h.count == 256 && h.fmt == 0 && h.dcrc == 0xB872B190 && decide (bodyGot.1 = List.replicate 256 0) &&
         (decoding.panCode 0 (256 / 0xC000 + 2) 0 256).isNone
     | none => false) = true ∧ (∀ i, i < 256 → decoding.core.carving i = false) ∧
    decoding.cores.all (fun c => c.reads.isEmpty) = true ∧ copying.cores.all (fun c => c.reads.isEmpty) = true := by decide +kernel

/-! Witnesses: the fabric -/

/-- Device 5, in group 1 with device 6; the job's one mapping is pinned. -/
def onFabric : State := State.modJob { base with fabric := { base.fabric with devnum := some 5, groups := [{ num := 1, members := [5, 6], fn := 0 }] } } 0
  (fun j => { j with maps := [{ placeMap with pin := true }] })
/-- A packet from device 6 to device 5, before its length and checks. -/
def rawPacket (op addr aux : Nat) (pay : List Byte) : Packet :=
  { onFabric.newPacket op with
    dst := 5, src := 6, group := 1, tag := 9, addr := BitVec.ofNat 56 addr, aux := BitVec.ofNat 16 aux, payload := pay }
def packet (op addr aux : Nat) (pay : List Byte) : Packet := sealPacket (rawPacket op addr aux pay)
/-- The packet reaches the device, is well formed and its payload is good. -/
def taken (s : State) (op : Nat) (p : Packet) : Bool :=
  p.op.toNat == op && s.addressed p && p.hchk == headerCheck p && packetOk p && p.pchk == payloadCheck p.payload
def aPut : Packet := packet 1 0x100400 0 [1, 2, 3, 4]
def afterWrite (s : State) (p : Packet) : State := okOf base ((s.begun.noted p).writeAt (.remote 0) p.addr.toNat p.payload)
def celState (s : State) (p : Packet) (op : Nat) (pay : List Byte) : Bool :=
  match cellar (s.begun.noted p) (.remote 0) op p.aux.toNat p.addr.toNat pay with | .done _ _ => true | _ => false
/-- A packet is the next one of its connection. -/
def isNext (s : State) (p : Packet) : Bool :=
  let b := s.inboundOf p
  (decide (s.fabric.inbound = []) || decide (s.fabric.inbound = [b])) && b.seen.isEmpty && b.waiting.isEmpty && b.refused.isEmpty && p.seq.toNat == b.next % 2 ^ 16
theorem isNext_eq {s : State} {p : Packet} (h : isNext s p = true) : s.nextOf p := by
  simpa only [isNext, State.nextOf, Bool.and_eq_true, Bool.or_eq_true, decide_eq_true_eq, List.isEmpty_iff, beq_iff_eq, and_assoc] using h
/-- A session that both devices have opened. -/
def shared : Session := { aSession 0 [] [] with group := 1, opener := none, peers := [6] }
def sharing : State := { onFabric with sessions := [shared] }

/-- RequestsArePerformed: a packet of another operation, one for another device, a malformed one, duplicates; one of each kind that is taken. -/
theorem wit_RequestsArePerformed :
    (let p := packet 3 0x100400 8 []
     requestForm (.put p) = some (1, p) ∧ p.op.toNat ≠ 1 ∧ assignedOp p = true) ∧
    onFabric.addressed { aPut with dst := 6 } = false ∧
    (let p := sealPacket { rawPacket 1 0x100400 0 [1] with rsv2 := 1 }
     onFabric.addressed p = true ∧ p.hchk = headerCheck p ∧ p.op.toNat = 1 ∧ packetOk p = false) ∧
    (let p := packet 0x30 0x100400 0 []
     onFabric.addressed p = true ∧ p.hchk = headerCheck p ∧ assignedOp p = false ∧ packetOk p = false) ∧
    (let p : Packet := { aPut with payload := [1, 2, 3, 5] }
     let q : Packet := { aPut with hchk := aPut.hchk + 1 }
     onFabric.addressed p && packetOk p && p.pchk != payloadCheck p.payload && onFabric.addressed q && packetOk q && q.hchk != headerCheck q &&
       q.op.toNat == 1 && !packetOk { q with rsv2 := 1 } && { q with rsv2 := 1 }.hchk != headerCheck { q with rsv2 := 1 }) = true ∧
    (let s := onFabric.noted aPut
     taken s 1 aPut = true ∧ (s.inboundOf aPut).arrived 0 = true ∧ (s.inboundOf aPut).waiting = [] ∧ (s.inboundOf aPut).refused = [] ∧ s.fabric.kept = []) ∧
    (taken onFabric 1 aPut = true ∧ onFabric.fabric.inbound = [] ∧ aPut.seq = 0 ∧ onFabric.fabric.groups.find? (fun g => g.num == 1) = some { num := 1, members := [5, 6], fn := 0 } ∧
      (onFabric.jobAt 0).isSome = true) := by decide +kernel
theorem wit_RequestsArePerformed_writes :
    isNext onFabric aPut = true ∧ isOk ((onFabric.begun.noted aPut).writeAt (.remote 0) 0x100400 aPut.payload) = true ∧
    (let p := packet 5 0x100400 0 [1]
     taken onFabric 5 p = true ∧ isOk ((onFabric.begun.noted p).writeAt (.remote 0) 0x100400 p.payload) = true) ∧
    (let p := packet 2 0x100400 0 []
     taken onFabric 2 p = true ∧ isNext onFabric p = true ∧ (onFabric.begun.noted p).signalData (onFabric.inboundOf p).next p = some [] ∧
       celState onFabric p 0x16 (toBytes 8 1) = true) ∧
    (let p := sealPacket { rawPacket 2 0x100400 1 [] with seq := 1 }
     let x : DataPart := { src := 6, lane := 0, group := 1, tag := 9, mcast := false, place := 2 ^ 16, addr := 0x100500, len := 4, refused := none }
     let s (c : Option Nat) : State := { onFabric with fabric := { onFabric.fabric with
       inbound := [{ onFabric.inboundOf p with next := 2 ^ 16 + 1 }], parts := [{ x with refused := c }] } }
     taken (s none) 2 p = true ∧ isNext (s none) p = true ∧ ((s none).inboundOf p).next = 2 ^ 16 + 1 ∧ ((s none).fabric.parts.filter (fun x => x.of p && !x.mcast)) = [x] ∧
       p.aux.toNat = 1 ∧ isCommand [x] = true ∧ ((s none).begun.noted p).signalData (2 ^ 16 + 1) p = some [x] ∧ celState (s none) { p with aux := 0 } 0x16 (toBytes 8 1) = true ∧
       ((s (some 3)).begun.noted p).signalData (2 ^ 16 + 1) p = some [{ x with refused := some 3 }] ∧
       (State.noted { s none with fabric := { (s none).fabric with parts := [] } } p).signalData (2 ^ 16 + 1) p = none) ∧
    (let p := packet 3 0x100400 256 []
     taken onFabric 3 p = true ∧ isOk ((onFabric.begun.noted p).readAt (.remote 0) 0x100400 256) = true) ∧
    (let p := packet 0x10 0x100400 0x10 (toBytes 8 3)
     taken onFabric 0x10 p = true ∧ celState onFabric p 0x10 p.payload = true) ∧
    (let p := packet 0x16 0x100400 0 (toBytes 8 3)
     taken onFabric 0x16 p = true ∧ celState onFabric p 0x16 p.payload = true) := by decide +kernel
theorem wit_RequestsArePerformed_others :
    (let p := sealPacket { rawPacket 0x20 0x140000000000 0 [1, 2] with phys := 1 }
     let s : State := { onFabric with fabric := { onFabric.fabric with grants := [{ dev := 6, base := 0x140000000000, len := 2 }] } }
     taken s 0x20 p = true ∧ s.ckptStands p.addr.toNat 2 = true ∧ (s.fabric.grants.any (fun g => g.dev == p.src.toNat && decide (g.base ≤ p.addr.toNat) && decide (p.addr.toNat + 2 ≤ g.base + g.len))) = true ∧ p.phys = 1) ∧
    (let p := packet 0x29 0 7 []
     taken sharing 0x29 p = true ∧ sharing.messageSession p = some shared ∧ (sharing.fnAt 0).st ≠ 6 ∧ sharing.mayTake shared.uid p = true ∧ sharing.perhapsNinth p = false ∧ isNext sharing p = true) ∧
    (let r := okOf ([], base) (onFabric.readAt (.remote 0) 0x100400 8)
     isOk (onFabric.readAt (.remote 0) 0x100400 8) = true ∧
     isOk (r.2.writeAt (.remote 0) 0x100400 (toBytes 8 (atomicValue 8 64 (ofBytes r.1) 5))) = true ∧
     isOk (r.2.writeAt (.remote 0) 0x100400 (toBytes 8 ((ofBytes r.1 + 5) % 2 ^ 64))) = true) := by decide +kernel

/-- Entry 0 of q3, a get of four bytes into bank 0, and its request on the way. -/
def getEntry (op : QOp) (key tag : Option Nat) : Entry :=
  { Entry.blank with op := op, group := [0x100400, 0x200000, BitVec.ofNat 64 (6 * 2 ^ 0), 4], started := true, sent := true, ptag := 9, key := key, tag := tag }
def request (op : Nat) (response : Bool) (resends : Nat) : Unacked :=
  { conn := { mcast := false, peer := 6, lane := 0 }, pkt := sealPacket { onFabric.newPacket op with dst := 6, src := 5, group := 1, tag := 9, addr := 0x200000, aux := 4 },
    origin := .queue 0 1 0, resends := resends, response := response, members := [], loc := 0, job := none }
def awaiting (e : Entry) (u : Unacked) : State :=
  { onFabric with
    core := { onFabric.core with queues := [Queue.reset, Queue.reset, Queue.reset, { Queue.reset with entries := [e], iss := 1 }] }, fabric := { onFabric.fabric with unacked := [u] } }
def putWaits : State := awaiting (getEntry .put none none) (request 1 false 3)
def getWaits : State := awaiting (getEntry .get none none) (request 3 true 3)
def celEntry : Entry := { getEntry .cel (some (regKey 3 1)) (some 2) with group := [0x200000, BitVec.ofNat 64 (0x10 * 2 ^ 13 + 6), 0, 0] }
def celWaits : State := awaiting celEntry (request 0x10 true 0)

/-- AnswersAndTimers: an ACK of a response, of nothing, of a put; NACKs of nothing and of a put with each code. -/
theorem wit_AnswersAndTimers_acks :
    (let p := packet 6 0 1 []
     taken onFabric 6 p = true ∧ p.aux = 1) ∧
    (let p := packet 6 0 0 []
     taken onFabric 6 p = true ∧ p.aux = 0 ∧ onFabric.unackedFor p = none ∧ taken putWaits 6 p = true ∧ putWaits.unackedFor p = some (request 1 false 3)) ∧
    (let u := request 1 false 3
     u.origin = .queue 0 1 0 ∧ u.conn.mcast = false ∧ u.response = false) ∧
    ([3, 4, 5].all (fun code => let p := packet 7 0 code []
      taken putWaits 7 p && (onFabric.unackedFor p).isNone && putWaits.unackedFor p == some (request 1 false 3))) = true ∧
    (putWaits.core.run ≠ .idle ∧ putWaits.core.task.num = 1 ∧ putWaits.core.id = 0 ∧
      (putWaits.core.queue 3).entries.find? (fun e => e.num == 0) = some (getEntry .put none none) ∧ (getEntry .put none none).op ≠ .putm) := by decide +kernel
theorem wit_AnswersAndTimers_responses :
    (let p := packet 4 0 0 [1, 2, 3, 4]
     let v : State := State.dropUnacked (getWaits.begun.emit (getWaits.replyTo p 0x06 1 [])) (request 3 true 3)
     taken getWaits 4 p = true ∧ getWaits.unackedFor p = some (request 3 true 3) ∧ (request 3 true 3).pkt.op = 0x03 ∧ taken onFabric 4 p = true ∧ onFabric.unackedFor p = none ∧
     (getWaits.core.queue 3).entries.find? (fun e => e.num == 0) = some (getEntry .get none none) ∧
     isOk (v.locWrite (getWaits.core.entryFault 3 (getEntry .get none none) 0x30) ((getEntry .get none none).elemOf (request 3 true 3).pkt)
       (((getEntry .get none none).loc getWaits.core.cluster 0).shift 0) p.payload) = true) ∧
    (let p := packet 0x18 0 0 (toBytes 8 77)
     taken celWaits 0x18 p = true ∧ celWaits.unackedFor p = some (request 0x10 true 0) ∧ (request 0x10 true 0).pkt.op ≠ 0x03 ∧ celEntry.key = some (regKey 3 1) ∧
     celEntry.tag = some 2 ∧ nth 0 celEntry.group 3 = 0 ∧ (celWaits.core.queue 3).entries.find? (fun e => e.num == 0) = some celEntry ∧
     taken onFabric 0x18 p = true ∧ onFabric.unackedFor p = none) := by decide +kernel
/-- AnswersAndTimers: a contribution of one run, timers of packets and responses before and after the eighth resend, a port, a kept reduction. -/
theorem wit_AnswersAndTimers_timers :
    (let p := packet 8 0x100400 0x2 [0, 0, 0x80, 0x3F]
     taken onFabric 8 p = true ∧ onFabric.fabric.reds = [] ∧ onFabric.fabric.groups.any (fun g => g.num == 1) = true) ∧
    (let c : Conn := { mcast := false, peer := 6, lane := 0 }
     let found (s : State) : Option Unacked := s.fabric.unacked.find? (fun u => u.conn == c && u.pkt.seq.toNat == 0)
     found onFabric = none ∧ found (awaiting celEntry (request 1 false 7)) = some (request 1 false 7) ∧ (request 1 false 7).resends < 8 ∧
     found (awaiting celEntry (request 1 false 8)) = some (request 1 false 8) ∧ 8 ≤ (request 1 false 8).resends ∧
     onFabric.fabric.unacked.all (fun u => u.conn != c) = true ∧ c.lane ≠ 7) ∧
    (let u : Unacked := { request 1 false 8 with origin := .queue 9 1 0, job := some (0, placeJob.rootTask) }
     let s := awaiting celEntry u
     s.fabric.unacked = [u] ∧ u.conn = { mcast := false, peer := 6, lane := 0 } ∧ (s.coreAt 9).run = .idle ∧ (s.jobOf u).isSome = true) ∧
    ([7, 8].all (fun n => let k : Kept := { src := 6, lane := 0, seq := 3, pkt := aPut, resends := n }
      let s : State := { onFabric with fabric := { onFabric.fabric with kept := [k] } }
      s.fabric.kept.find? (fun k => k.src == 6 && k.lane == 0 && k.seq == 3) == some k)) = true ∧
    base.service.ports.length = 12 ∧
    (let r : Reduction := { group := 1, addr := 0x100400, span := 0, op := 0, mode := 1, runs := [], bad := false, late := false, entry := none }
     let s : State := { onFabric with fabric := { onFabric.fabric with reds := [r] } }
     s.fabric.reds[0]? = some r ∧ r.gone = false ∧ r.bad = false ∧ { r with bad := true }.bad = true ∧ s.fabric.reds[1]? = none) := by decide +kernel
/-- AnswersAndTimers: a reduction that runs out of time before every run has come, with its entry, and one that was discarded; a multicast packet with two members to answer. -/
theorem wit_AnswersAndTimers_groups :
    (let e : Entry := { getEntry .collFrom none none with group := [0x100000, 0x200000, 0x1000, 0, 1] }
     let r : Reduction := { group := 1, addr := 0x100400, span := 4, op := 0, mode := 1, runs := [], bad := false, late := false, entry := some (0, 0) }
     let s : State := { awaiting e (request 1 false 0) with fabric := { onFabric.fabric with reds := [r, { r with entry := none, span := 8, bad := true }] } }
     s.core.id = 0 ∧ (s.core.queue 3).entries.find? (fun x => x.num == 0) = some e ∧ { r with bad := true }.bad = true ∧ redResults (collOf e.group) r = none ∧
       r.gone = false ∧ { r with entry := none, span := 8, bad := true }.gone = true) ∧
    (let u : Unacked := { request 5 false 0 with conn := { mcast := true, peer := 1, lane := 0 }, members := [6, 7] }
     let s := awaiting (getEntry .putm none none) u
     let p := packet 6 0 0 []
     taken s 6 p && p.aux == 0 && s.unackedFor p == some u && u.conn.mcast) = true ∧
    (onFabric.fabric.mover = none ∧ onFabric.fabric.backlog = [] ∧ celEntry.clean = false ∧ (celWaits.core.queue 3).stop = none) := by decide +kernel

/-- WavesAndRefills: a session that may start waves, one of no group that may not, none. -/
theorem wit_WavesAndRefills : base.sessionAt 4 = none ∧ (let s := attached (aSession 0 [] [])
      s.sessionAt 4 = some (aSession 0 [] []) ∧ s.mayWave (aSession 0 [] []) = false) ∧
    (sharing.sessionAt 4 = some shared ∧ shared.uid = 4 ∧ sharing.mayWave shared = true ∧ 2 ≤ (sharing.sessionMembers shared).length) ∧ (∀ d, d < 4 → sharing.onChip d + shared.recs.length < Config.sliceRecords) := by decide +kernel

/-! Witnesses: the host -/

/-- Function 0 in a state, with something in its mailbox. -/
def inState (st : Nat) : State := base.modFn 0 (fun f => { f with st := st })
def mailed (bs : List Byte) (st : Nat) : State :=
  State.modFn { onFabric with dist := onFabric.dist } 0 (fun f => { f with st := st, monitor := { f.monitor with payload := memPut [] 0 bs } })
/-- HostControl: states of a function, the resources behind the window, open and closed. -/
theorem wit_HostControl : base.fns.length = 9 ∧ (List.range 7).all (fun k => ((inState k).fnAt 0).st == k) = true ∧ (atU base).core.run = .running ∧ base.core.task.fn = 0 ∧
    base.core.preempt = 0 ∧
    (let x := base.fnAt 0
     x.winbase / 2 ^ x.barLog * 2 ^ x.barLog + 8 = 8 ∧ 8 + 4 ≤ 2 ^ x.barLog ∧ x.owns 8 4 = true ∧ overlaps 8 4 0x140000000000 0x40000000000 = false ∧
     ¬ 2 ^ x.barLog + 4 ≤ 2 ^ x.barLog) ∧ base.ladders.held = [] ∧ base.ladders.errataHeld = [] ∧ base.unreadSlots 0 = [] ∧
    State.unreadSlots { base with mem := memPut base.mem 0x9000 [1] } 0 = [0x9100] ∧ overlaps 0x9100 64 0x9108 4 = true ∧
    (base.fnAt 0).owns 0x9108 4 = true := by decide +kernel

def mailBytes (s : State) (n : Nat) : List Byte := (s.fnAt 0).monitor.input n
/-- MailboxCommands: a command in a busy mailbox, one with too short an input; devnum on a quiet device, gdissolve of a group, ckptauth of a range. -/
theorem wit_MailboxCommands :
    (let s := base.working 0 false 0 []
     mailForm (.devnum 0 2) = some (0, false, 2, 2) ∧ ((s.fnAt 0).box false).busy = true ∧ ((base.fnAt 0).box false).busy = false ∧ 1 < 2) ∧
    (let s := State.reset.modFn 0 (fun f => { f with monitor := { f.monitor with payload := memPut [] 0 [5, 0] } })
     fieldAt (mailBytes s 2) 0 2 = 5 ∧ s.fns.all (fun x => x.st == 0) = true ∧ s.fabric.devnum = none) ∧
    (let s := mailed [1, 0] 2
     fieldAt (mailBytes s 2) 0 2 = 1 ∧ (∃ x ∈ s.fabric.groups, x.num = 1 ∧ x.fn = 0) ∧ s.fabric.devnum.isSome = true) ∧
    (let s := mailed (toBytes 2 6 ++ [0, 0] ++ toBytes 4 1 ++ toBytes 8 0x140000000000 ++ toBytes 8 4096) 2
     let bs := mailBytes s 24
     fieldAt bs 0 2 = 6 ∧ fieldAt bs 4 4 = 1 ∧ fieldAt bs 8 8 = 0x140000000000 ∧ fieldAt bs 16 8 = 4096 ∧ s.ckptStands 0x140000000000 4096 = true) ∧
    (base.anyJob = true ∧ State.reset.anyJob = false ∧ ((State.reset.fnAt 0).box true).busy = false) := by decide +kernel
/-- MailboxCommands: assign of two clusters to an idle function 1. -/
theorem wit_MailboxCommands_assign :
    (let s := mailed (toBytes 4 1 ++ toBytes 4 3 ++ toBytes 8 0x10000 ++ toBytes 8 0x10000 ++ toBytes 16 0) 2
     let bs := mailBytes s 40
     let vf := fieldAt bs 0 4
     let mask : BitVec 32 := BitVec.ofNat 32 (fieldAt bs 4 4)
     let share := [(fieldAt bs 8 8, fieldAt bs 16 8), (fieldAt bs 24 8, fieldAt bs 32 8)].filter (fun r => r.2 != 0)
     vf = 1 ∧ (s.fnAt vf).st = 0 ∧ share = [(0x10000, 0x10000)] ∧ (List.range 9).all (fun m => m == 0 || m == vf || ((s.fnAt m).clusters &&& mask == 0 && (s.fnAt m).share == [])) = true ∧
     (∀ r ∈ share, inMemory r.1 r.2 = true)) := by decide +kernel
/-- MailboxCommands: gform of a second group, ckptsend of a suspended function. -/
theorem wit_MailboxCommands_groups :
    (let s : State := { mailed (toBytes 2 2 ++ toBytes 2 2 ++ toBytes 4 0 ++ toBytes 8 0x800) 2 with mem := memPut base.mem 0x800 [5, 0, 6, 0] }
     let bs := mailBytes s 16
     let r := s.begun.larderRead 0x800 4
     let ms := (List.range 2).map (fun i => fieldAt r.1 (2 * i) 2)
     fieldAt bs 0 2 = 2 ∧ fieldAt bs 2 2 = 2 ∧ fieldAt bs 4 4 = 0 ∧ fieldAt bs 8 8 = 0x800 ∧ (s.fnAt 0).st = 2 ∧ s.fabric.devnum = some 5 ∧ (s.fnAt 0).owns 0x800 4 = true ∧
     r.2.fabric = s.fabric ∧ (∀ x ∈ s.fabric.closed, x.lane ≠ 7) ∧ (∀ x ∈ s.fabric.groups, x.num ≠ 2) ∧ s.fabric.groups.length < 64 ∧ ms = [5, 6]) ∧
    (let s := mailed (toBytes 2 0 ++ toBytes 2 6 ++ toBytes 4 0 ++ toBytes 8 0) 6
     let bs := mailBytes s 16
     fieldAt bs 0 2 = 0 ∧ fieldAt bs 2 2 = 6 ∧ (s.fnAt 0).st = 6 ∧ (s.jobAt 0).isSome = true ∧ s.fabric.closed.contains { mcast := false, peer := 6, lane := 6 } = false) ∧
    (∀ t ∈ base.service.temps, t < 100000) ∧
    (let s := State.modFn base 0 (fun f => { f with service := { f.service with payload := memPut [] 0 [8, 0, 0, 0] } })
     fieldAt ((s.fnAt 0).service.input 4) 0 4 = 8) ∧
    (let s := base.working 1 true 0 [1]
     ((s.fnAt 1).box true).busy = true ∧ s.fabric.mover = none ∧ (s.fnAt 1).msixMask.contains 2 = true ∧ ((base.fnAt 1).box true).busy = false) := by decide +kernel

/-! Witnesses: jobs, heat, handlers -/

/-- An image at 0x10000 of function 1, which has cluster 0: header, plan with one mapping and one phase, and a kernel of 0x100 bytes. -/
def imageHead : List Byte :=
  toBytes 4 0x4A424947 ++ toBytes 2 1 ++ [0, 0] ++ toBytes 8 0x400000 ++ toBytes 8 0x100000 ++ toBytes 8 0x1000 ++ toBytes 8 0x8000 ++ toBytes 8 0xA000 ++
  toBytes 8 0xC000 ++ toBytes 8 0 ++ toBytes 8 0 ++ toBytes 8 0xB000 ++ toBytes 8 0x10000 ++ List.replicate 40 0
def planHead : List Byte :=
  toBytes 4 0x504C414E ++ toBytes 2 1 ++ toBytes 2 1 ++ toBytes 4 1 ++ toBytes 4 0 ++ toBytes 8 0x40 ++ toBytes 8 0x60 ++ List.replicate 32 0 ++
  (toBytes 8 0x100000 ++ toBytes 8 0x10000 ++ toBytes 8 0x400000 ++ toBytes 8 0xC) ++ (toBytes 4 0 ++ toBytes 4 0 ++ toBytes 8 0x100 ++ List.replicate 16 0)
def imaged : State :=
  { State.reset with
    mem := memPut (memPut (memPut [] 0x10000 imageHead) 0x11000 planHead) 0x18000 kernelHeader,
    fns := State.reset.fns.set 1 { Fn.reset 1 with st := 1, clusters := 1, latched := 0x10000, share := [(0, 0xC000000000)] } }
/-- JobsAndHeat: a function without a job to validate; an image with a fault (none at all); a good image. -/
theorem wit_JobsAndHeat : ((imaged.fnAt 0).st ≠ 1 ∧ (imaged.fnAt 1).st = 1 ∧ (∀ p ∈ imaged.parked, p.2.id = p.1)) ∧
    (match (State.begun { imaged with mem := [] }).validate 1 with | .error 1 => true | _ => false) = true ∧
    (match (State.begun { imaged with mem := memPut [] 0x10000 imageHead }).validate 1 with | .error 7 => true | _ => false) = true := by decide +kernel
/-- An image without a fault, with a core for its root task, and with none (cluster 0 is busy throughout); a pass on a memory channel. -/
theorem wit_JobsAndHeat_good : (match imaged.begun.validate 1 with
      | .ok (_, k, _, _) => imaged.rootCores 1 k.caps != [] && (State.rootCores { imaged with dist := { imaged.dist with busy := List.range 8 } } 1 k.caps).isEmpty
      | _ => false) = true ∧ imaged.idlePass = false ∧
    (State.idlePass { imaged with ladders := { imaged.ladders with passes := [.channel 3] } }) = true := by decide +kernel
theorem wit_JobsAndHeat_heat : base.service.temps.length = 4 ∧ (base.service.hot = [] ∧ (90000 < 100000 ∧ 100000 ≤ 104999 ∧ 105000 ≤ 114999) ∧ ([0, 2] : List Nat).filter (fun y => y != 2) = [0]) ∧ base.fns.length = 9 ∧
    (base.jobAt 0).isSome = true ∧ base.fns.any (fun x => x.job.isSome) = true ∧
    (let r : TuneRes := .bank 0 3
     let l : Ladders := { base.ladders with passes := [r] }
     r ∈ l.passes ∧ TuneRes.bank 0 4 ∉ l.passes ∧ l.held = []) ∧
    (∀ r ∈ [TuneRes.engine 3, .rotation 3, .drain 3, .channel 5], r ∈ ({ base.ladders with passes := [r] } : Ladders).passes) ∧
    State.reset.fns.any (fun x => x.job.isSome) = false ∧ State.reset.ladders.held = [] := by decide +kernel

/-- Event 1 is pending and enabled, and UVEC names a word. -/
def eventful (w : Nat) : State :=
  let s := ctl (ctl (ctl base 0x21 0x100400) 0x22 2) 0x23 2
  { s with mem := memPut s.mem 0x400 (toBytes 4 w) }
def aFault : FaultInfo := { base.core.faultOf 0x21 with age := 3 }
def anEmul : EmulInfo := { syl := 0, ext := 0, pc := 0x100000, cyc := 0, missing := 1, bitmap := 0, z := 0, n := 1, outs := [], ptaint := 0, pdm := false }
/-- HandlersAreEntered: an event due, with a handler and without; a deferred fault; an emulated operation. -/
theorem wit_HandlersAreEntered : (base.core.eventDue = false ∧ (eventful 0x48000000).core.pendingEvent = some 1 ∧ (eventful 0x48000000).core.eventDue = true) ∧
    (eventful 0x48000000).headerAt 0x100400 = some true ∧ (eventful 0).headerAt 0x100400 ≠ some true ∧ (eventful 0).core.eventDue = true ∧ base.core.dueFault = none ∧
    (let s : State := { base with core := { base.core with deferred := [{ aFault with held := true, age := 0 }, { aFault with age := 4 }, aFault] } }
     s.core.dueFault = some aFault) ∧ base.core.trapDue = false ∧
    (let s : State := { base with core := { base.core with emul := some anEmul } }
     s.core.emul = some anEmul ∧ s.core.inHandler = false) := by decide +kernel

/-- An mma.i4 on g0 and g1 that the library is to emulate. -/
def emulating : State :=
  let s := operands 8 8 (descWord 8 1 32 256 128 0) (descWord 8 1 32 256 128 0xC000)
  { s with core := { s.core with serving := some { anEmul with syl := 0xA0500004 } } }
theorem wit_HandlersAreEntered_library : emulating.core.awaitsResults = false ∧ emulating.cores.all (fun c => c.reads.isEmpty) = true ∧
    ({ emulating.core with tflights := [{ z := 5, row := none, v := 0, ready := 9 }] } : Core).awaitsResults = true ∧ emulating.core.rets.length < 16 ∧
    (match (emulatedResult (.mmaI4 ⟨0, 0, 1, 0⟩)).run { emulating with core := { emulating.core with serving := none, cur := { slot := 0, syl := 0, ext := 0 } } } with
     | .ok (_, u) => u.core.tflights.isEmpty
     | .error _ => false) = true := by decide +kernel
theorem wit_HandlersAreEntered_word : decodeOp .m 0xA0500004 none = .ok (.mmaI4 ⟨0, 0, 1, 0⟩) ∧ decodeOp .m 0xA0000004 none = .ok (.mmaBf16 ⟨0, 0, 1, 0⟩) := ⟨rfl, rfl⟩

/-! Witness: a full save (its six writes succeed because every page of the save area is in the TLB, writable) -/

/-- A 1 GiB page at 0x40000000, mapped to the same physical address. -/
def bigPage : Mapping := { va := 2 ^ 30, pa := 2 ^ 30, len := 2 ^ 30, page := 2, w := true, x := false, pin := false }
/-- A task to be saved, its context area at the start of that page. -/
@[irreducible] def saving : State :=
  let s := State.modJob (ctl (ctl base 0x33 0x40000000) 0x30 0x40400000) 0 (fun j => { j with maps := [placeMap, bigPage] })
  { s with core := { s.core with savePend := true, tlb := [{ fn := 0, m := bigPage }] } }
/-- The task's state once the save has begun at its pc. -/
@[irreducible] def begunSave : State := { saving.begun with core := { saving.begun.core with rpc := saving.core.pc } }
/-- The same, with other bytes in the Larder. -/
def savingWith (l : SMap (Option Byte)) : State := { begunSave with larder := l }

theorem saving_facts : begunSave.core.upd = [] ∧ begunSave.core.l1 = [] ∧ begunSave.reduce = [] ∧ begunSave.parked = [] ∧ begunSave.core.id = 0 ∧
    begunSave.core.tlb = [{ fn := 0, m := bigPage }] ∧ (begunSave.core.ctl 0x27).getLsbD 0 = false := by decide +kernel
theorem saving_settle (l : SMap (Option Byte)) (n : Nat) : (savingWith l).settle n = savingWith l := by
  obtain ⟨hu, -, hr, hp, hi, -, -⟩ := saving_facts
  simp only [State.settle, State.recall, State.cores, State.mergeOf, State.resolve, State.coreAt, savingWith, hu, hr, hp, hi, List.map_nil, List.foldl_cons, List.foldl_nil,
    List.find?_nil, if_true]
theorem saving_watch (l : SMap (Option Byte)) (n : Nat) : (savingWith l).hitWatch n = savingWith l := by
  obtain ⟨-, -, -, hp, -, -, hw⟩ := saving_facts
  simp only [State.hitWatch, State.cores, savingWith, hp, hw, List.map_nil, List.foldl_cons, List.foldl_nil, Bool.and_false, Bool.false_and, Bool.false_eq_true, if_false]
theorem foldl_same {α β : Type} (f : β → α → β) (b : β) (h : ∀ a, f b a = b) (l : List α) : l.foldl f b = b := by
  induction l with
  | nil => rfl
  | cons a r ih => simp [h, ih]
theorem saving_spills {l : SMap (Option Byte)} : (savingWith l).sessions.all (fun x => x.recs.all (fun r => !r.spilled)) = true := by
  have h : begunSave.sessions = [] := by decide +kernel
  simp [savingWith, h]
theorem saving_store (l : SMap (Option Byte)) (pa : Nat) (bs : List Byte) : ∃ l', (savingWith l).ownStore pa bs = savingWith l' := by
  have k (m : SMap (Option Byte)) : ({ savingWith m with core := (savingWith m).core.l1Store pa [] bs } : State) = savingWith m := by
    obtain ⟨-, h1, -⟩ := saving_facts
    have e : begunSave.core.l1Store pa [] bs = begunSave.core := by
      generalize begunSave.core = c at *
      cases c
      simp_all [Core.l1Store]
    simp [savingWith, e]
  have w : ∃ l', (savingWith l).larderWrite pa bs = savingWith l' := by
    unfold State.larderWrite
    split
    · exact ⟨l, rfl⟩
    · rw [foldl_same _ _ (saving_settle l)]
      show ∃ l', (linesOf pa bs.length).foldl State.hitWatch { (savingWith l).spoilSpills pa bs.length with
        larder := larderPut ((savingWith l).spoilSpills pa bs.length).larder pa bs } = savingWith l'
      rw [spoilSpills_of_none saving_spills]
      exact ⟨larderPut l pa bs, foldl_same _ _ (saving_watch _) _⟩
  obtain ⟨l', hw⟩ := w
  exact ⟨l', by simp only [State.ownStore, hw]; exact k l'⟩
theorem saving_xlate (l : SMap (Option Byte)) (va : Nat) (h : 2 ^ 30 ≤ va) (g : va < 2 ^ 31) : (savingWith l).xlate 0 0 va .write = .ok (va, savingWith l) := by
  obtain ⟨-, -, -, -, hi, ht, -⟩ := saving_facts
  have c : bigPage.covers va = true := by
    have a : va < 2 ^ 30 + 2 ^ 30 := by omega
    simp [Mapping.covers, bigPage]
    exact ⟨decide_eq_true h, decide_eq_true a⟩
  have u : (savingWith l).lookup 0 0 va = some (bigPage, savingWith l) := by
    simp only [State.lookup, State.coreAt, savingWith, hi, ht, if_true, List.find?_cons, c, beq_self_eq_true, Bool.and_self]
  have n : ¬ 2 ^ 56 ≤ va := by omega
  have e : 2 ^ 30 + (va - 2 ^ 30) = va := by omega
  simp only [State.xlate, n, if_false, u]
  simp [bigPage, Mapping.permits]
  omega
theorem saving_write (l : SMap (Option Byte)) (va : Nat) (bs : List Byte) (h : 2 ^ 30 ≤ va) (g : va + bs.length ≤ 2 ^ 31) (p : 0 < bs.length) :
    ∃ l', writeSelf (savingWith l) 0 0 va bs = .ok (savingWith l') := by
  obtain ⟨l', e⟩ := saving_store l va bs
  refine ⟨l', ?_⟩
  have x : va + bs.length - 1 = va + (bs.length - 1) := by omega
  simp only [writeSelf, writeWith, saving_xlate l va h (by omega), x, saving_xlate l (va + (bs.length - 1)) (by omega) (by omega), if_true, e]
theorem saving_pieces (n : Nat) : ∀ (l : SMap (Option Byte)) (va : Nat) (bs : List Byte), (bs = [] ∨ 2 ^ 30 ≤ va ∧ va + bs.length ≤ 2 ^ 31) →
    ∃ l', writePieces (savingWith l) 0 0 va bs n = .ok (savingWith l') := by
  induction n with
  | zero => exact fun l _ _ _ => ⟨l, rfl⟩
  | succ n ih =>
    intro l va bs h
    by_cases e : bs = []
    · exact ⟨l, by simp [writePieces, e]⟩
    · have p : 0 < bs.length := List.length_pos_iff.2 e
      obtain h | ⟨h, g⟩ := h
      · exact absurd h e
      · obtain ⟨l1, e1⟩ := saving_write l va (bs.take 256) h (by simp; omega) (by simp; omega)
        obtain ⟨l2, e2⟩ := ih l1 (va + 256) (bs.drop 256) (by
          by_cases z : bs.drop 256 = []
          · exact .inl z
          · have := List.length_pos_iff.2 z
            simp only [List.length_drop] at *
            omega)
        exact ⟨l2, by simp [writePieces, e, e1, e2]⟩
theorem saving_all (n : Nat) (ps : List (Nat × List Byte)) : ∀ l, (∀ p ∈ ps, p.2 = [] ∨ 2 ^ 30 ≤ p.1 ∧ p.1 + p.2.length ≤ 2 ^ 31) →
    ∃ l', ps.foldlM (fun (v : State) p => writePieces v 0 0 p.1 p.2 n) (savingWith l) = .ok (savingWith l') := by
  induction ps with
  | nil => exact fun l _ => ⟨l, rfl⟩
  | cons p r ih =>
    intro l h
    obtain ⟨l1, e1⟩ := saving_pieces n l p.1 p.2 (h p (by simp))
    obtain ⟨l2, e2⟩ := ih l1 (fun q hq => h q (by simp [hq]))
    refine ⟨l2, ?_⟩
    rw [List.foldlM_cons, e1]
    exact e2
theorem length_flatMap_const {α : Type} (f : α → List Byte) (k : Nat) (h : ∀ a, (f a).length = k) (l : List α) : (l.flatMap f).length = l.length * k := by
  induction l with
  | nil => simp
  | cons a r ih => simp [h, ih, Nat.add_mul]; omega
theorem toBytes_len (n x : Nat) : (toBytes n x).length = n := by simp [toBytes]
theorem fileImage_len (c : Core) (f : File) (n : Nat) : (fileImage c f n).length = n * ((f.width + 7) / 8) + n * 2 := by
  simp only [fileImage, List.length_append, length_flatMap_const _ _ (fun _ => toBytes_len _ _), List.length_map, List.length_range]
theorem saveImage_len (c : Core) (h : c.queues.length = 4) (g : c.patBank.length = 2) : (saveImage c).length ≤ 0xFFC0 := by
  have w : ((List.range 0x100).filter crWritable).length ≤ 256 := by simpa using List.length_filter_le crWritable (List.range 0x100)
  simp only [saveImage, List.length_append, fileImage_len, toBytes_len, length_flatMap_const _ _ (fun _ => toBytes_len _ _), List.length_range, g]
  rw [length_flatMap_const _ 16 (fun q => by cases q.stop <;> simp [toBytes_len]), h]
  simp only [File.width]
  omega
theorem saving_places : (begunSave.core.ctl 0x33).toNat = 0x40000000 ∧ begunSave.core.frames = [] ∧ begunSave.core.rets = [] ∧
    begunSave.core.queues.length = 4 ∧ begunSave.core.patBank.length = 2 := by decide +kernel
theorem inPage {a : Nat} {bs : List Byte} (k : Nat) (h : bs.length ≤ k) (g : Nat.ble (2 ^ 30) a = true) (m : Nat.ble (a + k) (2 ^ 31) = true) :
    bs = [] ∨ 2 ^ 30 ≤ a ∧ a + bs.length ≤ 2 ^ 31 := by
  have := Nat.le_of_ble_eq_true g
  have := Nat.le_of_ble_eq_true m
  exact .inr ⟨by assumption, by omega⟩
theorem saving_pantry : begunSave.savedPantry.2 = begunSave ∧ begunSave.savedPantry.1.length = 0xC0000 := by
  have h : begunSave.core.carve = none ∧ begunSave.core.drains = [] ∧ begunSave.core.emul = none ∧ begunSave.core.serving = none ∧
    begunSave.core.steered = [] := by decide +kernel
  obtain ⟨-, -, -, hp, -⟩ := saving_facts
  have u (a : Nat) : begunSave.unsettled none begunSave.core.id a = false := by
    simp [State.unsettled, State.coreAt, State.cores, Core.carving, Core.drainsByte, Core.emulatesByte, h, hp]
  have e : begunSave.savedPantry =
      ((List.range Config.pantryBytes).map (fun i => begunSave.pantryByte begunSave.core.id (0 + i)), begunSave) := by
    simp only [State.savedPantry, State.pantryRead, State.pantryReadFor, u, List.any_eq_true, Bool.false_eq_true, and_false, exists_false, if_false]
  exact ⟨by rw [e], by rw [e, List.length_map, List.length_range]; rfl⟩
theorem saving_items (q : List Byte) (hq : q.length = 0xC0000) (p : Nat × List Byte)
    (hp : p ∈ [((begunSave.core.ctl 0x30).toNat + (begunSave.core.ctl 0x31).toNat, (List.map (blockRecord begunSave.core) [].reverse.flatten).flatten),
      ((begunSave.core.ctl 0x30).toNat + begunSave.core.task.atticSize - (begunSave.core.ctl 0x32).toNat - 80 * (retRecords []).length, (retRecords []).reverse.flatten),
      (0x40000000, contextHeader begunSave.core.rpc saving.core.preempt 2 0), (0x40000000 + 0x40, saveImage begunSave.core),
      (0x40000000 + 0x10000, (List.range 768).flatMap (fun z => toBytes 4096 (begunSave.core.tileAt z).toNat)),
      (0x40000000 + 0x310000, q)]) : p.2 = [] ∨ 2 ^ 30 ≤ p.1 ∧ p.1 + p.2.length ≤ 2 ^ 31 := by
  obtain ⟨-, -, -, hs, hb⟩ := saving_places
  simp only [List.mem_cons, List.not_mem_nil, or_false] at hp
  rcases hp with rfl | rfl | rfl | rfl | rfl | rfl
  · exact .inl rfl
  · exact .inl rfl
  · exact inPage 64 (by simp [contextHeader, toBytes_len]) rfl rfl
  · exact inPage 0xFFC0 (saveImage_len _ hs hb) rfl rfl
  · exact inPage 0x300000 (Nat.le_of_eq (by rw [length_flatMap_const _ 4096 (fun _ => toBytes_len _ _), List.length_range])) rfl rfl
  · have h : q.length ≤ 0xC0000 := by omega
    exact inPage (a := 0x40000000 + 0x310000) 0xC0000 h rfl rfl
theorem saving_writes : ∀ p ∈ begunSave.saveWrites saving.core.preempt 0, p.2 = [] ∨ 2 ^ 30 ≤ p.1 ∧ p.1 + p.2.length ≤ 2 ^ 31 := by
  obtain ⟨hc, hf, hr, -, -⟩ := saving_places
  intro p hp
  refine saving_items _ saving_pantry.2 p ?_
  simp only [State.saveWrites, hc, hf, hr] at hp
  exact hp
/-- PreemptionSteps: a full save whose writes all succeed, from a state with nothing else to merge or to divert to. -/
theorem saving_ready : saving.powered = true ∧ saving.core.upd = [] ∧ saving.core.inStub = false ∧ saving.core.handler = .main ∧ saving.core.preempt ≠ 2 ∧
    saving.core.saveFits = true ∧ saving.core.id = 0 ∧ saving.core.task.fn = 0 := by decide +kernel
theorem saving_kept : begunSave.core.preempt = saving.core.preempt ∧ begunSave.core.id = saving.core.id ∧
    (begunSave.jobAt begunSave.core.task.fn).map (fun j => j.cancelled) = some false := by decide +kernel
theorem wit_PreemptionSteps_save : ∃ l, begunSave.savedPantry.2 = begunSave ∧ (begunSave.saveWrites saving.core.preempt 0).foldlM (fun (v : State) p => writePieces v 0 0 p.1 p.2 20000) begunSave =
      .ok (savingWith l) ∧ (savingWith l).core.preempt = saving.core.preempt ∧ (savingWith l).core.id = saving.core.id ∧
      ((savingWith l).jobAt (savingWith l).core.task.fn).map (fun j => j.cancelled) = some false := by
  obtain ⟨l, e⟩ := saving_all 20000 _ begunSave.larder saving_writes
  exact ⟨l, saving_pantry.1, e, saving_kept⟩
/-- PreemptionSteps: an attic too small for what is to be spilled. -/
theorem wit_PreemptionSteps_full : ({ saving.core with task := { saving.core.task with atticSize := 0 }, rets := [0] } : Core).saveFits = false := by decide +kernel

/-- The SHA-512 of "abc" as the standard's own example gives it (log 120), its first byte lowest. -/
theorem test_sha512 : sha512 [0x61, 0x62, 0x63] =
    0x9FA44CA54FC99A2A0EE83C6423444D45BDEBFEA3233CBA36A8C14F272A9992219AD3554BE6EE9E0AA27EA9894EFAE612314120AE497341CCBA7A6193A135AFDD := by
  decide +kernel
/-- R120: of three writes to a register, the first of which has passed its bound, only the later two are left to be its value. -/
theorem test_overlapping_writes : (Core.apply { base.core with cycle := 10, flights := [⟨1, RegCell.zero, 5⟩, ⟨1, RegCell.zero, 20⟩] }
    (.reg 1 RegCell.zero 2)).flights.map (fun x => x.ready) = [20, 12] := by decide +kernel
/-- R222, R285: a trap is taken at the boundary after its bundle, as the kind with code 1. -/
theorem test_trap_kind : (Core.apply base.core (.swtrap 5)).deferred.map (fun f => (f.code, f.kind)) = [(0x40, 1)] := by decide +kernel
/-- R358: a qdec with J clear does not start while one before it has a block left. -/
theorem test_waiting_qdec : (let e : Entry := { Entry.blank with op := .dec, started := true, sent := true, group := [0, 0, 1] }
    ({ base.core with queues := [Queue.reset, Queue.reset, { Queue.reset with entries := [e, { e with num := 1, started := false, sent := false }] },
      Queue.reset] } : Core).startable 2) = [] := by decide +kernel

end Tests
end

section
/-!
Translation by the core in focus: what a lookup may change, which codes it may answer, and how an access of the sequencer faults on its address
(R12, R143, R162, R163, R416).
-/
namespace Sys2Proof.Machine

/-! TLBs -/

/-- A state with other translations held: the TLB of the core in focus and the L2 TLBs of the clusters (R162). -/
def State.withTlbs (s : State) (x : List TlbEntry) (l : List (Nat × TlbEntry)) : State := { s with core := { s.core with tlb := x }, l2 := l }

theorem State.withTlbs_same (s : State) : s.withTlbs s.core.tlb s.l2 = s := rfl

@[simp] theorem State.coreAt_focus (s : State) : s.coreAt s.core.id = s.core := by simp [State.coreAt]

@[simp] theorem State.modCore_focus (s : State) (g : Core → Core) : s.modCore s.core.id g = { s with core := g s.core } := by simp [State.modCore]

/-- A lookup for the core in focus changes TLBs only (R162). -/
theorem State.lookup_withTlbs {s t : State} {f va : Nat} {m : Mapping} (h : s.lookup s.core.id f va = some (m, t)) : ∃ x l, t = s.withTlbs x l := by
  simp only [State.lookup, State.coreAt_focus, State.modCore_focus] at h
  split at h
  case h_1 => cases h; exact ⟨_, _, s.withTlbs_same.symm⟩
  case h_2 =>
    split at h
    case h_1 => cases h; exact ⟨_, _, rfl⟩
    case h_2 =>
      split at h
      · cases h
      · cases h; exact ⟨_, _, rfl⟩

/-- A translation for the core in focus changes TLBs only (R162, R163). -/
theorem State.xlate_withTlbs {s t : State} {f va pa : Nat} {n : Need} (h : s.xlate s.core.id f va n = .ok (pa, t)) : ∃ x l, t = s.withTlbs x l := by
  simp only [State.xlate] at h
  split at h
  · cases h
  · split at h
    · cases h
    · rename_i m u e
      split at h
      · cases h; exact State.lookup_withTlbs e
      · cases h

/-- A translation fails with DATA_XLATE or DATA_PERM (R163). -/
theorem State.xlate_code {s : State} {c f va code : Nat} {n : Need} (h : s.xlate c f va n = .error code) : code = 0x11 ∨ code = 0x12 := by
  simp only [State.xlate] at h
  split at h
  · cases h; exact .inl rfl
  · split at h
    · cases h; exact .inl rfl
    · split at h <;> cases h
      exact .inr rfl

theorem State.translate_code {ns : List Need} {s : State} {va code : Nat} (h : s.translate va ns = .error code) : code = 0x11 ∨ code = 0x12 := by
  induction ns generalizing s with
  | nil => cases h
  | cons n r ih =>
    simp only [State.translate] at h
    split at h
    · rename_i e
      cases h
      exact State.xlate_code e
    · split at h
      · cases h
      · rename_i e
        cases h
        exact ih e

/-! A walk with nothing held in a TLB (R12, R88, R162) -/

section
variable {s : State} {f va : Nat} {n : Need}

theorem State.lookup_of_walk_none (t0 : s.core.tlb = []) (l0 : s.l2 = []) (w : s.walk f va = none) : s.lookup s.core.id f va = none := by
  simp [State.lookup, t0, l0, w]

theorem State.lookup_of_walk {p : Mapping} (t0 : s.core.tlb = []) (l0 : s.l2 = []) (w : s.walk f va = some p) :
    ∃ x l, s.lookup s.core.id f va = some (p, s.withTlbs x l) := by
  simp only [State.lookup, State.coreAt_focus, State.modCore_focus, t0, l0, w, List.find?_nil, List.filter_nil]
  exact ⟨_, _, rfl⟩

theorem State.xlate_of_high (h : 2 ^ 56 ≤ va) (c : Nat) : s.xlate c f va n = .error 0x11 := by simp only [State.xlate, if_pos h]

theorem State.xlate_of_walk_none (h : va < 2 ^ 56) (t0 : s.core.tlb = []) (l0 : s.l2 = []) (w : s.walk f va = none) :
    s.xlate s.core.id f va n = .error 0x11 := by
  simp only [State.xlate, if_neg (Nat.not_le.mpr h), State.lookup_of_walk_none t0 l0 w]

theorem State.xlate_of_walk {p : Mapping} (h : va < 2 ^ 56) (t0 : s.core.tlb = []) (l0 : s.l2 = []) (w : s.walk f va = some p) :
    ∃ x l, s.xlate s.core.id f va n = if p.permits n then .ok (p.pa + (va - p.va), s.withTlbs x l) else .error 0x12 := by
  obtain ⟨x, l, e⟩ := State.lookup_of_walk t0 l0 w
  exact ⟨x, l, by simp only [State.xlate, if_neg (Nat.not_le.mpr h), e]⟩

/-- No mapping of the job and of its window covers the address: the walk finds none. -/
theorem State.walk_of_uncovered {j : Job} (hj : s.jobAt f = some j)
    (h : (j.maps ++ windowMaps f (s.libraryOf f)).all (fun m => !m.covers va) = true) : s.walk f va = none := by
  have e : (j.maps ++ windowMaps f (s.libraryOf f)).find? (fun m => m.covers va) = none := by
    simpa [List.find?_eq_none, List.all_eq_true] using h
  simp only [State.walk, hj, e]

/-- The page of the first mapping that covers the address is found where its region stands, or where it is none of memory. -/
theorem State.walk_of_covered {j : Job} {m : Mapping} (hj : s.jobAt f = some j)
    (h : (j.maps ++ windowMaps f (s.libraryOf f)).find? (fun m => m.covers va) = some m) :
    s.walk f va = if 2 ^ 48 ≤ (m.pageAt va).pa || s.regionOk (m.pageAt va).pa then some (m.pageAt va) else none := by
  simp only [State.walk, hj, h]

end

/-- A page of a mapping in form keeps the mapping's distance between virtual and physical addresses (R88, R162). -/
theorem Mapping.pageAt_distance {m : Mapping} {va : Nat} (ok : m.formOk = true) (c : m.covers va = true) :
    (m.pageAt va).pa + (va - (m.pageAt va).va) = m.pa + (va - m.va) := by
  simp only [Mapping.formOk, Bool.and_eq_true, beq_iff_eq] at ok
  simp only [Mapping.covers, Bool.and_eq_true, decide_eq_true_eq] at c
  obtain ⟨⟨⟨⟨⟨_, aligned⟩, _⟩, _⟩, _⟩, _⟩ := ok
  have base : m.va ≤ va / pageBytes m.page * pageBytes m.page := by
    have e : m.va / pageBytes m.page * pageBytes m.page = m.va := Nat.div_mul_cancel (Nat.dvd_of_mod_eq_zero aligned)
    calc m.va = m.va / pageBytes m.page * pageBytes m.page := e.symm
      _ ≤ _ := Nat.mul_le_mul_right _ (Nat.div_le_div_right c.1)
  have top : va / pageBytes m.page * pageBytes m.page ≤ va := Nat.div_mul_le_self _ _
  simp only [Mapping.pageAt]
  omega

/-- A page of memory is not of the library's region: it may be read. -/
theorem Mapping.permits_read {p : Mapping} (h : p.pa < 2 ^ 48) : p.permits .read = true := by
  simp only [Mapping.permits, inLibrary, decide_eq_false (Nat.not_le.mpr h), Bool.false_and, Bool.not_false]

/-! The faults of an address (R143, R225, R416) -/

/-- The fault of an access at an address, with the taint of the register that gave it (R225). -/
def Core.faultAt (c : Core) (code : Nat) (a : Word) (r : RegCell) : FaultInfo := { c.faultOf code with addr := a, taint := r.taint, dm := r.dm }

section
variable {a : Word} {size : Nat} {n : Need} {r : RegCell} {s : State}

theorem globalAddr_high (h : 2 ^ 56 ≤ a.toNat) : globalAddr a size n r s = .error (.fault (s.core.faultAt 0x11 a r)) := by
  simp only [globalAddr, get_bind, if_pos h]; rfl

theorem globalAddr_misaligned (l : a.toNat < 2 ^ 56) (h : a.toNat % size ≠ 0) :
    globalAddr a size n r s = .error (.fault { s.core.faultAt 0x13 a r with d0 := BitVec.ofNat 64 size }) := by
  simp only [globalAddr, get_bind, if_neg (Nat.not_le.mpr l), if_pos h]; rfl

theorem globalAddr_refused {code : Nat} (l : a.toNat < 2 ^ 56) (h : a.toNat % size = 0) (e : s.xlate s.core.id s.core.task.fn a.toNat n = .error code) :
    globalAddr a size n r s = .error (.fault (s.core.faultAt code a r)) := by
  simp only [globalAddr, get_bind, if_neg (Nat.not_le.mpr l), h, ne_eq, not_true_eq_false, if_false, e]; rfl

theorem globalAddr_ok {pa : Nat} {t : State} (l : a.toNat < 2 ^ 56) (h : a.toNat % size = 0)
    (e : s.xlate s.core.id s.core.task.fn a.toNat n = .ok (pa, t)) : globalAddr a size n r s = .ok (pa, t) := by
  simp only [globalAddr, get_bind, if_neg (Nat.not_le.mpr l), h, ne_eq, not_true_eq_false, if_false, e]; rfl

end

/-- A meaning whose faults at an address come in R416's order: outside the address space, misaligned, then without translation or permission. -/
structure FaultsAt (m : M Unit) (s : State) (a : Word) (size : Nat) (ns : List Need) (r : RegCell) : Prop where
  high : 2 ^ 56 ≤ a.toNat → m s = .error (.fault (s.core.faultAt 0x11 a r))
  misaligned : a.toNat < 2 ^ 56 → a.toNat % size ≠ 0 → m s = .error (.fault { s.core.faultAt 0x13 a r with d0 := BitVec.ofNat 64 size })
  refused : ∀ code, a.toNat < 2 ^ 56 → a.toNat % size = 0 → s.translate a.toNat ns = .error code → m s = .error (.fault (s.core.faultAt code a r))

section
variable {m m' : M Unit} {s : State} {a : Word} {size : Nat} {ns : List Need} {r : RegCell}

theorem FaultsAt.of_eq (e : m s = m' s) (h : FaultsAt m' s a size ns r) : FaultsAt m s a size ns r where
  high x := e.trans (h.high x)
  misaligned x y := e.trans (h.misaligned x y)
  refused c x y z := e.trans (h.refused c x y z)

/-- An access that needs one permission of its page. -/
theorem FaultsAt.one (n : Need) (k : Nat → M Unit) : FaultsAt (globalAddr a size n r >>= k) s a size [n] r where
  high h := bind_error (globalAddr_high h)
  misaligned l h := bind_error (globalAddr_misaligned l h)
  refused code l h e := by
    simp only [State.translate] at e
    split at e
    · rename_i x
      cases e
      exact bind_error (globalAddr_refused l h x)
    · cases e

/-- An access that needs two: the second translation is made in the state that the first one leaves, which differs in its TLBs alone. -/
theorem FaultsAt.two (n n' : Need) (k : Nat → Nat → M Unit) :
    FaultsAt (globalAddr a size n r >>= fun p => globalAddr a size n' r >>= k p) s a size [n, n'] r where
  high h := bind_error (globalAddr_high h)
  misaligned l h := bind_error (globalAddr_misaligned l h)
  refused code l h e := by
    simp only [State.translate] at e
    split at e
    · rename_i x
      cases e
      exact bind_error (globalAddr_refused l h x)
    · rename_i pa t x
      rw [bind_ok (globalAddr_ok l h x)]
      obtain ⟨u, v, rfl⟩ := State.xlate_withTlbs x
      split at e
      · cases e
      · rename_i y
        cases e
        split at y
        · rename_i z
          cases y
          exact bind_error (globalAddr_refused l h z)
        · cases y

end

/-! The scalar accesses (R278, R279, R281 to R283) -/

theorem readS_bind {β : Type} {s : State} {n : BitVec 6} (h : s.core.ready (.s, n.toNat) = true) (k : RegCell → M β) :
    (readS n >>= k) s = k (s.core.reg (.s, n.toNat)) s := bind_ok (readReg_ready h)

section
variable {s : State}

theorem loadGlobal_faults (size : Nat) (sg : Bool) (o : SG) (ha : s.core.ready (.s, o.a.toNat) = true) :
    FaultsAt (loadGlobal size sg o) s (s.core.word (.s, o.a.toNat) + joinImm o.o o.e * BitVec.ofNat 64 size) size [.read]
      (s.core.reg (.s, o.a.toNat)) :=
  .of_eq (readS_bind ha _) (.one _ _)

theorem storeGlobal_faults (size : Nat) (o : SG) (ha : s.core.ready (.s, o.a.toNat) = true) (hr : s.core.ready (.s, o.r.toNat) = true) :
    FaultsAt (storeGlobal size o) s (s.core.word (.s, o.a.toNat) + joinImm o.o o.e * BitVec.ofNat 64 size) size [.write]
      (s.core.reg (.s, o.a.toNat)) :=
  .of_eq ((readS_bind ha _).trans (readS_bind hr _)) (.one _ _)

theorem loadAcquire_faults (size : Nat) (o : SO) (ha : s.core.ready (.s, o.a.toNat) = true) :
    FaultsAt (loadAcquire size o) s (s.core.word (.s, o.a.toNat)) size [.read] (s.core.reg (.s, o.a.toNat)) :=
  .of_eq (readS_bind ha _) (.one _ _)

theorem storeRelease_faults (size : Nat) (o : SO) (ha : s.core.ready (.s, o.a.toNat) = true) (hr : s.core.ready (.s, o.r.toNat) = true) :
    FaultsAt (storeRelease size o) s (s.core.word (.s, o.a.toNat)) size [.write] (s.core.reg (.s, o.a.toNat)) :=
  .of_eq ((readS_bind ha _).trans (readS_bind hr _)) (.one _ _)

/-- The access size of an atomic: 4 bytes with W set in its group, otherwise 8 (R251, R281). -/
theorem atomicGroup_size (g : Option SAG) :
    (if (atomicGroup g).2.1 = true then 4 else 8) = if (g.getD { cl := 0, sco := 0, w := 0, fo := 0, m := 1 }).w = 1 then 4 else 8 := by
  cases g <;> simp [atomicGroup]

theorem atomic_amo_faults (op : Nat) (o : SA) (ha : s.core.ready (.s, o.a.toNat) = true) (hb : s.core.ready (.s, o.b.toNat) = true) :
    FaultsAt (atomic (.amo op) o) s (s.core.word (.s, o.a.toNat)) (if (o.g.getD { cl := 0, sco := 0, w := 0, fo := 0, m := 1 }).w = 1 then 4 else 8)
      [.read, .write] (s.core.reg (.s, o.a.toNat)) :=
  atomicGroup_size o.g ▸ .of_eq (((readS_bind ha _).trans (readS_bind hb _)).trans (pure_bind_at RegCell.zero _ _)) (.two _ _ _)

theorem atomic_cas_faults (o : SA) (ha : s.core.ready (.s, o.a.toNat) = true) (hb : s.core.ready (.s, o.b.toNat) = true)
    (hd : s.core.ready (.s, o.d.toNat) = true) :
    FaultsAt (atomic .cas o) s (s.core.word (.s, o.a.toNat)) (if (o.g.getD { cl := 0, sco := 0, w := 0, fo := 0, m := 1 }).w = 1 then 4 else 8)
      [.read, .write] (s.core.reg (.s, o.a.toNat)) :=
  atomicGroup_size o.g ▸ .of_eq (((readS_bind ha _).trans (readS_bind hb _)).trans (readS_bind hd _)) (.two _ _ _)

theorem atomicPair_faults (o : SA) (ha : s.core.ready (.s, o.a.toNat) = true) (hb : s.core.ready (.s, o.b.toNat) = true)
    (hb' : s.core.ready (.s, (o.b + 1).toNat) = true) (hd : s.core.ready (.s, o.d.toNat) = true) (hd' : s.core.ready (.s, (o.d + 1).toNat) = true) :
    FaultsAt (atomicPair o) s (s.core.word (.s, o.a.toNat)) 16 [.read, .write] (s.core.reg (.s, o.a.toNat)) :=
  .of_eq (((((readS_bind ha _).trans (readS_bind hb _)).trans (readS_bind hb' _)).trans (readS_bind hd _)).trans (readS_bind hd' _)) (.two _ _ _)

theorem exactReduceOp_faults (o : SAR) (ha : s.core.ready (.s, o.a.toNat) = true) (hb : s.core.ready (.s, o.b.toNat) = true) :
    FaultsAt (exactReduceOp o) s (s.core.word (.s, o.a.toNat)) 4 [.read, .write] (s.core.reg (.s, o.a.toNat)) :=
  .of_eq ((readS_bind ha _).trans (readS_bind hb _)) (.two _ _ _)

theorem updateOnly_faults (op : Nat) (o : SU) (ha : s.core.ready (.s, o.a.toNat) = true) (hb : s.core.ready (.s, o.b.toNat) = true) :
    FaultsAt (updateOnly op o) s (s.core.word (.s, o.a.toNat)) (if o.w = 1 then 8 else 4) [.read, .write] (s.core.reg (.s, o.a.toNat)) :=
  .of_eq ((readS_bind ha _).trans (readS_bind hb _)) (.two _ _ _)

end
end Sys2Proof.Machine
end

section
/-!
O22: translation, permission and the order of address faults (R12, R143, R162, R163, R416).
-/
namespace Sys2Proof.Machine

/-! Every scalar access -/

/-- The operation's meaning reaches its address first, with the faults of R416 in their order; its address register is the first source. -/
def AccForm.FaultsFirst (f : AccForm) (i : Instr) (s : State) : Prop :=
  ∃ m, (∀ t, exec i t = finish m t) ∧ FaultsAt m s (f.va s.core) f.size f.needs (s.core.reg (f.srcs.headD (.s, 0)))

/-- A form without an offset accesses the word of its register. -/
theorem FaultsAt.add_zero {m : M Unit} {s : State} {a : Word} {size : Nat} {ns : List Need} {r : RegCell} (h : FaultsAt m s a size ns r) :
    FaultsAt m s (a + 0) size ns r := by simpa using h

theorem accForm_faultsFirst {i : Instr} {f : AccForm} {s : State} (h : accForm i = some f) (ready : s.core.allReady f.srcs = true) :
    f.FaultsFirst i s := by
  unfold accForm at h
  split at h <;> cases h <;> simp only [Core.allReady, List.all_cons, List.all_nil, Bool.and_true, Bool.and_eq_true] at ready
  case h_1 | h_2 | h_3 | h_4 | h_5 | h_6 | h_7 => exact ⟨_, fun _ => rfl, loadGlobal_faults _ _ _ ready⟩
  case h_8 | h_9 => exact ⟨_, fun _ => rfl, (loadAcquire_faults _ _ ready).add_zero⟩
  case h_10 | h_11 | h_12 | h_13 => exact ⟨_, fun _ => rfl, storeGlobal_faults _ _ ready.1 ready.2⟩
  case h_14 | h_15 => exact ⟨_, fun _ => rfl, (storeRelease_faults _ _ ready.1 ready.2).add_zero⟩
  case h_16 | h_17 | h_18 | h_19 | h_20 | h_21 | h_22 | h_23 | h_24 =>
    exact ⟨_, fun _ => rfl, (atomic_amo_faults _ _ ready.1 ready.2).add_zero⟩
  case h_25 =>
    obtain ⟨ha, hb, hd⟩ := ready
    exact ⟨_, fun _ => rfl, (atomic_cas_faults _ ha hb hd).add_zero⟩
  case h_26 =>
    obtain ⟨ha, hb, hb', hd, hd'⟩ := ready
    exact ⟨_, fun _ => rfl, (atomicPair_faults _ ha hb hb' hd hd').add_zero⟩
  case h_27 => exact ⟨_, fun _ => rfl, (exactReduceOp_faults _ ready.1 ready.2).add_zero⟩
  case h_28 | h_29 | h_30 | h_31 | h_32 | h_33 | h_34 | h_35 => exact ⟨_, fun _ => rfl, (updateOnly_faults _ _ ready.1 ready.2).add_zero⟩

/-- A meaning that faults in the state it begins in leaves the exception taken and its mark (R222). -/
theorem finish_traps {m : M Unit} {s : State} {x : FaultInfo} (p : s.powered = true) (h : m s.begun = .error (.fault x)) :
    finish m s = .next (s.traps x) := finish_fault p h

/-! The obligation's two parts -/

section
variable {s : State} {f va : Nat} {n : Need} {j : Job} {m : Mapping}

/-- The answer for an address of memory whose region stands and which its page permits: the byte at its distance from the mapping's start (R163). -/
theorem State.xlate_permitted (h : va < 2 ^ 56) (t0 : s.core.tlb = []) (l0 : s.l2 = []) (w : s.walk f va = some (m.pageAt va))
    (ok : m.formOk = true) (c : m.covers va = true) (p : (m.pageAt va).permits n = true) :
    ∃ x l, s.xlate s.core.id f va n = .ok (m.pa + (va - m.va), s.withTlbs x l) := by
  obtain ⟨x, l, e⟩ := State.xlate_of_walk (n := n) h t0 l0 w
  rw [if_pos p, Mapping.pageAt_distance ok c] at e
  exact ⟨x, l, e⟩

theorem State.xlate_unpermitted (h : va < 2 ^ 56) (t0 : s.core.tlb = []) (l0 : s.l2 = []) (w : s.walk f va = some (m.pageAt va))
    (p : (m.pageAt va).permits n = false) : s.xlate s.core.id f va n = .error 0x12 := by
  obtain ⟨x, l, e⟩ := State.xlate_of_walk (n := n) h t0 l0 w
  rwa [p, if_neg Bool.false_ne_true] at e

/-- A page permits reading where it is of memory, and writing and fetching as its mapping says (R163). -/
theorem Mapping.pageAt_permits (lo : (m.pageAt va).pa < 2 ^ 48) (h : n = .read ∨ (n = .write ∧ m.w = true) ∨ (n = .fetch ∧ m.x = true)) :
    (m.pageAt va).permits n = true := by
  rcases h with rfl | ⟨rfl, hw⟩ | ⟨rfl, hx⟩
  · exact Mapping.permits_read lo
  · exact hw
  · exact hx

theorem Mapping.pageAt_forbids (h : (n = .write ∧ m.w = false) ∨ (n = .fetch ∧ m.x = false)) : (m.pageAt va).permits n = false := by
  rcases h with ⟨rfl, hw⟩ | ⟨rfl, hx⟩
  · exact hw
  · exact hx

end

/-- Settles O22: a walk of the job's mappings, page by page, and for an access the faults of its address in R416's order. -/
theorem translationAndFaults : Obligations.TranslationAndFaults := by
  refine ⟨fun s f va n j t0 l0 hj => ⟨fun h => State.xlate_of_high h _, fun h un => State.xlate_of_walk_none h t0 l0 (State.walk_of_uncovered hj un), ?_⟩, ?_⟩
  · intro m h cov ok _
    have walk := State.walk_of_covered hj cov
    have covers : m.covers va = true := List.find?_some (p := fun m : Mapping => m.covers va) cov
    refine ⟨fun region => ?_, fun lo region => ?_⟩
    · rw [region, Bool.or_true, if_pos rfl] at walk
      refine ⟨fun need lo => ?_, fun need => State.xlate_unpermitted h t0 l0 walk (Mapping.pageAt_forbids need)⟩
      obtain ⟨x, l, e⟩ := State.xlate_permitted h t0 l0 walk ok covers (Mapping.pageAt_permits lo need)
      exact ⟨_, e, rfl, rfl, rfl, rfl, rfl, rfl, rfl, rfl⟩
    · rw [region, decide_eq_false (Nat.not_le.mpr lo), Bool.or_false, if_neg Bool.false_ne_true] at walk
      exact State.xlate_of_walk_none h t0 l0 walk
  · intro i f s hf _ powered ready
    obtain ⟨m, run, faults⟩ := accForm_faultsFirst (s := s.begun) hf ready
    simp only [run]
    exact ⟨fun h => finish_traps powered (faults.high h), fun l h => finish_traps powered (faults.misaligned l h),
      fun code l h e => ⟨finish_traps powered (faults.refused code l h e), State.translate_code e⟩⟩

end Sys2Proof.Machine
end

section
/-!
Changes of several cores: what a change of one core does to every core, and a change of all that a list names.
-/
namespace Sys2Proof

/-- A write leaves every other key alone, whatever an unlisted key reads as. -/
theorem SMap.get_set_ne {α : Type} [DecidableEq α] {d e v : α} {m : SMap α} {k j : Nat} (h : k ≠ j) :
    SMap.get e (SMap.set d m k v) j = SMap.get e m j := by
  unfold SMap.set
  split
  · rw [SMap.get_drop, if_neg h]
  · rw [SMap.get_put, if_neg h]

namespace Machine

/-- A state with other cores. -/
def State.withCores (s : State) (c : Core) (p : SMap Core) : State := { s with core := c, parked := p }

/-- Two states differ in their cores alone. -/
def State.CoresOnly (s t : State) : Prop := ∃ c p, t = s.withCores c p

theorem State.CoresOnly.refl (s : State) : s.CoresOnly s := ⟨_, _, rfl⟩

theorem State.CoresOnly.trans {s t u : State} (h : s.CoresOnly t) (g : t.CoresOnly u) : s.CoresOnly u := by
  obtain ⟨_, _, rfl⟩ := h
  obtain ⟨_, _, rfl⟩ := g
  exact ⟨_, _, rfl⟩

theorem State.modCore_coresOnly (s : State) (n : Nat) (g : Core → Core) : s.CoresOnly (s.modCore n g) := by
  unfold State.modCore
  split <;> exact ⟨_, _, rfl⟩

theorem State.foldl_coresOnly {α : Type} {g : State → α → State} (h : ∀ (s : State) (a : α), s.CoresOnly (g s a)) (l : List α) (s : State) :
    s.CoresOnly (l.foldl g s) := by
  induction l generalizing s with
  | nil => exact .refl s
  | cons a r ih => exact (h s a).trans (ih _)

/-! What cores alone cannot change -/

section
variable {s t : State} (h : s.CoresOnly t)
include h

theorem State.CoresOnly.mem : t.mem = s.mem := by obtain ⟨_, _, rfl⟩ := h; rfl
theorem State.CoresOnly.larder : t.larder = s.larder := by obtain ⟨_, _, rfl⟩ := h; rfl
theorem State.CoresOnly.pantry : t.pantry = s.pantry := by obtain ⟨_, _, rfl⟩ := h; rfl
theorem State.CoresOnly.fns : t.fns = s.fns := by obtain ⟨_, _, rfl⟩ := h; rfl
theorem State.CoresOnly.dist : t.dist = s.dist := by obtain ⟨_, _, rfl⟩ := h; rfl
theorem State.CoresOnly.fabric : t.fabric = s.fabric := by obtain ⟨_, _, rfl⟩ := h; rfl
theorem State.CoresOnly.ladders : t.ladders = s.ladders := by obtain ⟨_, _, rfl⟩ := h; rfl
theorem State.CoresOnly.service : t.service = s.service := by obtain ⟨_, _, rfl⟩ := h; rfl
theorem State.CoresOnly.l2 : t.l2 = s.l2 := by obtain ⟨_, _, rfl⟩ := h; rfl
theorem State.CoresOnly.fresh : t.fresh = s.fresh := by obtain ⟨_, _, rfl⟩ := h; rfl
theorem State.CoresOnly.powered : t.powered = s.powered := by obtain ⟨_, _, rfl⟩ := h; rfl

end

/-! A change that keeps a core's number -/

section
variable {g : Core → Core} (keeps : ∀ c, (g c).id = c.id)
include keeps

theorem State.modCore_core_id (s : State) (n : Nat) : (s.modCore n g).core.id = s.core.id := by
  unfold State.modCore
  split
  · exact keeps s.core
  · rfl

/-- A core that is changed is changed as it stood, and every other core is as before. -/
theorem State.coreAt_modCore (s : State) (n m : Nat) : (s.modCore n g).coreAt m = if m = n then g (s.coreAt m) else s.coreAt m := by
  unfold State.modCore
  by_cases hn : n = s.core.id
  · subst hn
    simp only [if_true, State.coreAt, keeps]
    split <;> rfl
  · simp only [if_neg hn]
    by_cases hm : m = s.core.id
    · subst hm
      rw [if_neg (Ne.symm hn)]
      simp [State.coreAt]
    · by_cases h : m = n
      · subst h
        simp only [State.coreAt, if_neg hm, SMap.get_set, if_true]
      · simp only [State.coreAt, if_neg hm, if_neg h, SMap.get_set_ne (Ne.symm h)]

/-- Changes the cores that `sel` picks of a list. -/
theorem State.modCores_core_id (sel : Core → Bool) (l : List Core) (s : State) :
    (l.foldl (fun s c => if sel c then s.modCore c.id g else s) s).core.id = s.core.id := by
  induction l generalizing s with
  | nil => rfl
  | cons a r ih =>
    simp only [List.foldl_cons]
    split
    · exact (ih _).trans (State.modCore_core_id keeps s a.id)
    · exact ih s

/-- Where the change made twice is the change made once, each core that the list names has it, and every other is as before. -/
theorem State.coreAt_modCores (twice : ∀ c, g (g c) = g c) (sel : Core → Bool) (l : List Core) (s : State) (n : Nat) :
    (l.foldl (fun s c => if sel c then s.modCore c.id g else s) s).coreAt n =
      if l.any (fun c => sel c && c.id == n) then g (s.coreAt n) else s.coreAt n := by
  induction l generalizing s with
  | nil => rfl
  | cons a r ih =>
    simp only [List.foldl_cons, List.any_cons]
    by_cases ha : sel a = true
    · rw [if_pos ha, ih, State.coreAt_modCore keeps]
      by_cases h : n = a.id
      · subst h
        simp [twice, ha]
      · simp [h, Ne.symm h, ha]
    · rw [if_neg ha, ih]
      simp [ha]

/-- Of all cores that a state holds the one in focus is changed where it is picked. -/
theorem State.modCores_core (twice : ∀ c, g (g c) = g c) (sel : Core → Bool) (s : State) (picks : ∀ c d : Core, c.id = d.id → sel c = sel d) :
    (s.cores.foldl (fun s c => if sel c then s.modCore c.id g else s) s).core = if sel s.core then g s.core else s.core := by
  have e := State.coreAt_modCores keeps twice sel s.cores s s.core.id
  rw [State.coreAt_focus, ← State.modCores_core_id keeps sel s.cores s, State.coreAt_focus, State.modCores_core_id keeps sel s.cores s] at e
  rw [e]
  congr 1
  simp only [State.cores, List.any_cons, beq_self_eq_true, Bool.and_true, eq_iff_iff, Bool.or_eq_true, List.any_eq_true, Bool.and_eq_true, beq_iff_eq,
    or_iff_left_iff_imp, forall_exists_index, and_imp]
  exact fun c _ hc hid => picks c s.core hid ▸ hc

end

end Machine
end Sys2Proof
end

section
/-!
O18: mapping requests, the capability page's records, and the invalidation of translations (R12, R68, R88, R164, R287, R296).
-/
namespace Sys2Proof.Machine

/-! Mapping requests (R164) -/

theorem releaseAll_done {s : State} (h : s.core.order.acc = []) : releaseAll s = .ok ((), s) := by
  simp only [releaseAll, core_bind, h, List.isEmpty_nil, if_true]; rfl

/-- What the Monitor's answer leaves: the job's mappings and MAPSTAT (R164). -/
def State.answered (w : State) (f : Nat) (r : Except Nat (List Mapping)) : State :=
  match r with
  | .error why => { w with core := { w.core with defer := w.core.defer ++ [.cr 0x107 (BitVec.ofNat 64 why)] } }
  | .ok ms =>
    let x := w.modJob f (fun j => { j with maps := ms })
    { x with core := { x.core with defer := x.core.defer ++ [.cr 0x107 0] } }

theorem mapreqOp_answered {o : SWF} {s u w : State} {pa : Nat} {bs : List Byte} {j : Job} (lev : s.core.level = .s)
    (ready : s.core.ready (.s, o.r.toNat) = true) (lo : (s.core.word (.s, o.r.toNat)).toNat < 2 ^ 56)
    (al : (s.core.word (.s, o.r.toNat)).toNat % 32 = 0) (tr : s.translate (s.core.word (.s, o.r.toNat)).toNat [.read] = .ok (pa, u))
    (acc : u.core.order.acc = []) (rd : readVirtual u u.core.id u.core.task.fn (s.core.word (.s, o.r.toNat)).toNat 32 = .ok (bs, w))
    (hj : w.jobAt w.core.task.fn = some j) :
    mapreqOp o s = .ok ((), w.answered w.core.task.fn (w.mapRequest w.core.task.fn j bs)) := by
  have addr : ∃ p, globalAddr (s.core.word (.s, o.r.toNat)) 32 .read (s.core.reg (.s, o.r.toNat)) s = .ok (p, u) := by
    simp only [State.translate] at tr
    split at tr
    · cases tr
    · rename_i p t e
      cases tr
      exact ⟨p, globalAddr_ok lo al e⟩
  obtain ⟨p, addr⟩ := addr
  refine (bind_ok (needS_s lev)).trans ((readS_bind ready _).trans ((bind_ok addr).trans ((bind_ok (releaseAll_done acc)).trans ?_)))
  simp only [get_bind]
  change (match readVirtual u u.core.id u.core.task.fn (s.core.word (.s, o.r.toNat)).toNat 32 with
    | .error (c, _) => addrFault c (s.core.word (.s, o.r.toNat)) (s.core.reg (.s, o.r.toNat))
    | .ok (bs, s) => _) u = _
  rw [rd]
  simp only [set_bind, hj]
  cases w.mapRequest w.core.task.fn j bs with
  | error why => rfl
  | ok ms => rfl

/-- The rules for an entry of a plan or a request: its form, its regions, and the shadow area left alone (R12, R88, R159). -/
theorem State.mapRules_form {s : State} {b : Option Nat} {m : Mapping} (h : s.mapRules b m = true) : m.formOk = true ∧ s.rangeOk m.pa m.len = true := by
  simp only [State.mapRules, Bool.and_eq_true] at h
  exact h.1

/-- A removal that is taken leaves the mappings that do not lie wholly in its range (R164, log 20). -/
theorem State.mapRequest_removes {s : State} {f : Nat} {j : Job} {bs : List Byte} {ms : List Mapping} (h : s.mapRequest f j bs = .ok ms)
    (rm : (mappingOf bs).2.testBit 5 = true) : ms = j.maps.filter (fun x => !x.within (mappingOf bs).1.va (mappingOf bs).1.len) := by
  simp only [State.mapRequest, rm, if_true] at h
  split at h
  · cases h
  · split at h
    · cases h
    · split at h
      · cases h
      · cases h; rfl

/-- An addition that is taken meets the rules, lies in the function's share, and replaces the mapping of its own range alone (R164). -/
theorem State.mapRequest_adds {s : State} {f : Nat} {j : Job} {bs : List Byte} {ms : List Mapping} (h : s.mapRequest f j bs = .ok ms)
    (add : (mappingOf bs).2.testBit 5 = false) :
    s.mapRules j.shadow (mappingOf bs).1 = true ∧ (s.fnAt f).owns (mappingOf bs).1.pa (mappingOf bs).1.len = true ∧
    (∀ x ∈ j.maps, (x.va == (mappingOf bs).1.va && x.len == (mappingOf bs).1.len) = false →
      overlaps x.va x.len (mappingOf bs).1.va (mappingOf bs).1.len = false) ∧
    ms = j.maps.filter (fun x => !(x.va == (mappingOf bs).1.va && x.len == (mappingOf bs).1.len)) ++ [(mappingOf bs).1] := by
  simp only [State.mapRequest, add, Bool.false_eq_true, if_false] at h
  split at h
  · cases h
  · split at h
    · cases h
    · rename_i rules
      split at h
      · cases h
      · split at h
        · cases h
        · rename_i meets
          split at h
          · cases h
          · rename_i own
            cases h
            refine ⟨by simpa using rules, by simpa using own, fun x hx ne => Bool.eq_false_iff.mpr fun c => ?_, rfl⟩
            exact meets (List.any_eq_true.mpr ⟨x, hx, by simp only [ne, c, Bool.not_false, Bool.and_self]⟩)

/-- A refusal shows 1 or 2, and 2 only where nothing but the function's share is against an addition (R164, log 61). -/
theorem State.mapRequest_refuses {s : State} {f : Nat} {j : Job} {bs : List Byte} {why : Nat} (h : s.mapRequest f j bs = .error why) :
    why = 1 ∨ (why = 2 ∧ (mappingOf bs).2.testBit 5 = false ∧ s.mapRules j.shadow (mappingOf bs).1 = true ∧
      (s.fnAt f).owns (mappingOf bs).1.pa (mappingOf bs).1.len = false) := by
  simp only [State.mapRequest] at h
  split at h
  · cases h; exact .inl rfl
  · split at h
    · split at h
      · cases h; exact .inl rfl
      · split at h
        · cases h; exact .inl rfl
        · cases h
    · rename_i add
      split at h
      · cases h; exact .inl rfl
      · rename_i rules
        split at h
        · cases h; exact .inl rfl
        · split at h
          · cases h; exact .inl rfl
          · split at h
            · rename_i own
              cases h
              exact .inr ⟨rfl, by simpa using add, by simpa using rules, by simpa using own⟩
            · cases h

/-! Records of the capability page (R68, R69, R287) -/

theorem toBytes_length (n x : Nat) : (toBytes n x).length = n := by simp [toBytes]

theorem toBytes_succ (n x : Nat) : toBytes (n + 1) x = BitVec.ofNat 8 x :: toBytes n (x / 256) := by
  simp only [toBytes, List.range_succ_eq_map, List.map_cons, List.map_map, Nat.mul_zero, Nat.pow_zero, Nat.div_one, List.cons.injEq, true_and]
  refine List.map_congr_left fun i _ => ?_
  simp only [Function.comp_apply, Nat.div_div_eq_div_mul, Nat.succ_eq_add_one]
  rw [show 2 ^ (8 * (i + 1)) = 256 * 2 ^ (8 * i) by rw [Nat.mul_add, Nat.pow_add]; omega]

/-- The bytes of a number read back as its residue (R5). -/
theorem ofBytes_toBytes (n x : Nat) : ofBytes (toBytes n x) = x % 256 ^ n := by
  induction n generalizing x with
  | zero => simp [toBytes, ofBytes, Nat.mod_one]
  | succ n ih =>
    rw [toBytes_succ]
    have e : ofBytes (BitVec.ofNat 8 x :: toBytes n (x / 256)) = x % 256 + 256 * ofBytes (toBytes n (x / 256)) := by
      simp [ofBytes, BitVec.toNat_ofNat]
    rw [e, ih, Nat.pow_succ', Nat.mod_mul]

/-- The bytes that a record takes: its value, its type and length, and its padding (R68). -/
theorem capRecord_length (t : Nat) (v : List Byte) : (capRecord t v).length = (4 + v.length + 7) / 8 * 8 := by
  simp only [capRecord, List.length_append, toBytes_length, List.length_replicate]
  omega

theorem capRecord_type {t : Nat} (h : t < 2 ^ 16) (v rest : List Byte) : ofBytes ((capRecord t v ++ rest).take 2) = t := by
  have e : (capRecord t v ++ rest).take 2 = toBytes 2 t := by
    simp only [capRecord, List.append_assoc]
    exact List.take_left' (toBytes_length 2 t)
  rw [e, ofBytes_toBytes, Nat.mod_eq_of_lt (by omega)]

theorem capRecord_len {v : List Byte} (h : v.length < 2 ^ 16) (t : Nat) (rest : List Byte) :
    ofBytes (((capRecord t v ++ rest).drop 2).take 2) = v.length := by
  have e : ((capRecord t v ++ rest).drop 2).take 2 = toBytes 2 v.length := by
    simp only [capRecord, List.append_assoc]
    rw [List.drop_left' (toBytes_length 2 t)]
    exact List.take_left' (toBytes_length 2 v.length)
  rw [e, ofBytes_toBytes, Nat.mod_eq_of_lt (by omega)]

/-- A record of another type is passed over (R287). -/
theorem findRecord_skip {ty t k n off : Nat} {v rest : List Byte} (ne : ty ≠ t) (z : ty ≠ 0) (h : ty < 2 ^ 16) (l : v.length < 2 ^ 16) :
    findRecord (n + 1) t k (capRecord ty v ++ rest) off = findRecord n t k rest (off + (4 + v.length + 7) / 8 * 8) := by
  simp only [findRecord, capRecord_type h, capRecord_len l, if_neg z, if_neg ne]
  rw [List.drop_left' (capRecord_length ty v)]

/-- The first record of the type asked for is found (R287). -/
theorem findRecord_hit {t n off : Nat} {v rest : List Byte} (z : t ≠ 0) (h : t < 2 ^ 16) :
    findRecord (n + 1) t 0 (capRecord t v ++ rest) off = some off := by
  simp only [findRecord, capRecord_type h, if_neg z, if_true]

theorem recIdentity_length (f : Nat) (x : Extension) : (recIdentity f x).length = 164 := by
  simp only [recIdentity, List.length_append, toBytes_length, List.length_cons, List.length_nil, List.length_map, List.length_range]

theorem recEngines_length (x : Extension) : (recEngines x).length = 512 := by
  simp only [recEngines, List.length_flatMap, toBytes_length, List.map_const', List.length_range, List.sum_replicate_nat]

/-- The pantry ladders of a page with an extension stand behind the ROM part's four records, the identity and the engine bitmaps (R69). -/
theorem findRecord_ladders (f : Nat) (x : Extension) : findRecord 8192 0x21 0 (capPage f (some x)) 0 = some 0x368 := by
  simp only [capPage, romPart, extPart, List.append_assoc]
  iterate 4 rw [findRecord_skip (by decide) (by decide) (by decide) (by simp [toBytes_length])]
  rw [findRecord_skip (by decide) (by decide) (by decide) (by rw [recIdentity_length]; decide),
    findRecord_skip (by decide) (by decide) (by decide) (by rw [recEngines_length]; decide), findRecord_hit (by decide) (by decide)]
  simp [toBytes_length, recIdentity_length, recEngines_length]

/-- The address that capr gives for a record at an offset of the page, or 0 (R287). -/
def recordAddr (x : Option Nat) : Word := match x with | some off => BitVec.ofNat 64 (Config.window + off) | none => 0

theorem recordAddr_toNat (x : Option Nat) :
    (recordAddr x).toNat = match x with | some off => (BitVec.ofNat 64 (Config.window + off)).toNat | none => 0 := by
  cases x <;> rfl

/-! Translations leave the TLBs (R162, R296) -/

/-- A core without the translations that `gone` picks. -/
def Core.withoutTlb (gone : TlbEntry → Bool) (c : Core) : Core := { c with tlb := c.tlb.filter (fun e => !gone e) }

theorem Core.withoutTlb_twice (gone : TlbEntry → Bool) (c : Core) : (c.withoutTlb gone).withoutTlb gone = c.withoutTlb gone := by
  simp [Core.withoutTlb]

/-- The translations that `gone` picks leave the TLBs of all cores. -/
def State.withoutTlbs (s : State) (gone : TlbEntry → Bool) : State := s.cores.foldl (fun s c => s.modCore c.id (Core.withoutTlb gone)) s

theorem State.withoutTlbs_coresOnly (s : State) (gone : TlbEntry → Bool) : s.CoresOnly (s.withoutTlbs gone) :=
  State.foldl_coresOnly (fun s (c : Core) => s.modCore_coresOnly c.id _) _ _

theorem State.withoutTlbs_core (s : State) (gone : TlbEntry → Bool) : (s.withoutTlbs gone).core = s.core.withoutTlb gone := by
  simpa [State.withoutTlbs] using State.modCores_core (g := Core.withoutTlb gone) (fun _ => rfl) (Core.withoutTlb_twice gone) (fun _ => true) s (fun _ _ _ => rfl)

/-- A core that the state holds under its own number keeps none of them. -/
theorem State.withoutTlbs_coreAt {s : State} {gone : TlbEntry → Bool} {c : Core} (h : c ∈ s.cores) :
    (s.withoutTlbs gone).coreAt c.id = (s.coreAt c.id).withoutTlb gone := by
  have e := State.coreAt_modCores (g := Core.withoutTlb gone) (fun _ => rfl) (Core.withoutTlb_twice gone) (fun _ => true) s.cores s c.id
  simp only [if_true, Bool.true_and] at e
  rw [if_pos (List.any_eq_true.mpr ⟨c, h, by simp⟩)] at e
  exact e

theorem Core.withoutTlb_gone {gone : TlbEntry → Bool} {c : Core} {e : TlbEntry} (h : e ∈ (c.withoutTlb gone).tlb) : gone e = false := by
  simpa using (List.mem_filter.mp h).2

/-- tlbinv at S level: the translations of the job that it names leave every TLB (R296). -/
theorem exec_tlbinv {o : S1} {s : State} (p : s.powered = true) (lev : s.core.level = .s) (ready : s.core.ready (.s, o.r.toNat) = true) :
    let gone (e : TlbEntry) : Bool := e.fn == s.core.task.fn &&
      (s.core.word (.s, o.r.toNat) == BitVec.allOnes 64 || e.m.covers (s.core.word (.s, o.r.toNat)).toNat)
    exec (.tlbinv o) s = .next { s.begun.withoutTlbs gone with l2 := s.l2.filter (fun x => !gone x.2) } := by
  intro gone
  have l2 : (s.begun.withoutTlbs gone).l2 = s.l2 := (s.begun.withoutTlbs_coresOnly gone).l2
  rw [← l2]
  exact finish_ok p ((bind_ok (needS_s (s := s.begun) lev)).trans ((readS_bind (s := s.begun) ready _).trans rfl))

/-! The obligation -/

/-- Settles O18: the request's one way through its meaning, the Monitor's answers branch by branch, the page's records one after the other, and a
change of every TLB. -/
theorem mappingRequests : Obligations.MappingRequests := by
  refine ⟨?request, ?taken, ?refused, ?capr, findRecord_ladders, ?tlbinv⟩
  case request =>
    intro o s u w pa bs j p lev ready va f lo al tr acc rd hj
    refine (finish_ok p (mapreqOp_answered (s := s.begun) lev ready lo al tr acc rd hj)).trans ?_
    cases w.mapRequest f j bs <;> rfl
  case taken =>
    intro s f j bs ms h m
    refine ⟨fun add => ?_, fun rm x => ?_⟩
    · obtain ⟨rules, own, apart, rfl⟩ := State.mapRequest_adds h add
      refine ⟨by simp [m], (State.mapRules_form rules).1, (State.mapRules_form rules).2, own, fun x hx => ?_⟩
      rcases List.mem_append.mp hx with old | new
      · have hx := List.mem_filter.mp old
        exact .inr ⟨hx.1, apart x hx.1 (Bool.not_eq_true' _ ▸ hx.2)⟩
      · exact .inl (List.mem_singleton.mp new)
    · rw [State.mapRequest_removes h rm]
      simp only [List.mem_filter, Mapping.within, m, Bool.not_eq_true', Bool.and_eq_false_iff, decide_eq_false_iff_not, Classical.not_and_iff_not_or_not]
  case refused =>
    intro s f j bs why h m
    rcases State.mapRequest_refuses h with rfl | ⟨rfl, add, rules, own⟩
    · exact ⟨.inl rfl, fun c => absurd c (by decide)⟩
    · exact ⟨.inr rfl, fun _ => ⟨add, (State.mapRules_form rules).1, (State.mapRules_form rules).2, own⟩⟩
  case capr =>
    intro o s p ha free f
    refine (finish_write (s := s) p ((readS_bind (s := s.begun) ha _).trans rfl) free).trans ?_
    exact congrArg (fun v => Host.Outcome.next (s.leaves [.reg (s.core.phys .s o.r.toNat) (result v []) 4])) (recordAddr_toNat _)
  case tlbinv =>
    intro o s p lev ready a gone
    have core := s.begun.withoutTlbs_core gone
    have only := s.begun.withoutTlbs_coresOnly gone
    refine ⟨_, exec_tlbinv p lev ready, Eq.trans (congrArg Core.mark core) rfl, Eq.trans (congrArg Core.tlb core) rfl, rfl, only.mem, only.larder,
      Eq.trans (congrArg Core.regs core) rfl, Eq.trans (congrArg Core.cr core) rfl, fun c hc hid _ e he => ?_⟩
    have held := State.withoutTlbs_coreAt (s := s.begun) (gone := gone) (List.mem_cons_of_mem _ (List.mem_map_of_mem (f := fun p => p.2) hc))
    refine Core.withoutTlb_gone (c := s.begun.coreAt c.2.id) ?_
    rw [← held, hid]
    exact he

end Sys2Proof.Machine
end

section
/-!
Functions of the endpoint: what a change of one, an MSI-X vector and a mailbox command do to it and leave to the others (R53, R62, R63).
-/
namespace Sys2Proof.Machine

/-! A change of one function -/

section
variable {s : State} {n : Nat} {g : Fn → Fn}

@[simp] theorem State.modFn_length : (s.modFn n g).fns.length = s.fns.length := by simp [State.modFn]

theorem State.fnAt_modFn_same (h : n < s.fns.length) : (s.modFn n g).fnAt n = g (s.fnAt n) := by
  simp [State.fnAt, State.modFn, nth, List.getD, h]

theorem State.fnAt_modFn_ne {m : Nat} (h : m ≠ n) : (s.modFn n g).fnAt m = s.fnAt m := by
  simp [State.fnAt, State.modFn, nth, List.getD, Ne.symm h]

end

/-! MSI-X vectors (R62) -/

/-- A function with a vector raised: sent, or pending where it is masked (R62). -/
def Fn.raised (v : Nat) (x : Fn) : Fn :=
  if x.msixMask.contains v then { x with msixPend := (x.msixPend.filter (fun y => y != v)) ++ [v] } else { x with msixSent := x.msixSent ++ [v] }

theorem State.msix_eq (s : State) (f v : Nat) : s.msix f v = s.modFn f (Fn.raised v) := rfl

/-- A raised vector is sent at once or is pending, as its mask says (R62). -/
theorem Fn.raised_shows (v : Nat) (x : Fn) :
    if x.msixMask.contains v then v ∈ (x.raised v).msixPend else (x.raised v).msixSent = x.msixSent ++ [v] := by
  unfold Fn.raised
  split
  · simp
  · rfl

/-- Beside its vectors a function is as before. -/
theorem Fn.raised_frame (v : Nat) (x : Fn) : ∃ p q, x.raised v = { x with msixPend := p, msixSent := q } := by
  unfold Fn.raised
  split <;> exact ⟨_, _, rfl⟩

@[simp] theorem Fn.raised_st (v : Nat) (x : Fn) : (x.raised v).st = x.st := by obtain ⟨_, _, e⟩ := x.raised_frame v; rw [e]
@[simp] theorem Fn.raised_cause (v : Nat) (x : Fn) : (x.raised v).cause = x.cause := by obtain ⟨_, _, e⟩ := x.raised_frame v; rw [e]
@[simp] theorem Fn.raised_job (v : Nat) (x : Fn) : (x.raised v).job = x.job := by obtain ⟨_, _, e⟩ := x.raised_frame v; rw [e]
@[simp] theorem Fn.raised_box (v : Nat) (x : Fn) (b : Bool) : (x.raised v).box b = x.box b := by obtain ⟨_, _, e⟩ := x.raised_frame v; rw [e]; rfl

/-! Mailboxes (R63) -/

/-- A function with one of its mailboxes changed. -/
def Fn.mapBox (x : Fn) (b : Bool) (g : Mailbox → Mailbox) : Fn := if b then { x with service := g x.service } else { x with monitor := g x.monitor }

@[simp] theorem Fn.mapBox_box (x : Fn) (b : Bool) (g : Mailbox → Mailbox) : (x.mapBox b g).box b = g (x.box b) := by cases b <;> rfl
@[simp] theorem Fn.mapBox_msixMask (x : Fn) (b : Bool) (g : Mailbox → Mailbox) : (x.mapBox b g).msixMask = x.msixMask := by cases b <;> rfl
@[simp] theorem Fn.mapBox_msixSent (x : Fn) (b : Bool) (g : Mailbox → Mailbox) : (x.mapBox b g).msixSent = x.msixSent := by cases b <;> rfl

theorem State.modBox_eq (s : State) (f : Nat) (b : Bool) (g : Mailbox → Mailbox) : s.modBox f b g = s.modFn f (fun x => x.mapBox b g) := rfl

/-- Bytes put into a payload stand there in their order, and every other place is as before. -/
theorem fill_get (bs : List Byte) (off k i : Nat) (p : SMap Byte) :
    SMap.get 0 ((bs.zipIdx k).foldl (fun p b => SMap.set 0 p (off + b.2) b.1) p) (off + i) =
      if k ≤ i ∧ i < k + bs.length then nth 0 bs (i - k) else SMap.get 0 p (off + i) := by
  induction bs generalizing k p with
  | nil =>
    rw [if_neg (by rw [List.length_nil]; omega)]
    rfl
  | cons b r ih =>
    simp only [List.zipIdx_cons, List.foldl_cons, ih, SMap.get_set, List.length_cons]
    by_cases h : k = i
    · subst h
      rw [if_neg (by omega), if_pos rfl, if_pos (by omega), Nat.sub_self]
      rfl
    · by_cases h' : k + 1 ≤ i ∧ i < k + 1 + r.length
      · rw [if_pos h', if_pos (by omega), show i - k = (i - (k + 1)) + 1 by omega]
        simp [nth]
      · rw [if_neg h', if_neg (by omega), if_neg (by omega)]

theorem Mailbox.fill_payload (m : Mailbox) (bs : List Byte) {i : Nat} (h : i < bs.length) : SMap.get 0 (m.fill 0 bs).payload i = nth 0 bs i := by
  have e := fill_get bs 0 0 i m.payload
  rw [if_pos (by omega), Nat.zero_add, Nat.sub_zero] at e
  exact e

/-! A command (R63) -/

section
variable {s : State} {f inlen need : Nat} {b : Bool} {run : List Byte → State → State × Nat × List Byte}

theorem State.command_busy (h : ((s.fnAt f).box b).busy = true) : s.command f b inlen need run = s := by
  simp only [State.command, h, if_true]

theorem State.command_short (h : ((s.fnAt f).box b).busy = false) (l : inlen < need) : s.command f b inlen need run = s.working f b 4 [] := by
  simp only [State.command, h, Bool.false_eq_true, if_false, if_pos l]; rfl

theorem State.command_runs {u : State} {result : Nat} {out : List Byte} (h : ((s.fnAt f).box b).busy = false) (l : need ≤ inlen)
    (r : run (((s.fnAt f).box b).input inlen) s = (u, result, out)) : s.command f b inlen need run = u.working f b result out := by
  simp only [State.command, h, Bool.false_eq_true, if_false, if_neg (Nat.not_lt.mpr l), r]; rfl

end

/-- An unknown command in a mailbox that the function may use is a command with RESULT 2 (R54, R63). -/
theorem exec_unknownCommand {f : Fin 9} {b : Bool} (own : ¬ (b = true ∧ f.val ≠ 0)) (k : BitVec 16) (s : State) :
    exec (.unknownCommand f b k) s = .next (s.begun.command f.val b 0 0 (fun _ s => (s, 2, []))) :=
  congrArg Host.Outcome.next (if_neg own)

/-- Every command that takes an input is run by its mailbox (R63). -/
theorem mailForm_command {i : Instr} {f inlen need : Nat} {b : Bool} (h : mailForm i = some (f, b, inlen, need)) :
    ∃ run, ∀ s, exec i s = .next (s.begun.command f b inlen need run) := by
  unfold mailForm at h
  split at h
  case h_11 =>
    split at h
    · cases h
    · rename_i own
      cases h
      exact ⟨_, exec_unknownCommand (by simpa using own) _⟩
  case h_12 => cases h
  all_goals
    cases h
    exact ⟨_, fun _ => rfl⟩

/-- A command with enough input in an idle mailbox is in progress, with what its run gives. -/
theorem exec_command {i : Instr} {f inlen need : Nat} {b : Bool} {run : List Byte → State → State × Nat × List Byte} {s u : State} {result : Nat}
    {out : List Byte} (e : exec i s = .next (s.begun.command f b inlen need run)) (h : ((s.fnAt f).box b).busy = false) (l : need ≤ inlen)
    (r : run (((s.fnAt f).box b).input inlen) s.begun = (u, result, out)) : exec i s = .next (u.working f b result out) :=
  e.trans (congrArg Host.Outcome.next (State.command_runs (s := s.begun) h l r))

end Sys2Proof.Machine
end

section
/-!
O58: what each mailbox command does (R17, R21, R23, R25, R26, R47, R53, R55, R63, R67, R223).
-/
namespace Sys2Proof.Machine


/-! DEVNUM and GDISSOLVE (R25, R63) -/

section
variable {s : State} {f : Nat} {bs : List Byte}

theorem devnumRun_refused (h : f ≠ 0 ∨ (∃ x ∈ s.fns, x.st ≠ 0) ∨ s.fabric.devnum.isSome = true) : devnumRun f bs s = (s, 3, []) := by
  unfold devnumRun
  rw [if_pos (by simpa [State.anyJob, or_assoc] using h)]

theorem devnumRun_taken (h : ¬ (f ≠ 0 ∨ (∃ x ∈ s.fns, x.st ≠ 0) ∨ s.fabric.devnum.isSome = true)) :
    devnumRun f bs s = if 4095 < fieldAt bs 0 2 then (s, 4, [])
      else ({ s with fabric := { s.fabric with devnum := some (fieldAt bs 0 2) } }, 0, []) := by
  unfold devnumRun
  rw [if_neg (by simpa [State.anyJob, or_assoc] using h)]

theorem gdissolveRun_mine (h : ∃ x ∈ s.fabric.groups, x.num = fieldAt bs 0 2 ∧ x.fn = f) : gdissolveRun f bs s =
    ({ s with fabric := { s.fabric with groups := s.fabric.groups.filter (fun x => !(x.num == fieldAt bs 0 2 && x.fn == f)) } }, 0, []) := by
  unfold gdissolveRun
  rw [if_pos (by simpa using h)]

theorem gdissolveRun_other (h : ∀ x ∈ s.fabric.groups, ¬ (x.num = fieldAt bs 0 2 ∧ x.fn = f)) : gdissolveRun f bs s = (s, 4, []) := by
  unfold gdissolveRun
  rw [if_neg (by simpa using h)]

/-! CKPTAUTH (R47) -/

/-- The range that a CKPTAUTH names. -/
def grantOf (bs : List Byte) : Grant := { dev := fieldAt bs 0 2, base := fieldAt bs 8 8, len := fieldAt bs 16 8 }

/-- What R47 asks of a CKPTAUTH's input: a device's number, a flag, and a range of the checkpoint regions, which stands where it is granted. -/
def State.grantRight (s : State) (bs : List Byte) : Prop :=
  (grantOf bs).dev ≤ 4095 ∧ fieldAt bs 4 4 ≤ 1 ∧ 0x140000000000 ≤ (grantOf bs).base ∧ (grantOf bs).base + (grantOf bs).len ≤ 0x180000000000 ∧
    (fieldAt bs 4 4 = 1 → s.ckptStands (grantOf bs).base (grantOf bs).len = true)

theorem ckptauthRun_vf (h : f ≠ 0) : ckptauthRun f bs s = (s, 3, []) := by
  unfold ckptauthRun
  rw [if_pos h]

theorem ckptauthRun_wrong (pf : f = 0) (h : ¬ s.grantRight bs) : ckptauthRun f bs s = (s, 4, []) := by
  unfold ckptauthRun
  rw [if_neg (Classical.not_not.mpr pf), if_pos]
  simp only [State.grantRight, grantOf, Classical.not_and_iff_not_or_not, Nat.not_le, Classical.not_imp, Bool.not_eq_true] at h
  exact h

/-- The grants once a CKPTAUTH has granted its range or revoked it (R47). -/
def grantsAfter (bs : List Byte) (gs : List Grant) : List Grant :=
  if fieldAt bs 4 4 = 1 then gs.filter (fun x => x != grantOf bs) ++ [grantOf bs] else gs.filter (fun x => x != grantOf bs)

theorem ckptauthRun_right (pf : f = 0) (h : s.grantRight bs) :
    ckptauthRun f bs s = ({ s with fabric := { s.fabric with grants := grantsAfter bs s.fabric.grants } }, 0, []) := by
  unfold ckptauthRun
  rw [if_neg (Classical.not_not.mpr pf), if_neg]
  · rfl
  · rintro (dev | flag | base | top | ⟨grant, stands⟩)
    · exact Nat.not_le.mpr dev h.1
    · exact Nat.not_le.mpr flag h.2.1
    · exact Nat.not_le.mpr base h.2.2.1
    · exact Nat.not_le.mpr top h.2.2.2.1
    · exact Bool.false_ne_true (stands.symm.trans (h.2.2.2.2 grant))

/-! ASSIGN (R53) -/

/-- The clusters and the share that an ASSIGN gives. -/
def maskOf (bs : List Byte) : BitVec 32 := BitVec.ofNat 32 (fieldAt bs 4 4)
def shareOf (bs : List Byte) : List (Nat × Nat) := [(fieldAt bs 8 8, fieldAt bs 16 8), (fieldAt bs 24 8, fieldAt bs 32 8)].filter (fun r => r.2 != 0)

theorem assignRun_vf (h : f ≠ 0) : assignRun f bs s = (s, 3, []) := by
  unfold assignRun
  rw [if_pos h]

theorem assignRun_number (pf : f = 0) (h : fieldAt bs 0 4 = 0 ∨ 8 < fieldAt bs 0 4) : assignRun f bs s = (s, 4, []) := by
  unfold assignRun
  rw [if_neg (Classical.not_not.mpr pf), if_pos h]

theorem assignRun_job (pf : f = 0) (h : 1 ≤ fieldAt bs 0 4) (h8 : fieldAt bs 0 4 ≤ 8) (st : (s.fnAt (fieldAt bs 0 4)).st ≠ 0) : assignRun f bs s = (s, 3, []) := by
  unfold assignRun
  rw [if_neg (Classical.not_not.mpr pf), if_neg (by omega), if_pos st]

/-- The clusters of the virtual functions. -/
def State.takenClusters (s : State) : BitVec 32 := (List.range 9).foldl (fun (m : BitVec 32) n => if n = 0 then m else m ||| (s.fnAt n).clusters) 0

/-- A virtual function gets clusters and a share, and the physical one the clusters that no virtual function has (R53). -/
def State.assigned (s : State) (vf : Nat) (mask : BitVec 32) (share : List (Nat × Nat)) : State :=
  (s.modFn vf (fun x => { x with clusters := mask, share := share })).modFn 0
    (fun x => { x with clusters := ~~~ (s.modFn vf (fun x => { x with clusters := mask, share := share })).takenClusters })

theorem assignRun_free (pf : f = 0) (h : 1 ≤ fieldAt bs 0 4) (h8 : fieldAt bs 0 4 ≤ 8) (st : (s.fnAt (fieldAt bs 0 4)).st = 0)
    (apart : ∀ m, 1 ≤ m → m ≤ 8 → m ≠ fieldAt bs 0 4 → (s.fnAt m).clusters &&& maskOf bs = 0 ∧
      ∀ a ∈ (s.fnAt m).share, ∀ b ∈ shareOf bs, overlaps a.1 a.2 b.1 b.2 = false)
    (regions : ∀ r ∈ shareOf bs, inMemory r.1 r.2 = true) :
    assignRun f bs s = (s.assigned (fieldAt bs 0 4) (maskOf bs) (shareOf bs), 0, []) := by
  unfold assignRun
  rw [if_neg (Classical.not_not.mpr pf), if_neg (by omega), if_neg (by simpa using st), if_neg]
  · rfl
  · rw [Bool.or_eq_true, List.any_eq_true, Bool.not_eq_true']
    rintro (⟨m, hm, clash⟩ | out)
    · simp only [List.mem_filter, List.mem_range, Bool.and_eq_true, bne_iff_ne, ne_eq] at hm
      obtain ⟨hc, hs⟩ := apart m (by omega) (by omega) hm.2.2
      rw [Bool.or_eq_true, bne_iff_ne, List.any_eq_true] at clash
      rcases clash with clash | ⟨a, ha, clash⟩
      · exact clash hc
      · obtain ⟨b, hb, meet⟩ := List.any_eq_true.mp clash
        exact Bool.false_ne_true ((hs a ha b hb).symm.trans meet)
    · exact Bool.false_ne_true (out.symm.trans (List.all_eq_true.mpr regions))

end

/-- A cluster is taken when a virtual function has it. -/
theorem getLsbD_union (l : List Nat) (g : Nat → BitVec 32) (m : BitVec 32) (c : Nat) :
    (l.foldl (fun (m : BitVec 32) n => if n = 0 then m else m ||| g n) m).getLsbD c = true ↔ m.getLsbD c = true ∨ ∃ n ∈ l, n ≠ 0 ∧ (g n).getLsbD c = true := by
  induction l generalizing m with
  | nil => simp
  | cons a r ih =>
    rw [List.foldl_cons, ih]
    by_cases h : a = 0
    · subst h; simp
    · simp [h, or_assoc]

theorem State.takenClusters_iff (s : State) (c : Nat) :
    s.takenClusters.getLsbD c = true ↔ ∃ m, 1 ≤ m ∧ m ≤ 8 ∧ (s.fnAt m).clusters.getLsbD c = true := by
  unfold State.takenClusters
  rw [getLsbD_union]
  constructor
  · rintro (z | ⟨n, hn, hz, e⟩)
    · simp at z
    · exact ⟨n, by omega, by have := List.mem_range.mp hn; omega, e⟩
  · rintro ⟨m, h1, h8, e⟩
    exact .inr ⟨m, List.mem_range.mpr (by omega), by omega, e⟩

/-- What an assignment makes of every function (R53). -/
theorem State.assigned_shows {s : State} {vf : Nat} (mask : BitVec 32) (share : List (Nat × Nat)) (len : s.fns.length = 9) (h1 : 1 ≤ vf) (h8 : vf ≤ 8) :
    ((s.assigned vf mask share).fnAt vf).clusters = mask ∧ ((s.assigned vf mask share).fnAt vf).share = share ∧
    (∀ c, c < 32 → (((s.assigned vf mask share).fnAt 0).clusters.getLsbD c = true ↔
      ∀ m, 1 ≤ m → m ≤ 8 → ((s.assigned vf mask share).fnAt m).clusters.getLsbD c = false)) ∧
    (∀ m, m ≠ 0 → m ≠ vf → (s.assigned vf mask share).fnAt m = s.fnAt m) := by
  have others (m : Nat) (h : m ≠ 0) : (s.assigned vf mask share).fnAt m = (s.modFn vf (fun x => { x with clusters := mask, share := share })).fnAt m :=
    State.fnAt_modFn_ne h
  have own := State.fnAt_modFn_same (g := fun x : Fn => { x with clusters := mask, share := share }) (show vf < s.fns.length by omega)
  refine ⟨by rw [others vf (by omega), own], by rw [others vf (by omega), own], fun c hc => ?_, fun m h0 hv => ?_⟩
  · have zero : ((s.assigned vf mask share).fnAt 0).clusters = ~~~ (s.modFn vf (fun x => { x with clusters := mask, share := share })).takenClusters := by
      unfold State.assigned
      rw [State.fnAt_modFn_same (by rw [State.modFn_length]; omega)]
    rw [zero, BitVec.getLsbD_not, decide_eq_true hc, Bool.true_and, Bool.not_eq_true', ← Bool.not_eq_true, State.takenClusters_iff]
    constructor
    · intro none m h1 h8
      rw [others m (by omega), ← Bool.not_eq_true]
      exact fun e => none ⟨m, h1, h8, e⟩
    · rintro none ⟨m, h1, h8, e⟩
      rw [← others m (by omega), none m h1 h8] at e
      exact Bool.false_ne_true e
  · rw [others m h0]
    exact State.fnAt_modFn_ne hv

/-! GFORM (R26) -/

/-- No session is cut off while no connection of lane 7 is closed (R34, R112). -/
theorem State.cutSessions_open {s : State} (h : ∀ x ∈ s.fabric.closed, x.lane ≠ 7) : s.cutSessions = s := by
  have apart (x : Session) : s.cutOff x = false := by
    rw [← Bool.not_eq_true]
    simp only [State.cutOff, Bool.and_eq_true, List.any_eq_true, List.contains_iff_mem, not_and, not_exists]
    exact fun _ _ _ _ m _ closed => h _ closed rfl
  have none_ : s.sessions.filter (fun x => x.st == 0 && s.cutOff x) = [] :=
    List.filter_eq_nil_iff.mpr fun x _ => by rw [apart x, Bool.and_false]; exact Bool.false_ne_true
  rw [State.cutSessions, none_]
  rfl

theorem eraseDups_of_nodup {l : List Nat} (h : l.Nodup) : l.eraseDups = l := by
  induction l with
  | nil => rfl
  | cons a r ih =>
    obtain ⟨out, nodup⟩ := List.nodup_cons.mp h
    have keep : r.filter (fun b => !b == a) = r :=
      List.filter_eq_self.mpr fun b hb => by simpa using fun e : b = a => out (e ▸ hb)
    rw [List.eraseDups_cons, keep, ih nodup]

section
variable {s : State} {f : Nat} {bs : List Byte}

theorem gformRun_unready (h : s.fabric.devnum = none ∨ ¬ ((s.fnAt f).st = 2 ∨ (s.fnAt f).st = 5 ∨ (s.fnAt f).st = 6)) : gformRun f bs s = (s, 3, []) := by
  unfold gformRun
  cases e : s.fabric.devnum with
  | none => rfl
  | some dev =>
    rw [e] at h
    simp only [reduceCtorEq, false_or, not_or] at h
    simp only [if_pos h]

/-- The list that a GFORM names, as the Larder reads it, and the state in which it is read. -/
def State.groupList (s : State) (bs : List Byte) : List Byte × State := s.larderRead (fieldAt bs 8 8) (2 * fieldAt bs 2 2)

/-- The members that the list names. -/
def State.groupMembers (s : State) (bs : List Byte) : List Nat := (List.range (fieldAt bs 2 2)).map (fun i => fieldAt (s.groupList bs).1 (2 * i) 2)

/-- What R26 and R63 ask of a GFORM by device `dev`, with no connection of lane 7 closed. -/
structure State.FormsGroup (s : State) (f : Nat) (bs : List Byte) (dev : Nat) : Prop where
  devnum : s.fabric.devnum = some dev
  live : (s.fnAt f).st = 2 ∨ (s.fnAt f).st = 5 ∨ (s.fnAt f).st = 6
  number : fieldAt bs 0 2 ≠ 0
  two : 2 ≤ fieldAt bs 2 2
  most : fieldAt bs 2 2 ≤ 4096
  zero : fieldAt bs 4 4 = 0
  owns : (s.fnAt f).owns (fieldAt bs 8 8) (2 * fieldAt bs 2 2) = true
  fabric : (s.groupList bs).2.fabric = s.fabric
  opened : ∀ x ∈ s.fabric.closed, x.lane ≠ 7
  new : ∀ x ∈ s.fabric.groups, x.num ≠ fieldAt bs 0 2
  room : s.fabric.groups.length < 64
  nodup : (s.groupMembers bs).Nodup
  devices : ∀ m ∈ s.groupMembers bs, m ≤ 4095
  self : dev ∈ s.groupMembers bs

/-- The fabric interface with the group formed (R26). -/
def Fabric.formed (fab : Fabric) (f : Nat) (bs : List Byte) (ms : List Nat) : Fabric :=
  { fab with groups := fab.groups ++ [{ num := fieldAt bs 0 2, members := ms, fn := f }], ended := fab.ended.filter (fun x => x != fieldAt bs 0 2) }

theorem gformRun_formed {dev : Nat} (h : s.FormsGroup f bs dev) :
    gformRun f bs s = ({ (s.groupList bs).2 with fabric := s.fabric.formed f bs (s.groupMembers bs) }, 0, []) := by
  have pass : ¬ (s.fabric.groups.any (fun g => g.num == fieldAt bs 0 2) || decide (64 ≤ s.fabric.groups.length) ||
      decide ((s.groupMembers bs).eraseDups.length < fieldAt bs 2 2) || (s.groupMembers bs).any (fun m => decide (4095 < m)) ||
      !(s.groupMembers bs).contains dev) = true := by
    rw [eraseDups_of_nodup h.nodup]
    simp only [Bool.or_eq_true, List.any_eq_true, beq_iff_eq, decide_eq_true_eq, Bool.not_eq_true', not_or, not_exists, not_and]
    exact ⟨⟨⟨⟨h.new, Nat.not_le.mpr h.room⟩, by simp [State.groupMembers]⟩, fun m hm => Nat.not_lt.mpr (h.devices m hm)⟩, by simpa using h.self⟩
  rw [← h.fabric] at pass
  have live := h.live
  have input : ¬ (fieldAt bs 0 2 = 0 ∨ fieldAt bs 2 2 < 2 ∨ 4096 < fieldAt bs 2 2 ∨ fieldAt bs 4 4 ≠ 0 ∨
      (s.fnAt f).owns (fieldAt bs 8 8) (2 * fieldAt bs 2 2) = false) := by
    rintro (number | two | most | zero | owns)
    · exact h.number number
    · exact Nat.not_lt.mpr h.two two
    · exact Nat.not_lt.mpr h.most most
    · exact zero h.zero
    · exact Bool.false_ne_true (owns.symm.trans h.owns)
  unfold gformRun
  split
  · rename_i e
    cases h.devnum.symm.trans e
  · rename_i d e
    cases h.devnum.symm.trans e
    rw [if_neg (by omega), if_neg input]
    refine (if_neg pass).trans ?_
    have same : ({ (s.groupList bs).2 with fabric := (s.groupList bs).2.fabric.formed f bs (s.groupMembers bs) } : State) =
        { (s.groupList bs).2 with fabric := s.fabric.formed f bs (s.groupMembers bs) } := by rw [h.fabric]
    exact congrArg (fun u : State => (u, 0, [])) ((congrArg State.cutSessions same).trans (State.cutSessions_open h.opened))

/-! CKPTSEND (R17) -/

theorem ckptsendRun_refused (h : f ≠ 0 ∨ s.fabric.devnum = none) : ckptsendRun f bs s = (s, 3, []) := by
  unfold ckptsendRun
  rw [if_pos h]

theorem ckptsendRun_running (pf : f = 0) (h : s.fabric.devnum ≠ none) (fn : fieldAt bs 0 2 ≤ 8) (dev : fieldAt bs 2 2 ≤ 4095) (st : (s.fnAt (fieldAt bs 0 2)).st ≠ 6) :
    ckptsendRun f bs s = (s, 3, []) := by
  unfold ckptsendRun
  rw [if_neg (by simp [h, pf]), if_neg (by omega), if_pos st]

theorem ckptsendRun_sends {j : Job} (pf : f = 0) (h : s.fabric.devnum ≠ none) (fn : fieldAt bs 0 2 ≤ 8) (dev : fieldAt bs 2 2 ≤ 4095)
    (st : (s.fnAt (fieldAt bs 0 2)).st = 6) (hj : s.jobAt (fieldAt bs 0 2) = some j)
    (opened : s.fabric.closed.contains { mcast := false, peer := fieldAt bs 2 2, lane := 6 } = false) :
    ckptsendRun f bs s = (State.moverGo 4097 { s with fabric := { s.fabric with
        mover := some { fn := fieldAt bs 0 2, dev := fieldAt bs 2 2, total := 256 * (s.ckptPackets j (fieldAt bs 2 2) (fieldAt bs 8 8)).length,
                        queue := s.ckptPackets j (fieldAt bs 2 2) (fieldAt bs 8 8) } } },
      0, toBytes 8 (256 * (s.ckptPackets j (fieldAt bs 2 2) (fieldAt bs 8 8)).length)) := by
  unfold ckptsendRun
  rw [if_neg (by simp [h, pf]), if_neg (by omega), if_neg (by simpa using st)]
  simp only [opened, Bool.false_eq_true, if_false, hj]

end

/-! Service firmware's commands (R21, R23, R223) -/

/-- A state with other tuning passes running. -/
def State.withPasses (s : State) (ps : List TuneRes) : State := { s with ladders := { s.ladders with passes := ps } }

theorem State.startPass_eq (s : State) (r : TuneRes) :
    s.startPass r = s.withPasses (if s.ladders.passes.contains r then s.ladders.passes else s.ladders.passes ++ [r]) := by
  unfold State.startPass
  split <;> rfl

/-- The pending passes start, and nothing else changes (R21, R234). -/
theorem State.startPasses (ns : List Nat) (s : State) : ∃ ps, ns.foldl (fun s n => s.startPass (passOf n)) s = s.withPasses ps ∧
    ∀ r, r ∈ ps ↔ r ∈ s.ladders.passes ∨ ∃ k ∈ ns, r = passOf k := by
  induction ns generalizing s with
  | nil => exact ⟨s.ladders.passes, rfl, by simp⟩
  | cons n ns ih =>
    obtain ⟨ps, e, mem⟩ := ih (s.startPass (passOf n))
    rw [State.startPass_eq] at e mem
    refine ⟨ps, by rw [List.foldl_cons, State.startPass_eq, e]; rfl, fun r => ?_⟩
    have head : r ∈ (if s.ladders.passes.contains (passOf n) then s.ladders.passes else s.ladders.passes ++ [passOf n]) ↔
        r ∈ s.ladders.passes ∨ r = passOf n := by
      split
      · rename_i old
        exact ⟨.inl, fun h => h.elim id (fun e => e ▸ List.contains_iff_mem.mp old)⟩
      · simp
    rw [mem r]
    simp only [State.withPasses, head, List.mem_cons, exists_eq_or_imp, or_assoc]

section
variable {s : State} {bs : List Byte}

theorem tuneRun_refused (h : s.anyJob = true) : tuneRun bs s = (s, 3, []) := by
  unfold tuneRun
  rw [if_pos h]

theorem tuneRun_starts (h : s.anyJob = false) : ∃ ps, tuneRun bs s = (({ s with fresh := s.fresh + 1 } : State).withPasses ps, 0, []) ∧
    ∀ r, r ∈ ps ↔ r ∈ s.ladders.passes ∨ ∃ k ∈ Config.pendingPasses s.fresh, r = passOf k := by
  obtain ⟨ps, e, mem⟩ := State.startPasses (Config.pendingPasses s.fresh) { s with fresh := s.fresh + 1 }
  refine ⟨ps, ?_, mem⟩
  unfold tuneRun
  rw [if_neg (by simp [h]), e]

theorem clkcapRun_wrong (h : fieldAt bs 0 4 < 8 ∨ 14 < fieldAt bs 0 4) : clkcapRun bs s = (s, 4, []) := by
  unfold clkcapRun
  rw [if_pos h]

theorem clkcapRun_caps (lo : 8 ≤ fieldAt bs 0 4) (hi : fieldAt bs 0 4 ≤ 14) :
    clkcapRun bs s = ({ s with service := { s.service with
      ceiling := 100 * fieldAt bs 0 4, clockMHz := if s.service.hot = [] then 100 * fieldAt bs 0 4 else min s.service.clockMHz (100 * fieldAt bs 0 4) } }, 0, []) := by
  unfold clkcapRun
  rw [if_neg (by omega)]
  simp only [List.isEmpty_iff]

end

/-! Completion (R63) -/

/-- The mailbox of a command that has completed: its RESULT and its output (R63). -/
def Mailbox.completed (m : Mailbox) : Mailbox :=
  Mailbox.fill { busy := false, result := m.pendResult, outlen := m.pendOut.length, payload := [], pendResult := 0, pendOut := [] } 0 m.pendOut

/-- The vector of a mailbox (R62). -/
def mailVector (b : Bool) : Nat := if b then 2 else 1

theorem State.completeMailbox_idle {s : State} {f : Nat} {b : Bool} (h : ((s.fnAt f).box b).busy = false) : s.completeMailbox f b = s := by
  simp only [State.completeMailbox, h, Bool.not_false, Bool.true_or, if_true]

theorem State.completeMailbox_done {s : State} {f : Nat} {b : Bool} (h : ((s.fnAt f).box b).busy = true)
    (free : f ≠ 0 ∨ b = true ∨ s.fabric.mover = none) : s.completeMailbox f b = (s.modBox f b Mailbox.completed).msix f (mailVector b) := by
  have go : ¬ (!((s.fnAt f).box b).busy || (f == 0 && !b && s.fabric.mover.isSome)) = true := by
    rw [h]
    rcases free with h | h | h <;> simp [h]
  unfold State.completeMailbox
  exact if_neg go

theorem State.fnAt_completed {s : State} {f : Nat} (b : Bool) (l : f < s.fns.length) :
    ((s.modBox f b Mailbox.completed).msix f (mailVector b)).fnAt f = ((s.fnAt f).mapBox b Mailbox.completed).raised (mailVector b) := by
  rw [State.msix_eq, State.modBox_eq, State.fnAt_modFn_same (by rwa [State.modFn_length]), State.fnAt_modFn_same l]

end Sys2Proof.Machine
end

section
/-!
O58: the obligation, command by command.
-/
namespace Sys2Proof.Machine

/-- R63's common part: nothing while a command is in progress, and RESULT 4 for an input that is too short. -/
theorem mailForm_guards {i : Instr} {f inlen need : Nat} {b : Bool} {s : State} (h : mailForm i = some (f, b, inlen, need)) :
    (((s.fnAt f).box b).busy = true → exec i s = .next s.begun) ∧
    (((s.fnAt f).box b).busy = false → inlen < need → exec i s = .next (s.begun.working f b 4 [])) := by
  obtain ⟨run, e⟩ := mailForm_command h
  rw [e]
  exact ⟨fun busy => congrArg Host.Outcome.next (State.command_busy (s := s.begun) busy),
    fun idle short => congrArg Host.Outcome.next (State.command_short (s := s.begun) idle short)⟩

section
variable {s : State} {f : Fin 9} {n : Nat} (idle : ((s.fnAt f.val).box false).busy = false)
include idle

/-- What a command's run in the Monitor's mailbox of a function leaves. -/
theorem exec_monitor {i : Instr} {need result : Nat} {run : List Byte → State → State × Nat × List Byte} {u : State} {out : List Byte} (l : need ≤ n)
    (e : exec i s = .next (s.begun.command f.val false n need run)) (r : run ((s.fnAt f.val).monitor.input n) s.begun = (u, result, out)) :
    exec i s = .next (u.working f.val false result out) := exec_command e idle l r

end

/-- Settles O58: each command's run, branch by branch, and for the completion the mailbox and the vector of its function. -/
theorem mailboxCommands : Obligations.MailboxCommands := by
  refine ⟨fun i f inlen need b s h => mailForm_guards h, ?monitor, ?service, ?unknown, ?complete⟩
  case monitor =>
    intro s f n idle v ends bs g fab
    refine ⟨fun l => exec_monitor idle l rfl rfl, fun l => ?devnum, fun l => ?ckptauth, fun l len => ?assign, fun l => ?groups⟩
    case devnum =>
      refine ⟨fun h => exec_monitor idle l rfl (devnumRun_refused (s := v) h), fun h big => ?_, fun h small => ?_,
        fun h => exec_monitor idle l rfl (gdissolveRun_mine (s := v) h), fun h => exec_monitor idle l rfl (gdissolveRun_other (s := v) h)⟩
      · exact exec_monitor idle l rfl ((devnumRun_taken (s := v) h).trans (if_pos big))
      · exact exec_monitor idle l rfl ((devnumRun_taken (s := v) h).trans (if_neg (Nat.not_lt.mpr small)))
    case ckptauth =>
      refine ⟨fun vf => exec_monitor idle l rfl (ckptauthRun_vf vf), fun pf wrong => ?_, fun pf right => ?_⟩
      · exact exec_monitor idle l rfl (ckptauthRun_wrong (s := v) pf wrong)
      · exact exec_monitor idle l rfl (ckptauthRun_right (s := v) pf right)
    case assign =>
      refine ⟨fun vf => exec_monitor idle l rfl (assignRun_vf vf), fun pf h => ?_, fun pf h1 h8 st => ?_, fun pf h1 h8 st apart regions => ?_⟩
      · exact exec_monitor idle l rfl (assignRun_number pf h)
      · exact exec_monitor idle l rfl (assignRun_job (s := v) pf h1 h8 st)
      · have e := exec_monitor (i := .assign f n) idle l rfl (assignRun_free (s := v) pf h1 h8 st apart regions)
        obtain ⟨clusters, share, rest, others⟩ := State.assigned_shows (s := v) (maskOf bs) (shareOf bs) len h1 h8
        exact ⟨_, e, clusters, share, rest, others, rfl, rfl⟩
    case groups =>
      intro num k pa r ms live
      refine ⟨fun h => exec_monitor idle l rfl (gformRun_unready (s := v) h), ?formed, fun h => exec_monitor idle l rfl (ckptsendRun_refused (s := v) h), ?sends⟩
      case formed =>
        intro dev hd hl hn h2 h4096 hz own hfab opened new room nodup devices self
        exact exec_monitor idle l rfl (gformRun_formed (s := v) ⟨hd, hl, hn, h2, h4096, hz, own, hfab, opened, new, room, nodup, devices, self⟩)
      case sends =>
        intro pf hd fn dev
        refine ⟨fun st => exec_monitor idle l rfl (ckptsendRun_running (s := v) pf hd fn dev st), fun j st hj opened => ?_⟩
        exact exec_monitor idle l rfl (ckptsendRun_sends (s := v) pf hd fn dev st hj opened)
  case service =>
    intro s n idle k
    refine ⟨fun job => exec_command rfl idle (Nat.zero_le n) (tuneRun_refused (s := s.begun) job), fun none => ?tune,
      fun l h => exec_command rfl idle l (clkcapRun_wrong h), fun l lo hi => exec_command rfl idle l (clkcapRun_caps lo hi),
      exec_command rfl idle (Nat.zero_le n) rfl⟩
    case tune =>
      obtain ⟨ps, e, mem⟩ := tuneRun_starts (s := s.begun) (bs := (s.fnAt 0).service.input n) none
      exact ⟨_, exec_command rfl idle (Nat.zero_le n) e, rfl, mem, rfl, rfl⟩
  case unknown =>
    intro s f b k idle
    refine ⟨fun own => ?_, fun service vf => ?_⟩
    · have mine : ¬ (b = true ∧ f.val ≠ 0) := by rcases own with rfl | own <;> simp [*]
      exact exec_command (exec_unknownCommand mine k s) idle (Nat.le_refl 0) rfl
    · exact congrArg Host.Outcome.next (if_pos ⟨service, vf⟩)
  case complete =>
    intro s f b len m vec
    refine ⟨fun idle => congrArg Host.Outcome.next (State.completeMailbox_idle (s := s.begun) idle), fun busy free => ?_⟩
    have shown := State.fnAt_completed (s := s.begun) b (show f.val < s.fns.length by have := f.isLt; omega)
    refine ⟨_, congrArg Host.Outcome.next (State.completeMailbox_done (s := s.begun) busy free), ?_⟩
    rw [shown]
    simp only [Fn.raised_box, Fn.mapBox_box]
    refine ⟨rfl, rfl, rfl, fun i hi => Mailbox.fill_payload _ _ hi, ?_, rfl, rfl⟩
    have vector := Fn.raised_shows (mailVector b) ((s.fnAt f.val).mapBox b Mailbox.completed)
    rw [Fn.mapBox_msixMask, Fn.mapBox_msixSent] at vector
    exact vector

end Sys2Proof.Machine
end

section
/-!
What the Larder's operations and the end of a job leave to the host's side: functions, service firmware, ladders and the Distributor (R23, R59, R157).
-/
namespace Sys2Proof.Machine

/-! Operations at the Larder -/

/-- Two states differ only in what a plain access at the Larder may change: cores, the Larder's lines, spilled records and free values (R105, R135,
R156 to R158). -/
def State.LarderStep (s t : State) : Prop := ∃ c p l r x n, t = { s with core := c, parked := p, larder := l, reduce := r, sessions := x, fresh := n }

theorem State.LarderStep.refl (s : State) : s.LarderStep s := ⟨_, _, _, _, _, _, rfl⟩

theorem State.LarderStep.trans {s t u : State} (h : s.LarderStep t) (g : t.LarderStep u) : s.LarderStep u := by
  obtain ⟨_, _, _, _, _, _, rfl⟩ := h
  obtain ⟨_, _, _, _, _, _, rfl⟩ := g
  exact ⟨_, _, _, _, _, _, rfl⟩

theorem State.CoresOnly.larderStep {s t : State} (h : s.CoresOnly t) : s.LarderStep t := by
  obtain ⟨_, _, rfl⟩ := h
  exact ⟨_, _, _, _, _, _, rfl⟩

section
variable {s t : State} (h : s.LarderStep t)
include h

theorem State.LarderStep.fns : t.fns = s.fns := by obtain ⟨_, _, _, _, _, _, rfl⟩ := h; rfl
theorem State.LarderStep.service : t.service = s.service := by obtain ⟨_, _, _, _, _, _, rfl⟩ := h; rfl

end

theorem State.foldl_larderStep {α : Type} {g : State → α → State} (h : ∀ (s : State) (a : α), s.LarderStep (g s a)) (l : List α) (s : State) :
    s.LarderStep (l.foldl g s) := by
  induction l generalizing s with
  | nil => exact .refl s
  | cons a r ih => exact (h s a).trans (ih _)

theorem State.hitWatch_larderStep (s : State) (line : Nat) : s.LarderStep (s.hitWatch line) := by
  refine State.foldl_larderStep (fun s c => ?_) s.cores s
  split
  · exact (s.modCore_coresOnly c.id _).larderStep
  · exact .refl s

theorem State.spoilSpills_larderStep (s : State) (pa n : Nat) : s.LarderStep (s.spoilSpills pa n) := by
  unfold State.spoilSpills
  split <;> exact ⟨_, _, _, _, _, _, rfl⟩

theorem State.applyDeltas_larderStep (s : State) (u : UpdLine) : s.LarderStep (s.applyDeltas u) :=
  State.foldl_larderStep (fun _ _ => ⟨_, _, _, _, _, _, rfl⟩) u.deltas s

theorem State.mergeOf_larderStep (s : State) (n line : Nat) : s.LarderStep (s.mergeOf n line) := by
  unfold State.mergeOf
  split
  · exact .refl s
  · exact (((s.spoilSpills_larderStep _ _).trans (State.applyDeltas_larderStep _ _)).trans (State.modCore_coresOnly _ _ _).larderStep).trans
      (State.hitWatch_larderStep _ _)

theorem State.resolve_larderStep (s : State) (line : Nat) : s.LarderStep (s.resolve line) := by
  unfold State.resolve
  split
  · exact .refl s
  · exact ⟨_, _, _, _, _, _, rfl⟩

theorem State.settle_larderStep (s : State) (line : Nat) : s.LarderStep (s.settle line) :=
  (State.foldl_larderStep (fun s (c : Core) => s.mergeOf_larderStep c.id line) s.cores s).trans (State.resolve_larderStep _ line)

theorem State.larderWrite_larderStep (s : State) (pa : Nat) (bs : List Byte) : s.LarderStep (s.larderWrite pa bs) := by
  unfold State.larderWrite
  split
  · exact .refl s
  · have settled := State.foldl_larderStep State.settle_larderStep (linesOf pa bs.length) s
    exact ((settled.trans (State.spoilSpills_larderStep _ pa bs.length)).trans ⟨_, _, _, _, _, _, rfl⟩).trans
      (State.foldl_larderStep State.hitWatch_larderStep _ _)

/-! The end of a job (R59) -/

theorem State.fnAt_congr {s t : State} (h : t.fns = s.fns) (n : Nat) : t.fnAt n = s.fnAt n := by rw [State.fnAt, h, State.fnAt]

theorem State.jobAt_congr {s t : State} (h : t.fns = s.fns) (n : Nat) : t.jobAt n = s.jobAt n := congrArg Fn.job (State.fnAt_congr h n)

@[simp] theorem State.applyHeld_fns (s : State) : s.applyHeld.fns = s.fns := by unfold State.applyHeld; split <;> rfl
@[simp] theorem State.applyHeld_service (s : State) : s.applyHeld.service = s.service := by unfold State.applyHeld; split <;> rfl

/-- The work of a job goes without a change of any function or of service firmware. -/
theorem State.dropWork_host (s : State) (f : Nat) : (s.dropWork f).fns = s.fns ∧ (s.dropWork f).service = s.service := by
  have resolved := State.foldl_larderStep (fun s (r : RedLine) => s.resolve_larderStep r.line) (s.reduce.filter (fun r => r.fn == f)) s
  have vacated (t : State) : t.LarderStep (t.cores.foldl (fun s c => if c.run ≠ .idle && c.task.fn == f then s.modCore c.id Core.vacate else s) t) :=
    State.foldl_larderStep (fun s c => by
      split
      · exact (s.modCore_coresOnly c.id _).larderStep
      · exact .refl s) _ t
  have untranslated (t : State) :
      t.LarderStep (t.cores.foldl (fun s c => s.modCore c.id (fun c => { c with tlb := c.tlb.filter (fun e => e.fn != f) })) t) :=
    State.foldl_larderStep (fun s (c : Core) => (s.modCore_coresOnly c.id _).larderStep) _ t
  have step := (resolved.trans (vacated _)).trans (untranslated _)
  exact ⟨step.fns, step.service⟩

/-- A function without its job, which ended with a cause (R55, R59). -/
def Fn.ended (cause : Nat) (x : Fn) : Fn := { x with job := none, st := 0, cause := cause, meas3 := 0 }

section
variable {s : State} {f cause detail : Nat} {status : Bool}

theorem State.endJob_none (h : s.jobAt f = none) : s.endJob f cause detail status = s := by simp only [State.endJob, h]

/-- The end of a job, function by function: its own has none any more and vector 0 raised. -/
theorem State.endJob_fns {j : Job} (h : s.jobAt f = some j) :
    (s.endJob f cause detail status).fns = ((s.modFn f (Fn.ended cause)).msix f 0).fns := by
  have dropped := (s.dropWork_host f).1
  have written : (if status then (s.dropWork f).larderWrite j.stat
      (toBytes 8 (j.token.toNat * 2 ^ 32 + detail % 2 ^ 16 * 2 ^ 16 + cause * 2 ^ 8)) else s.dropWork f).fns = s.fns := by
    split
    · exact (State.larderWrite_larderStep _ _ _).fns.trans dropped
    · exact dropped
  simp only [State.endJob, h, State.applyHeld_fns]
  split <;> simp only [State.msix, State.modFn, State.fnAt, State.logError, written] <;> rfl

/-- Only a fault that ends a job is logged by its end (log 106). -/
theorem State.endJob_service (h : cause ≠ 3) : (s.endJob f cause detail status).service = s.service := by
  unfold State.endJob
  split
  · rfl
  · simp only [if_neg h, State.applyHeld_service, State.msix, State.modFn_service]
    split
    · exact (State.larderWrite_larderStep _ _ _).service.trans (s.dropWork_host f).2
    · exact (s.dropWork_host f).2

theorem State.endJob_length : (s.endJob f cause detail status).fns.length = s.fns.length := by
  cases h : s.jobAt f with
  | none => rw [State.endJob_none h]
  | some j => simp [State.endJob_fns h, State.msix]

theorem State.fnAt_endJob_same {j : Job} (h : s.jobAt f = some j) (l : f < s.fns.length) :
    (s.endJob f cause detail status).fnAt f = ((s.fnAt f).ended cause).raised 0 := by
  rw [State.fnAt_congr (State.endJob_fns h), State.msix_eq, State.fnAt_modFn_same (by rwa [State.modFn_length]), State.fnAt_modFn_same l]

theorem State.fnAt_endJob_ne {n : Nat} (h : n ≠ f) : (s.endJob f cause detail status).fnAt n = s.fnAt n := by
  cases hj : s.jobAt f with
  | none => rw [State.endJob_none hj]
  | some j => rw [State.fnAt_congr (State.endJob_fns hj), State.msix_eq, State.fnAt_modFn_ne h, State.fnAt_modFn_ne h]

/-- Its function has no job once it has ended. -/
theorem State.jobAt_endJob (l : f < s.fns.length) : (s.endJob f cause detail status).jobAt f = none := by
  cases hj : s.jobAt f with
  | none => rwa [State.endJob_none hj]
  | some j => rw [State.jobAt, State.fnAt_endJob_same hj l, Fn.raised_job]; rfl

end

/-- Jobs of a list of functions end: none of these has one any more, and no other function gets one. -/
theorem State.endJobs {l : List Nat} {s : State} {cause detail : Nat} (lt : ∀ f ∈ l, f < s.fns.length) {n : Nat} (h : s.jobAt n = none ∨ n ∈ l) :
    (l.foldl (fun s f => if (s.jobAt f).isSome then s.endJob f cause detail true else s) s).jobAt n = none ∧
    (l.foldl (fun s f => if (s.jobAt f).isSome then s.endJob f cause detail true else s) s).fns.length = s.fns.length := by
  induction l generalizing s with
  | nil => exact ⟨h.resolve_right List.not_mem_nil, rfl⟩
  | cons f r ih =>
    have skip : (if (s.jobAt f).isSome then s.endJob f cause detail true else s) = s.endJob f cause detail true := by
      cases hj : s.jobAt f with
      | none => rw [State.endJob_none hj]; rfl
      | some j => rfl
    simp only [List.foldl_cons, skip]
    have len : (s.endJob f cause detail true).fns.length = s.fns.length := State.endJob_length
    rw [← len] at lt ⊢
    refine ih (fun g hg => lt g (List.mem_cons_of_mem f hg)) ?_
    by_cases e : n = f
    · subst e
      exact .inl (State.jobAt_endJob (len ▸ lt n List.mem_cons_self))
    · rcases h with h | h
      · exact .inl (by rw [State.jobAt, State.fnAt_endJob_ne e]; exact h)
      · exact .inr ((List.mem_cons.mp h).resolve_left e)

/-! A vector of every function (R62) -/

/-- Vector `v` of a function is sent or pending. -/
def Fn.Shows (v : Nat) (x : Fn) : Prop := v ∈ x.msixSent ∨ v ∈ x.msixPend

theorem Fn.raised_showsIt (v : Nat) (x : Fn) : (x.raised v).Shows v := by
  unfold Fn.raised Fn.Shows
  split <;> simp

/-- A vector of the functions of a list: each of these shows it, those that did still do, and jobs are as before. -/
theorem State.msixEach {l : List Nat} {s : State} {v : Nat} (lt : ∀ f ∈ l, f < s.fns.length) :
    ∀ n, (l.foldl (fun s f => s.msix f v) s).jobAt n = s.jobAt n ∧ ((s.fnAt n).Shows v ∨ n ∈ l → ((l.foldl (fun s f => s.msix f v) s).fnAt n).Shows v) := by
  induction l generalizing s with
  | nil => exact fun n => ⟨rfl, fun h => h.resolve_right List.not_mem_nil⟩
  | cons f r ih =>
    have hf : f < s.fns.length := lt f List.mem_cons_self
    have each := ih (s := s.msix f v) (fun g hg => by simpa [State.msix] using lt g (List.mem_cons_of_mem f hg))
    intro n
    rw [List.foldl_cons]
    obtain ⟨job, shows_⟩ := each n
    rw [job]
    by_cases e : n = f
    · subst e
      have own : (s.msix n v).fnAt n = (s.fnAt n).raised v := State.fnAt_modFn_same hf
      exact ⟨by rw [State.jobAt, own, Fn.raised_job]; rfl, fun _ => shows_ (.inl (own ▸ Fn.raised_showsIt v _))⟩
    · have other : (s.msix f v).fnAt n = s.fnAt n := State.fnAt_modFn_ne e
      refine ⟨by rw [State.jobAt, other]; rfl, fun h => shows_ ?_⟩
      rw [other]
      exact h.imp_right fun h => (List.mem_cons.mp h).resolve_left e

end Sys2Proof.Machine
end

section
/-!
Job validation and the start of a root task (R57, R58, R80).
-/
namespace Sys2Proof.Machine

/-! What is known of an image that is accepted (R56, R58) -/

section
variable {ε α : Type} {c : Prop} [Decidable c] {e : ε} {x : Except ε α} {y z : α}

/-- A check that rejects was passed. -/
theorem not_of_checked (h : (if c then .error e else x) = .ok y) : ¬ c ∧ x = .ok y := by
  split at h
  · cases h
  · exact ⟨‹_›, h⟩

/-- A check that accepts was passed. -/
theorem of_checked (h : (if c then .ok z else .error e) = Except.ok y) : c ∧ z = y := by
  split at h
  · exact ⟨‹_›, Except.ok.inj h⟩
  · cases h

end

/-- An image that is accepted holds its inbox and lies below the end of memory, and its job is at the header's address, below 2^56 (R56, R57). -/
theorem State.validate_ok {s : State} {f : Nat} {j : Job} {k : KernelHeader} {img : Nat} {h : ImageHeader} (v : s.validate f = .ok (j, k, img, h)) :
    j.imgva < 2 ^ 56 ∧ h.inbox + 4096 ≤ h.len ∧ h.len ≤ 0xC000000000 := by
  obtain ⟨-, v⟩ := not_of_checked v
  obtain ⟨-, v⟩ := not_of_checked v
  obtain ⟨place, v⟩ := not_of_checked v
  obtain ⟨-, v⟩ := not_of_checked v
  obtain ⟨-, v⟩ := not_of_checked v
  obtain ⟨-, v⟩ := not_of_checked v
  obtain ⟨-, v⟩ := not_of_checked v
  obtain ⟨-, v⟩ := not_of_checked v
  generalize parseKernel _ = kern at v
  cases kern with
  | none => cases v
  | some _ =>
    dsimp only at v
    obtain ⟨good, v⟩ := of_checked v
    simp only [Prod.mk.injEq] at v
    obtain ⟨rfl, -, -, rfl⟩ := v
    simp only [Bool.and_eq_true, decide_eq_true_eq, Bool.not_eq_true', Bool.not_eq_false, insideImage] at good place
    obtain ⟨⟨⟨_, lt⟩, _⟩, _⟩ := good
    obtain ⟨⟨⟨⟨⟨⟨⟨⟨⟨⟨⟨⟨⟨⟨_, len⟩, _⟩, _⟩, _⟩, _⟩, _⟩, _⟩, inbox⟩, _⟩, _⟩, _⟩, _⟩, _⟩, _⟩ := place
    exact ⟨lt, inbox, by omega⟩

/-! A rejection (R58) -/

section
variable {s : State} {f code : Nat}

/-- The state of a rejection before its function is told: with a status word for the codes from 3 on (R58, R59). -/
def State.rejecting (s : State) (f code : Nat) : State :=
  if 3 ≤ code then
    s.larderWrite ((s.fnAt f).latched + (imageHeader (s.imageBytes (s.fnAt f).latched 128)).stat)
      (toBytes 8 ((s.fnAt f).token.toNat * 2 ^ 32 + code * 2 ^ 16 + 4 * 2 ^ 8))
  else s

/-- A function whose image is rejected (R58). -/
def Fn.rejected (x : Fn) : Fn := { x with st := 0, cause := 4 }

theorem State.rejectJob_eq (s : State) (f code : Nat) : s.rejectJob f code = ((s.rejecting f code).modFn f Fn.rejected).msix f 0 := rfl

theorem State.rejecting_unwritten (h : code < 3) : s.rejecting f code = s := if_neg (Nat.not_le.mpr h)

theorem State.rejecting_written (h : 3 ≤ code) : s.rejecting f code =
    s.larderWrite ((s.fnAt f).latched + (imageHeader (s.imageBytes (s.fnAt f).latched 128)).stat)
      (toBytes 8 ((s.fnAt f).token.toNat * 2 ^ 32 + code * 2 ^ 16 + 4 * 2 ^ 8)) := if_pos h

theorem State.rejectJob_mem : (s.rejectJob f code).mem = (s.rejecting f code).mem := rfl
theorem State.rejectJob_larder : (s.rejectJob f code).larder = (s.rejecting f code).larder := rfl

theorem State.rejecting_fns : (s.rejecting f code).fns = s.fns := by
  unfold State.rejecting
  split
  · exact (s.larderWrite_larderStep _ _).fns
  · rfl

theorem State.fnAt_rejectJob (l : f < s.fns.length) : (s.rejectJob f code).fnAt f = ((s.fnAt f).rejected).raised 0 := by
  have l' : f < (s.rejecting f code).fns.length := by rwa [State.rejecting_fns]
  rw [State.rejectJob_eq, State.msix_eq, State.fnAt_modFn_same (by rwa [State.modFn_length]), State.fnAt_modFn_same l',
    State.fnAt_congr State.rejecting_fns]

end

/-! Registers and control registers of a new task (R80) -/

theorem Core.ctl_setCtl (c : Core) (k n : Nat) (v : Word) : (c.setCtl k v).ctl n = if k = n then v else c.ctl n := SMap.get_set 0 c.cr k n v

theorem Core.cell_setCell (c : Core) (k n : Nat) (r : RegCell) : (c.setCell k r).cell n = if k = n then r else c.cell n :=
  SMap.get_set RegCell.zero c.regs k n r

/-- Loading control registers changes these alone. -/
theorem Core.loadCtl_frame (c : Core) (l : List (Nat × Nat)) : ∃ r, c.loadCtl l = { c with cr := r } := by
  unfold Core.loadCtl
  induction l generalizing c with
  | nil => exact ⟨_, rfl⟩
  | cons p r ih =>
    obtain ⟨x, e⟩ := ih (c.setCtl p.1 (BitVec.ofNat 64 p.2))
    exact ⟨x, e⟩

/-- Three words of arguments are in s0 to s2, and nothing else of the core changes. -/
theorem Core.loadArgs_three (c : Core) (x y z : Word) : ∃ r, c.loadArgs [x, y, z] = { c with regs := r } ∧
    ((c.loadArgs [x, y, z]).cell (regKey 0 0)).val = x.zeroExtend 2048 ∧ ((c.loadArgs [x, y, z]).cell (regKey 0 1)).val = y.zeroExtend 2048 ∧
    ((c.loadArgs [x, y, z]).cell (regKey 0 2)).val = z.zeroExtend 2048 := by
  refine ⟨_, rfl, ?_, ?_, ?_⟩ <;> simp [Core.loadArgs, List.zipIdx, Core.cell_setCell, regKey]

/-! The core of a root task (R57) -/

/-- The cores for a root task depend on the power, on its function's clusters, on rungs and passes, on which cores are idle and which are BUSY or
held. -/
theorem State.rootCores_congr {s t : State} {f caps : Nat} (power : t.powered = s.powered) (clusters : (t.fnAt f).clusters = (s.fnAt f).clusters)
    (ladders : t.ladders = s.ladders) (run : ∀ n, (t.coreAt n).run = (s.coreAt n).run) (busy : t.dist.busy = s.dist.busy)
    (held : t.dist.held = s.dist.held) : t.rootCores f caps = s.rootCores f caps := by
  unfold State.rootCores State.eligible State.holdsCaps State.bitmapWord State.fullBanks State.rung State.isFree State.passOn
  simp only [power, clusters, ladders, run, busy, held]

/-- The core that is chosen is one of those it is chosen from (log 1). -/
theorem State.rootPlace_mem {s : State} {f caps : Nat} (h : s.rootCores f caps ≠ []) : s.rootPlace f caps ∈ s.rootCores f caps := by
  have lt : Config.choice s.fresh % (s.rootCores f caps).length < (s.rootCores f caps).length := Nat.mod_lt _ (List.length_pos_iff.mpr h)
  have e : s.rootPlace f caps = (s.rootCores f caps)[Config.choice s.fresh % (s.rootCores f caps).length] := by
    simp only [State.rootPlace, nth, List.getD, List.getElem?_eq_getElem lt, Option.getD_some]
  exact e ▸ List.getElem_mem lt

theorem State.coreAt_putCore (s : State) (c : Core) : (s.putCore c).coreAt c.id = c := by
  unfold State.putCore State.modCore
  split
  · exact if_pos rfl
  · rename_i other
    simp only [State.coreAt, if_neg other, SMap.get_set, if_true]

theorem State.putCore_coresOnly (s : State) (c : Core) : s.CoresOnly (s.putCore c) := s.modCore_coresOnly c.id _

/-- Where every parked core stands under its number, so does every core. -/
theorem State.coreAt_id {s : State} (h : ∀ p ∈ s.parked, p.2.id = p.1) (n : Nat) : (s.coreAt n).id = n := by
  have parked : ∀ l : SMap Core, (∀ p ∈ l, p.2.id = p.1) → (SMap.get (Core.reset n) l n).id = n := by
    intro l
    induction l with
    | nil => intro _; rfl
    | cons p r ih =>
      intro h
      unfold SMap.get
      split
      · exact (h p List.mem_cons_self).trans ‹_›
      · exact ih fun q hq => h q (List.mem_cons_of_mem p hq)
  unfold State.coreAt
  split
  · rename_i e
    exact e.symm
  · exact parked s.parked h

/-! A job opens (R57, R66, R80) -/

/-- A core that a job start leaves without tiles (R80). -/
def Core.untiled (c : Core) : Core := { c with tiles := [], tileBase := none, tflights := [] }

/-- Which cores lie in the clusters of a function. -/
def State.owned (s : State) (f : Nat) (c : Core) : Bool := (s.fnAt f).clusters.getLsbD (c.id / 8)

/-- The cores of a job's clusters lose their tiles. -/
def State.untile (s : State) (f : Nat) : State := s.cores.foldl (fun t c => if s.owned f c then t.modCore c.id Core.untiled else t) s

theorem State.untile_coresOnly (s : State) (f : Nat) : s.CoresOnly (s.untile f) :=
  State.foldl_coresOnly (fun t c => by
    split
    · exact t.modCore_coresOnly c.id _
    · exact .refl t) s.cores s

theorem State.coreAt_untile (s : State) (f n : Nat) : (s.untile f).coreAt n = s.coreAt n ∨ (s.untile f).coreAt n = (s.coreAt n).untiled := by
  have e := State.coreAt_modCores (g := Core.untiled) (fun _ => rfl) (fun _ => rfl) (s.owned f) s.cores s n
  unfold State.untile
  rw [e]
  split
  · exact .inr rfl
  · exact .inl rfl

/-- A function whose job has started (R57). -/
def Fn.opened (x : Fn) (j : Job) (ext : Option Extension) (meas3 : BitVec 512) : Fn := { x with st := 2, job := some j, ext := ext, meas3 := meas3 }

/-- A state with other placement pointers (R81). -/
def State.withPointers (s : State) (p : List Nat) : State := { s with dist := { s.dist with pointers := p } }

/-- A job that opens has its cores without tiles and its function running, and new placement pointers. -/
theorem State.openJob_eq (s : State) (f : Nat) (j : Job) (k : KernelHeader) (img : Nat) (h : ImageHeader) :
    ∃ e m p, s.openJob f j k img h = ((s.untile f).modFn f (Fn.opened · j e m)).withPointers p := ⟨_, _, _, rfl⟩

section
variable {s : State} {f : Nat} {j : Job} {k : KernelHeader} {img : Nat} {h : ImageHeader}

/-- What a job that opens leaves as it is. -/
theorem State.openJob_keeps : (s.openJob f j k img h).mem = s.mem ∧ (s.openJob f j k img h).pantry = s.pantry ∧
    (s.openJob f j k img h).dist.nextTask = s.dist.nextTask ∧ (s.openJob f j k img h).dist.busy = s.dist.busy := by
  obtain ⟨e, m, p, eq⟩ := s.openJob_eq f j k img h
  have only := s.untile_coresOnly f
  rw [eq]
  exact ⟨only.mem, only.pantry, (congrArg Dist.nextTask only.dist :), (congrArg Dist.busy only.dist :)⟩

/-- The function of a job that opens. -/
theorem State.fnAt_openJob (l : f < s.fns.length) : ((s.openJob f j k img h).fnAt f).st = 2 ∧ ((s.openJob f j k img h).fnAt f).job = some j ∧
    ((s.openJob f j k img h).fnAt f).clusters = (s.fnAt f).clusters := by
  obtain ⟨e, m, p, eq⟩ := s.openJob_eq f j k img h
  have only := (s.untile_coresOnly f).fns
  have at_ : (s.openJob f j k img h).fnAt f = (s.fnAt f).opened j e m := by
    rw [eq]
    refine (State.fnAt_modFn_same (s := s.untile f) (g := (Fn.opened · j e m)) (by rwa [only])).trans ?_
    rw [State.fnAt_congr only]
  rw [at_]
  exact ⟨rfl, rfl, rfl⟩

/-- Every core of a job that opens is as it was, or without tiles. -/
theorem State.coreAt_openJob (n : Nat) :
    (s.openJob f j k img h).coreAt n = s.coreAt n ∨ (s.openJob f j k img h).coreAt n = (s.coreAt n).untiled := by
  obtain ⟨e, m, p, eq⟩ := s.openJob_eq f j k img h
  rw [eq]
  exact s.coreAt_untile f n

/-- A root task has the same cores to choose from once its job has opened. -/
theorem State.rootCores_openJob (l : f < s.fns.length) (caps : Nat) : (s.openJob f j k img h).rootCores f caps = s.rootCores f caps := by
  obtain ⟨-, -, clusters⟩ := State.fnAt_openJob (j := j) (k := k) (img := img) (h := h) l
  have run (n : Nat) : ((s.openJob f j k img h).coreAt n).run = (s.coreAt n).run := by
    rcases State.coreAt_openJob (s := s) (f := f) (j := j) (k := k) (img := img) (h := h) n with e | e
    · rw [e]
    · rw [e, Core.untiled]
  obtain ⟨e, m, p, eq⟩ := s.openJob_eq f j k img h
  have only := s.untile_coresOnly f
  refine State.rootCores_congr ?_ clusters ?_ run ?_ ?_ <;> rw [eq]
  · exact only.powered
  · exact only.ladders
  · exact (congrArg Dist.busy only.dist :)
  · exact (congrArg Dist.held only.dist :)

end

/-! The root task starts (R57, R80) -/

section
variable (s : State) (f : Nat) (j : Job) (k : KernelHeader) (h : ImageHeader)

/-- The root task. -/
def State.rootTask (s : State) (f : Nat) (j : Job) (h : ImageHeader) : TaskId :=
  { num := s.dist.nextTask, fn := f, root := true, launch := 0, gang := 0, rank := 0, lctr := 0, phase := 0,
    atticSize := (nth { attic := 0, carve := [] } j.phases 0).attic,
    args := [BitVec.ofNat 64 j.imgva, BitVec.ofNat 64 (j.imgva + h.inbox), j.token.zeroExtend 64] }

/-- A core with the root task, before its control registers and arguments are loaded. -/
def State.rootFresh (s : State) (f : Nat) (j : Job) (k : KernelHeader) (h : ImageHeader) : Core :=
  (s.coreAt (s.rootPlace f k.caps)).fresh (s.fabric.devnum.getD 0xFFFF) (s.rootTask f j h)
    { addr := j.imgva + h.root, len := k.len, encver := k.encver, det := k.det } (BitVec.ofNat 64 (j.imgva + h.root + k.entry)) .s

/-- The control registers that a root task's start loads (R80). -/
def rootCtl (j : Job) (k : KernelHeader) (h : ImageHeader) : List (Nat × Nat) :=
  [(0x009, steerOf 0 k.steer), (0x011, 1), (0x030, j.imgva + h.attic), (0x033, j.imgva + h.ctx),
    (0x034, if k.drainOff = 0 then 0 else j.imgva + h.root + k.drainOff), (0x035, k.drainN)]

/-- A core as the root task's start leaves it. -/
def State.startedCore (s : State) (f : Nat) (j : Job) (k : KernelHeader) (h : ImageHeader) : Core :=
  ((s.rootFresh f j k h).loadCtl (rootCtl j k h)).loadArgs (s.rootTask f j h).args

theorem State.startRoot_eq : s.startRoot f j k h =
    { s.putCore (s.startedCore f j k h) with
      fresh := (s.putCore (s.startedCore f j k h)).fresh + 1,
      dist := { (s.putCore (s.startedCore f j k h)).dist with
                nextTask := (s.putCore (s.startedCore f j k h)).dist.nextTask + 1,
                busy := (s.putCore (s.startedCore f j k h)).dist.busy ++ [s.rootPlace f k.caps] } } := rfl

/-- Beside its registers and control registers a root task's core is as `Core.fresh` gives it. -/
theorem State.startedCore_frame : ∃ x y, s.startedCore f j k h = { s.rootFresh f j k h with cr := x, regs := y } := by
  obtain ⟨x, e⟩ := (s.rootFresh f j k h).loadCtl_frame (rootCtl j k h)
  obtain ⟨y, e', -⟩ := ((s.rootFresh f j k h).loadCtl (rootCtl j k h)).loadArgs_three (BitVec.ofNat 64 j.imgva) (BitVec.ofNat 64 (j.imgva + h.inbox))
    (j.token.zeroExtend 64)
  rw [e] at e'
  exact ⟨x, y, (congrArg (fun c => Core.loadArgs c _) e).trans e'⟩

/-- The core of a root task once it has started: at S level at its kernel's entry, with its task (R57). -/
theorem State.startedCore_runs : (s.startedCore f j k h).id = (s.coreAt (s.rootPlace f k.caps)).id ∧ (s.startedCore f j k h).run = .running ∧
    (s.startedCore f j k h).level = .s ∧ (s.startedCore f j k h).handler = .main ∧
    (s.startedCore f j k h).pc = BitVec.ofNat 64 (j.imgva + h.root + k.entry) ∧ (s.startedCore f j k h).task = s.rootTask f j h := by
  obtain ⟨x, y, e⟩ := s.startedCore_frame f j k h
  rw [e]
  exact ⟨rfl, rfl, rfl, rfl, rfl, rfl⟩

/-- The arguments of a root task in s0 to s2 (R57). -/
theorem State.startedCore_args (va : j.imgva < 2 ^ 64) (inbox : j.imgva + h.inbox < 2 ^ 64) :
    ((s.startedCore f j k h).cell (regKey 0 0)).val = BitVec.ofNat 2048 j.imgva ∧
    ((s.startedCore f j k h).cell (regKey 0 1)).val = BitVec.ofNat 2048 (j.imgva + h.inbox) ∧
    ((s.startedCore f j k h).cell (regKey 0 2)).val = BitVec.ofNat 2048 j.token.toNat := by
  obtain ⟨-, -, s0, s1, s2⟩ := ((s.rootFresh f j k h).loadCtl (rootCtl j k h)).loadArgs_three (BitVec.ofNat 64 j.imgva)
    (BitVec.ofNat 64 (j.imgva + h.inbox)) (j.token.zeroExtend 64)
  refine ⟨s0.trans ?_, s1.trans ?_, s2.trans ?_⟩
  · exact BitVec.setWidth_ofNat_of_le_of_lt (by decide) va
  · exact BitVec.setWidth_ofNat_of_le_of_lt (by decide) inbox
  · have token : j.token.zeroExtend 64 = BitVec.ofNat 64 j.token.toNat := (BitVec.ofNat_toNat 64 j.token).symm
    rw [token]
    exact BitVec.setWidth_ofNat_of_le_of_lt (by decide) (Nat.lt_trans j.token.isLt (by decide))

/-- The root task's Attic and context (R57). -/
theorem State.startedCore_ctl : (s.startedCore f j k h).ctl 0x030 = BitVec.ofNat 64 (j.imgva + h.attic) ∧
    (s.startedCore f j k h).ctl 0x033 = BitVec.ofNat 64 (j.imgva + h.ctx) := by
  obtain ⟨_, e, -⟩ := ((s.rootFresh f j k h).loadCtl (rootCtl j k h)).loadArgs_three (BitVec.ofNat 64 j.imgva) (BitVec.ofNat 64 (j.imgva + h.inbox))
    (j.token.zeroExtend 64)
  have loaded (n : Nat) : (s.startedCore f j k h).ctl n = ((s.rootFresh f j k h).loadCtl (rootCtl j k h)).ctl n :=
    (congrArg (Core.ctl · n) e :)
  constructor <;> simp [loaded, Core.loadCtl, rootCtl, Core.ctl_setCtl]

/-- What the start of a root task leaves as it is, and what the Distributor has then. -/
theorem State.startRoot_keeps : (s.startRoot f j k h).fns = s.fns ∧ (s.startRoot f j k h).mem = s.mem ∧ (s.startRoot f j k h).pantry = s.pantry ∧
    (s.startRoot f j k h).dist.nextTask = s.dist.nextTask + 1 ∧ (s.startRoot f j k h).dist.busy = s.dist.busy ++ [s.rootPlace f k.caps] := by
  have only := s.putCore_coresOnly (s.startedCore f j k h)
  rw [State.startRoot_eq]
  exact ⟨only.fns, only.mem, only.pantry, (congrArg (fun d : Dist => d.nextTask + 1) only.dist :),
    (congrArg (fun d : Dist => d.busy ++ [s.rootPlace f k.caps]) only.dist :)⟩

/-- The core of a root task, as its start leaves it. -/
theorem State.coreAt_startRoot (named : (s.coreAt (s.rootPlace f k.caps)).id = s.rootPlace f k.caps) :
    (s.startRoot f j k h).coreAt (s.rootPlace f k.caps) = s.startedCore f j k h := by
  obtain ⟨id, -⟩ := s.startedCore_runs f j k h
  have put := s.coreAt_putCore (s.startedCore f j k h)
  rw [id, named] at put
  exact put

end

end Sys2Proof.Machine
end

section
/-!
Validation, job start, heat, machine checks and tuning results: O59 (R21, R23, R57, R58, R223, R234).
-/
namespace Sys2Proof.Machine

/-! Validation (R57, R58) -/

theorem State.begun_fnAt (s : State) (n : Nat) : s.begun.fnAt n = s.fnAt n := rfl

theorem State.begun_coreAt_run (s : State) (n : Nat) : (s.begun.coreAt n).run = (s.coreAt n).run := by
  unfold State.coreAt State.begun
  by_cases focus : n = s.core.id
  · simp [focus]
  · simp [focus]

theorem State.begun_rootCores (s : State) (f caps : Nat) : s.begun.rootCores f caps = s.rootCores f caps :=
  State.rootCores_congr rfl rfl rfl s.begun_coreAt_run rfl rfl

section
variable {s : State} {f : Fin 9}

theorem exec_jobValidation : exec (.jobValidation f) s = .next (s.begun.validateJob f.val) := rfl

/-- A function that asks for no validation has none. -/
theorem jobValidation_other (h : (s.fnAt f.val).st ≠ 1) : exec (.jobValidation f) s = .next s.begun := congrArg Host.Outcome.next (if_pos h)

/-- A validation that finds a fault rejects the image. -/
theorem jobValidation_rejects {code : Nat} (h : (s.fnAt f.val).st = 1) (v : s.begun.validate f.val = .error code) :
    exec (.jobValidation f) s = .next (s.begun.rejectJob f.val code) := by
  have st : ¬ (s.begun.fnAt f.val).st ≠ 1 := Classical.not_not.mpr h
  rw [exec_jobValidation, State.validateJob, if_neg st, v]

/-- A job that passes validation starts where a core may have its root task and no pass keeps it waiting (R57, R234). -/
theorem jobValidation_accepts {j : Job} {k : KernelHeader} {img : Nat} {h : ImageHeader} (st : (s.fnAt f.val).st = 1)
    (v : s.begun.validate f.val = .ok (j, k, img, h)) :
    exec (.jobValidation f) s = .next (if (s.rootCores f.val k.caps).isEmpty || s.idlePass then s.begun
      else (s.begun.openJob f.val j k img h).startRoot f.val j k h) := by
  have st : ¬ (s.begun.fnAt f.val).st ≠ 1 := Classical.not_not.mpr st
  rw [exec_jobValidation, State.validateJob, if_neg st, v, ← s.begun_rootCores]
  rfl

/-- A rejection (R58). -/
theorem jobValidation_rejected {code : Nat} (len : s.fns.length = 9) (h : (s.fnAt f.val).st = 1) (v : s.begun.validate f.val = .error code) :
    ∃ t, exec (.jobValidation f) s = .next t ∧ (t.fnAt f.val).st = 0 ∧ (t.fnAt f.val).cause = 4 ∧ (t.fnAt f.val).job = (s.fnAt f.val).job ∧
      (code < 3 → t.mem = s.mem ∧ t.larder = s.larder) ∧
      (if (s.fnAt f.val).msixMask.contains 0 then 0 ∈ (t.fnAt f.val).msixPend else (t.fnAt f.val).msixSent = (s.fnAt f.val).msixSent ++ [0]) ∧
      (3 ≤ code →
        let img := (s.fnAt f.val).latched
        let u := s.begun.larderWrite (img + (imageHeader (s.begun.imageBytes img 128)).stat)
          (toBytes 8 ((s.fnAt f.val).token.toNat * 2 ^ 32 + code * 2 ^ 16 + 4 * 2 ^ 8))
        t.mem = u.mem ∧ t.larder = u.larder) := by
  have own : (s.begun.rejectJob f.val code).fnAt f.val = ((s.fnAt f.val).rejected).raised 0 :=
    State.fnAt_rejectJob (s := s.begun) (Nat.lt_of_lt_of_eq f.isLt len.symm)
  refine ⟨_, jobValidation_rejects h v, ?_, ?_, ?_, fun low => ?_, ?_, fun high => ?_⟩
  · rw [own, Fn.raised_st]; rfl
  · rw [own, Fn.raised_cause]; rfl
  · rw [own, Fn.raised_job]; rfl
  · rw [State.rejectJob_mem, State.rejectJob_larder, State.rejecting_unwritten low]
    exact ⟨rfl, rfl⟩
  · rw [own]
    exact Fn.raised_shows 0 (s.fnAt f.val).rejected
  · intro img u
    have written := State.rejecting_written (s := s.begun) (f := f.val) high
    rw [State.begun_fnAt] at written
    rw [State.rejectJob_mem, State.rejectJob_larder, written]
    exact ⟨rfl, rfl⟩

/-- A job start (R57). -/
theorem jobValidation_started {j : Job} {k : KernelHeader} {img : Nat} {h : ImageHeader} (len : s.fns.length = 9)
    (named : ∀ p ∈ s.parked, p.2.id = p.1) (st : (s.fnAt f.val).st = 1) (v : s.begun.validate f.val = .ok (j, k, img, h))
    (some_ : s.rootCores f.val k.caps ≠ []) (idle : s.idlePass = false) : ∃ t, exec (.jobValidation f) s = .next t ∧
      (t.fnAt f.val).st = 2 ∧ (t.fnAt f.val).job = some j ∧ t.dist.nextTask = s.dist.nextTask + 1 ∧ t.mem = s.mem ∧ t.pantry = s.pantry ∧
      ∃ n ∈ s.rootCores f.val k.caps, t.dist.busy = s.dist.busy ++ [n] ∧ (
        let c := t.coreAt n
        c.run = .running ∧ c.level = .s ∧ c.handler = .main ∧ c.pc = BitVec.ofNat 64 (j.imgva + h.root + k.entry) ∧ c.task.root = true ∧
        c.task.fn = f.val ∧ c.task.num = s.dist.nextTask ∧ (c.cell (regKey 0 0)).val = BitVec.ofNat 2048 j.imgva ∧
        (c.cell (regKey 0 1)).val = BitVec.ofNat 2048 (j.imgva + h.inbox) ∧ (c.cell (regKey 0 2)).val = BitVec.ofNat 2048 j.token.toNat ∧
        c.ctl 0x030 = BitVec.ofNat 64 (j.imgva + h.attic) ∧ c.ctl 0x033 = BitVec.ofNat 64 (j.imgva + h.ctx)) := by
  have inside : f.val < s.fns.length := Nat.lt_of_lt_of_eq f.isLt len.symm
  have go : ((s.rootCores f.val k.caps).isEmpty || s.idlePass) = false := by simpa [idle] using some_
  obtain ⟨va, inbox, top⟩ := State.validate_ok v
  obtain ⟨uSt, uJob, -⟩ := State.fnAt_openJob (s := s.begun) (j := j) (k := k) (img := img) (h := h) inside
  obtain ⟨uMem, uPantry, uTask, uBusy⟩ := State.openJob_keeps (s := s.begun) (f := f.val) (j := j) (k := k) (img := img) (h := h)
  have uCores := (State.rootCores_openJob (s := s.begun) (j := j) (k := k) (img := img) (h := h) inside k.caps).trans
    (s.begun_rootCores f.val k.caps)
  have uId (n : Nat) : ((s.begun.openJob f.val j k img h).coreAt n).id = n := by
    rcases State.coreAt_openJob (s := s.begun) (f := f.val) (j := j) (k := k) (img := img) (h := h) n with e | e
    · rw [e, State.coreAt_id (s := s.begun) named]
    · rw [e, Core.untiled, State.coreAt_id (s := s.begun) named]
  have starts : exec (.jobValidation f) s = .next ((s.begun.openJob f.val j k img h).startRoot f.val j k h) :=
    (jobValidation_accepts st v).trans (by rw [go]; rfl)
  generalize s.begun.openJob f.val j k img h = u at starts uSt uJob uMem uPantry uTask uBusy uCores uId
  obtain ⟨tFns, tMem, tPantry, tTask, tBusy⟩ := u.startRoot_keeps f.val j k h
  have place : u.rootPlace f.val k.caps ∈ s.rootCores f.val k.caps := uCores ▸ State.rootPlace_mem (uCores ▸ some_)
  obtain ⟨-, run, level, handler, pc, task⟩ := u.startedCore_runs f.val j k h
  obtain ⟨s0, s1, s2⟩ := u.startedCore_args f.val j k h (by omega) (by omega)
  obtain ⟨attic, ctx⟩ := u.startedCore_ctl f.val j k h
  refine ⟨u.startRoot f.val j k h, starts, (congrArg Fn.st (State.fnAt_congr tFns _)).trans uSt, (State.jobAt_congr tFns _).trans uJob, ?_, tMem.trans uMem,
    tPantry.trans uPantry, u.rootPlace f.val k.caps, place, ?_, ?_⟩
  · rw [tTask, uTask]; rfl
  · rw [tBusy, uBusy]; rfl
  · rw [State.coreAt_startRoot u f.val j k h (uId _)]
    exact ⟨run, level, handler, pc, by rw [task]; rfl, by rw [task]; rfl, by rw [task]; exact uTask, s0, s1, s2, attic, ctx⟩

end

/-! Heat and machine checks (R23, R223) -/

/-- Every job of the device ends as a trip ends it (R23, R223). -/
def State.allEnded (s : State) : State := (List.range 9).foldl (fun s f => if (s.jobAt f).isSome then s.endJob f 5 0x7F true else s) s

/-- A state whose junctions have these temperatures (R23). -/
def State.withTemps (s : State) (temps : List Nat) : State := { s with service := { s.service with temps := temps } }

theorem State.tripAt_eq (s : State) (die x : Nat) :
    s.tripAt die x = { (((s.withTemps (s.service.temps.set die x)).allEnded).logError 0x7F).msixAll 3 with powered := false } := rfl

theorem mem_range_lt {s : State} (len : s.fns.length = 9) : ∀ f ∈ List.range 9, f < s.fns.length :=
  fun _ h => Nat.lt_of_lt_of_eq (List.mem_range.mp h) len.symm

theorem State.jobAt_allEnded {s : State} (len : s.fns.length = 9) {f : Nat} (h : f < 9) : s.allEnded.jobAt f = none ∧ s.allEnded.fns.length = 9 := by
  obtain ⟨job, same⟩ := State.endJobs (cause := 5) (detail := 0x7F) (mem_range_lt len) (.inr (List.mem_range.mpr h))
  exact ⟨job, same.trans len⟩

/-- A trip ends every job and takes the compute dies' power (R23). -/
theorem State.tripAt_trips {s : State} {die x : Nat} (len : s.fns.length = 9) :
    (s.tripAt die x).powered = false ∧ ∀ f, f < 9 → ((s.tripAt die x).fnAt f).job = none := by
  rw [State.tripAt_eq]
  refine ⟨rfl, fun f h => ?_⟩
  obtain ⟨job, len'⟩ := State.jobAt_allEnded (s := s.withTemps (s.service.temps.set die x)) len h
  generalize (s.withTemps (s.service.temps.set die x)).allEnded = u at job len'
  have each := State.msixEach (s := u.logError 0x7F) (v := 3) (mem_range_lt len')
  exact (each f).1.trans job

section
variable {s : State} {d : Fin 4} {x : Nat}

theorem exec_thermalStep : exec (.thermalStep d x) s = .next (s.begun.thermalStep d.val x) := rfl

/-- The device once a junction has reported its temperature, before what its heat brings about (R23). -/
def State.reported (s : State) (die x : Nat) : State :=
  { s with fresh := s.fresh + 1,
           service := { s.service with temps := s.service.temps.set die x, powerMW := Config.powerMW s.fresh % 3000001, hot := s.service.hotAfter die x } }

/-- A device whose clock is lowered a step, down to 100 MHz (R23). -/
def State.throttled (s : State) : State := { s with service := { s.service with clockMHz := max 100 (s.service.clockMHz - 100) } }

theorem State.thermalStep_eq (s : State) (die x : Nat) : s.thermalStep die x =
    if 115000 ≤ x then (s.reported die x).tripAt die x
    else if (s.service.hotAfter die x).isEmpty then s.reported die x else (s.reported die x).throttled.msixAll 3 := rfl

/-- A report that leaves no junction hot changes nothing else. -/
theorem thermalStep_cool (h : x < 115000) (cool : s.service.hotAfter d.val x = []) : ∃ p, p ≤ 3000000 ∧ exec (.thermalStep d x) s = .next { s.begun with
    fresh := s.fresh + 1, service := { s.service with temps := s.service.temps.set d.val x, powerMW := p, hot := [] } } := by
  refine ⟨Config.powerMW s.fresh % 3000001, by omega, ?_⟩
  have cool' : s.begun.service.hotAfter d.val x = [] := cool
  rw [exec_thermalStep, State.thermalStep_eq, if_neg (by omega), State.reported, cool']
  rfl

/-- A report of 115 degrees or more is a trip. -/
theorem thermalStep_trips (h : 115000 ≤ x) (len : s.fns.length = 9) :
    ∃ t, exec (.thermalStep d x) s = .next t ∧ t.powered = false ∧ ∀ f, f < 9 → (t.fnAt f).job = none := by
  refine ⟨(s.begun.reported d.val x).tripAt d.val x, ?_, State.tripAt_trips len⟩
  rw [exec_thermalStep, State.thermalStep_eq, if_pos h]

/-- A report that leaves a junction hot lowers the clock and tells every function. -/
theorem thermalStep_hot (h : x < 115000) (hot : s.service.hotAfter d.val x ≠ []) :
    ∃ t, exec (.thermalStep d x) s = .next t ∧ t.service.temps = s.service.temps.set d.val x ∧ t.service.hot = s.service.hotAfter d.val x ∧
      t.service.clockMHz = max 100 (s.service.clockMHz - 100) ∧ t.core = s.begun.core ∧ t.mem = s.mem ∧
      (s.fns.length = 9 → ∀ f, f < 9 → 3 ∈ (t.fnAt f).msixSent ∨ 3 ∈ (t.fnAt f).msixPend) := by
  have hot' : ¬ (s.begun.service.hotAfter d.val x).isEmpty = true := by rwa [List.isEmpty_iff]
  refine ⟨(s.begun.reported d.val x).throttled.msixAll 3, ?_, ?_⟩
  · rw [exec_thermalStep, State.thermalStep_eq, if_neg (by omega), if_neg hot']
  · refine ⟨rfl, rfl, rfl, rfl, rfl, fun len f hf => ?_⟩
    have each := State.msixEach (s := (s.begun.reported d.val x).throttled) (v := 3) (mem_range_lt len)
    exact (each f).2 (.inr (List.mem_range.mpr hf))

end

theorem exec_thermalTrip {s : State} {d : Fin 4} : exec (.thermalTrip d) s = .next (s.begun.tripAt d.val 115000) := rfl

/-- A machine check ends its function's job and is logged (R223). -/
theorem machineCheck_ends {s : State} {f : Fin 9} (len : s.fns.length = 9) : ∃ t, exec (.machineCheck f) s = .next t ∧ (t.fnAt f.val).job = none ∧
    t.service.logged = s.service.logged ++ [0x7F] ∧ ((s.jobAt f.val).isSome = true → (t.fnAt f.val).st = 0 ∧ (t.fnAt f.val).cause = 5) := by
  have inside : f.val < s.begun.fns.length := Nat.lt_of_lt_of_eq f.isLt len.symm
  have uLen : f.val < (s.begun.endJob f.val 5 0x7F true).fns.length := by rwa [State.endJob_length]
  have own : (s.begun.checkMachine f.val).fnAt f.val = ((s.begun.endJob f.val 5 0x7F true).fnAt f.val).raised 3 := State.fnAt_modFn_same uLen
  refine ⟨s.begun.checkMachine f.val, rfl, ?_, ?_, fun some_ => ?_⟩
  · rw [own, Fn.raised_job]
    exact State.jobAt_endJob inside
  · exact congrArg (fun v : Service => v.logged ++ [0x7F]) (State.endJob_service (by decide))
  · obtain ⟨j, job⟩ := Option.isSome_iff_exists.mp some_
    rw [own, Fn.raised_st, Fn.raised_cause, State.fnAt_endJob_same (s := s.begun) job inside, Fn.raised_st, Fn.raised_cause]
    exact ⟨rfl, rfl⟩

/-! Tuning results (R21, R233, R234) -/

section
variable {s : State} {r : TuneRes} {g : BitVec 2}

theorem exec_tuningPassComplete : exec (.tuningPassComplete r g) s = .next (s.begun.tuned r g) := rfl

/-- A pass that does not run completes nothing. -/
theorem tuningPassComplete_none (h : r ∉ s.ladders.passes) : exec (.tuningPassComplete r g) s = .next s.begun := by
  have none_ : ¬ s.begun.ladders.passes.contains r = true := by simpa using h
  rw [exec_tuningPassComplete, State.tuned, if_neg none_]

/-- The ladders with the result of a pass held. -/
def Ladders.completed (l : Ladders) (r : TuneRes) (g : BitVec 2) : Ladders := { l with passes := l.passes.erase r, held := l.held ++ [(r, g)] }

/-- While a job runs the result is held (R21). -/
theorem tuningPassComplete_held (h : r ∈ s.ladders.passes) (job : s.fns.any (fun x => x.job.isSome) = true) :
    exec (.tuningPassComplete r g) s = .next { s.begun with ladders := s.ladders.completed r g } := by
  have some_ : s.begun.ladders.passes.contains r = true := by simpa using h
  rw [exec_tuningPassComplete, State.tuned, if_pos some_]
  exact congrArg Host.Outcome.next (if_pos job)

/-- With no job the result is in force at once (R21). -/
theorem tuningPassComplete_settled (h : r ∈ s.ladders.passes) (job : s.fns.any (fun x => x.job.isSome) = false) :
    exec (.tuningPassComplete r g) s = .next { s.begun with ladders := (s.ladders.completed r g).settled } := by
  have some_ : s.begun.ladders.passes.contains r = true := by simpa using h
  rw [exec_tuningPassComplete, State.tuned, if_pos some_]
  exact congrArg Host.Outcome.next (if_neg (by simp [State.begun, job]))

end

theorem bitVec2_cases (g : BitVec 2) : g = 0 ∨ g = 1 ∨ g = 2 ∨ g = 3 := by
  revert g
  decide

/-- The classes that an engine keeps at each rung (R233). -/
theorem rungBitmap_eq (m : BitVec 16) (g : BitVec 2) :
    rungBitmap m g.toNat = if g = 0 then m else if g = 1 then m &&& 0x3B else if g = 2 then m &&& 0x31 else 0 := by
  rcases bitVec2_cases g with rfl | rfl | rfl | rfl <;> rfl

/-- A single result that is held takes effect, with the errata held (R21, R69). -/
theorem Ladders.settled_completed {l : Ladders} {r : TuneRes} {g : BitVec 2} (h : l.held = []) : (l.completed r g).settled =
    ({ l with passes := l.passes.erase r, held := [], errata := l.errata ++ l.errataHeld, errataHeld := [] } : Ladders).take r g.toNat := by
  simp [Ladders.settled, Ladders.completed, h]

/-- Ladders with an engine's bitmap masked for a rung above 0 (R233). -/
def Ladders.lowered (l : Ladders) (c : Nat) (m : BitVec 16) (n : Nat) : Ladders :=
  if n = 0 then l else { l with engines := SMap.set 0x003F l.engines c (SMap.get 0x003F l.engines c &&& m) }

theorem Ladders.take_rotation (l : Ladders) (c n : Nat) : l.take (.rotation c) n = l.lowered c 0x2F n := rfl
theorem Ladders.take_drain (l : Ladders) (c n : Nat) : l.take (.drain c) n = l.lowered c 0x1F n := rfl

/-- A result for an engine's bitmap leaves what else the ladders hold. -/
theorem Ladders.lowered_frame (l : Ladders) (c : Nat) (m : BitVec 16) (n : Nat) : ∃ e, l.lowered c m n = { l with engines := e } := by
  unfold Ladders.lowered
  split <;> exact ⟨_, rfl⟩

/-- A result changes rungs and bitmaps alone. -/
theorem Ladders.take_keeps (l : Ladders) (r : TuneRes) (n : Nat) : (l.take r n).held = l.held ∧ (l.take r n).passes = l.passes := by
  cases r with
  | engine c => exact ⟨rfl, rfl⟩
  | bank c b => exact ⟨rfl, rfl⟩
  | channel i => exact ⟨rfl, rfl⟩
  | rotation c =>
    obtain ⟨_, e⟩ := l.lowered_frame c 0x2F n
    rw [Ladders.take_rotation, e]
    exact ⟨rfl, rfl⟩
  | drain c =>
    obtain ⟨_, e⟩ := l.lowered_frame c 0x1F n
    rw [Ladders.take_drain, e]
    exact ⟨rfl, rfl⟩

section
variable (l : Ladders) (c : Nat) (g : BitVec 2)

theorem Ladders.lowered_takes (m : BitVec 16) : (l.lowered c m g.toNat).banks = l.banks ∧ (l.lowered c m g.toNat).chans = l.chans ∧
    SMap.get 0x003F (l.lowered c m g.toNat).engines c = if g = 0 then SMap.get 0x003F l.engines c else SMap.get 0x003F l.engines c &&& m := by
  have zero : g.toNat = 0 ↔ g = 0 := BitVec.toNat_inj (x := g) (y := 0)
  simp only [Ladders.lowered, zero]
  split
  · exact ⟨rfl, rfl, rfl⟩
  · exact ⟨rfl, rfl, (SMap.get_set 0x003F l.engines c c _).trans (if_pos rfl)⟩

theorem Ladders.take_engine : (l.take (.engine c) g.toNat).banks = l.banks ∧ (l.take (.engine c) g.toNat).chans = l.chans ∧
    SMap.get 0x003F (l.take (.engine c) g.toNat).engines c =
      if g = 0 then SMap.get 0x003F l.engines c else if g = 1 then SMap.get 0x003F l.engines c &&& 0x3B
      else if g = 2 then SMap.get 0x003F l.engines c &&& 0x31 else 0 :=
  ⟨rfl, rfl, (SMap.get_set 0x003F l.engines c c _).trans ((if_pos rfl).trans (rungBitmap_eq _ g))⟩

theorem Ladders.take_bank (b n : Nat) : (l.take (.bank c b) n).engines = l.engines ∧ (l.take (.bank c b) n).chans = l.chans ∧
    SMap.get 0 (l.take (.bank c b) n).banks (16 * c + b) = max n (SMap.get 0 l.banks (16 * c + b)) :=
  ⟨rfl, rfl, (SMap.get_set 0 l.banks _ _ _).trans (if_pos rfl)⟩

theorem Ladders.take_channel (n : Nat) : (l.take (.channel c) n).engines = l.engines ∧ (l.take (.channel c) n).banks = l.banks ∧
    SMap.get 0 (l.take (.channel c) n).chans c = max n (SMap.get 0 l.chans c) :=
  ⟨rfl, rfl, (SMap.get_set 0 l.chans _ _ _).trans (if_pos rfl)⟩

end

/-- Settles O59: a validation rejects, waits or starts the job; a report, a trip and a machine check act on clock, jobs and power; a tuning result is
held or taken. -/
theorem jobsAndHeat : Obligations.JobsAndHeat := by
  refine ⟨fun s f len => ⟨jobValidation_other, fun _ st v => jobValidation_rejected len st v,
      fun j k img h named st v some_ idle => jobValidation_started len named st v some_ idle, fun j k img h st v wait => ?_⟩,
    fun s d x _ => ⟨thermalStep_cool, thermalStep_trips, thermalStep_hot⟩,
    fun s d len => ⟨_, exec_thermalTrip, State.tripAt_trips (s := s.begun) len⟩,
    fun s f len => machineCheck_ends len,
    fun s r g => ⟨tuningPassComplete_none, tuningPassComplete_held, fun passes job held => ?_⟩⟩
  case refine_1 =>
    have stays : ((s.rootCores f.val k.caps).isEmpty || s.idlePass) = true := by simpa using wait
    rw [jobValidation_accepts st v, if_pos stays]
  case refine_2 =>
    refine ⟨_, tuningPassComplete_settled passes job, ?_⟩
    simp only [Ladders.settled_completed held]
    obtain ⟨none_, erased⟩ := Ladders.take_keeps
      { s.ladders with passes := s.ladders.passes.erase r, held := [], errata := s.ladders.errata ++ s.ladders.errataHeld, errataHeld := [] } r g.toNat
    refine ⟨none_, erased, ?_⟩
    cases r with
    | engine c => exact Ladders.take_engine _ c g
    | bank c b => exact Ladders.take_bank _ c b g.toNat
    | rotation c => exact Ladders.lowered_takes _ c g 0x2F
    | drain c => exact Ladders.lowered_takes _ c g 0x1F
    | channel i => exact Ladders.take_channel _ i g.toNat

end Sys2Proof.Machine
end

section
/-!
O54: the Cellarer's words and the addresses that no translation has (R48, R49, R143).
-/
namespace Sys2Proof.Machine

/-- A word of the Cellarer with a non-zero [63:56] is refused before its page is looked at (R143, R416). -/
theorem cellar_signalAdd_high {s : State} {r : Reach} {a : Nat} {pay : List Byte} (l : pay.length = 8) (h : 2 ^ 56 ≤ a) :
    cellar s r 0x16 0 a pay = .xlate 0x11 a := by
  have high : s.wordAt r a = .error (.xlate 0x11 a) := if_pos h
  simp only [cellar, celAuxOk, celPayload, l, high]
  rfl

/-- A pinned, writable mapping past the 56 bits of virtual memory. `Mapping.formOk` refuses it (R88), which the obligation does not ask of its states. -/
def highMap : Mapping := { va := 2 ^ 56, pa := 0, len := 2 ^ 16, page := 0, w := true, x := false, pin := true }

/-- A device whose function 0 has a job with that one mapping. -/
def highState : State := State.reset.modFn 0 (fun f => { f with job := some { placeJob with maps := [highMap] } })

/-- A remote packet reads and writes the word at that address. -/
theorem highState_reaches : (highState.readAt (.remote 0) (2 ^ 56) 8).toOption.any (fun x =>
    (x.2.writeAt (.remote 0) (2 ^ 56) (toBytes 8 ((ofBytes x.1 + ofBytes (toBytes 8 1)) % 2 ^ 64))).toBool) = true := by decide +kernel

/-- Refutes O54: its last clause has SIGNAL_ADD done wherever a reach can read and write the word, and the Cellarer refuses an address of more than 56
bits before it looks at a page, also where a job's mapping lies there (R143, R416). -/
theorem not_requestsArePerformed : ¬ Obligations.RequestsArePerformed := by
  unfold Obligations.RequestsArePerformed
  rintro ⟨-, -, operations⟩
  have reaches := highState_reaches
  cases read : highState.readAt (.remote 0) (2 ^ 56) 8 with
  | error e => rw [read] at reaches; cases reaches
  | ok x =>
    rw [read] at reaches
    cases written : x.2.writeAt (.remote 0) (2 ^ 56) (toBytes 8 ((ofBytes x.1 + ofBytes (toBytes 8 1)) % 2 ^ 64)) with
    | error e =>
      have reaches : (x.2.writeAt _ _ _).toBool = true := reaches
      rw [written] at reaches
      cases reaches
    | ok v =>
      have added := (operations highState (.remote 0) 0 (2 ^ 56) (toBytes 8 1) x.1 x.2 v).2 rfl (toBytes_length 8 1) read written
      rw [cellar_signalAdd_high (toBytes_length 8 1) (Nat.le_refl _)] at added
      cases added

end Sys2Proof.Machine
end

section
/-!
O55: a reduction that was discarded has no timer (R43, R368).
-/
namespace Sys2Proof.Machine

/-- A reduction that was discarded, and whose entry is still to stop for it, has no timer (R43). -/
theorem reductionTimeout_bad {s : State} {idx : Nat} {r : Reduction} {x : Nat × Nat} (h : s.fabric.reds[idx]? = some r) (waits : r.entry = some x)
    (bad : r.bad = true) : exec (.reductionTimeout idx) s = .next s.begun := by
  have same : s.begun.redTimeout idx = s.begun := by simp [State.redTimeout, h, waits, bad]
  exact congrArg Host.Outcome.next same

/-- The destination entry of q3 that an older entry's stop has set back. -/
def setBack : Entry := { Entry.blank with op := .collTo, num := 1 }

/-- Its reduction, of which a packet with a bad payload check has come: it is discarded, and the entry stops for it once it starts again (R43). -/
def discardedRed : Reduction :=
  { group := 0, addr := 0, span := 0, op := 0, mode := 0, runs := [], bad := true, late := false, entry := some (0, 1) }

/-- A device whose q3 an older entry has stopped, with that reduction. -/
def setBackState : State :=
  { State.reset with
    core := { State.reset.core with queues := [Queue.reset, Queue.reset, Queue.reset,
      { Queue.reset with entries := [{ Entry.blank with op := .collTo }, setBack], iss := 2, stop := some 0x35, stopNum := 0 }] },
    fabric := { State.reset.fabric with reds := [discardedRed] } }

/-- Refutes O55: of a reduction that was discarded for a bad packet its last clause has the timer stop the entry, and such a reduction has no timer
(R43, R368). -/
theorem not_answersAndTimers : ¬ Obligations.AnswersAndTimers := by
  unfold Obligations.AnswersAndTimers
  rintro ⟨-, -, -, -, -, -, -, -, -, timeouts⟩
  obtain ⟨-, -, stops⟩ := (timeouts setBackState 0).2 discardedRed rfl
  have stopped := stops 1 setBack rfl rfl (.inl rfl)
  rw [reductionTimeout_bad (s := setBackState) (r := discardedRed) rfl rfl rfl] at stopped
  have forgotten : [discardedRed] = [{ discardedRed with entry := none }] :=
    congrArg (fun t : State => t.fabric.reds) (Host.Outcome.next.inj stopped)
  exact absurd forgotten (by decide)

end Sys2Proof.Machine
end

section
/-!
The Larder where no holder and no shadow keeps a line: what a plain access reads and writes there (R135, R155 to R158).
-/
namespace Sys2Proof

theorem SMap.get_default_or_mem {α : Type} (d : α) (m : SMap α) (k : Nat) : SMap.get d m k = d ∨ SMap.get d m k ∈ m.map Prod.snd := by
  induction m with
  | nil => exact .inl rfl
  | cons c r ih =>
    simp only [SMap.get, List.map_cons]
    split
    · exact .inr List.mem_cons_self
    · exact ih.imp_right (List.mem_cons_of_mem _)

/-- A change of every value that keeps the default commutes with reading. -/
theorem SMap.get_map {α : Type} {d : α} {g : α → α} (h : g d = d) (m : SMap α) (k : Nat) :
    SMap.get d (m.map (fun p => (p.1, g p.2))) k = g (SMap.get d m k) := by
  induction m with
  | nil => exact h.symm
  | cons c r ih =>
    simp only [List.map_cons, SMap.get]
    split
    · rfl
    · exact ih

namespace Machine

theorem nth_of_lt {α : Type} {d : α} {l : List α} {i : Nat} (h : i < l.length) : nth d l i = l[i] := by
  simp [nth, h]

/-! Bytes -/

theorem nth_toBytes {n x i : Nat} (h : i < n) : nth 0 (toBytes n x) i = BitVec.ofNat 8 (x / 2 ^ (8 * i)) := by
  simp [nth, toBytes, h]

theorem nth_ofBytes (bs : List Byte) (i : Nat) : nth 0 bs i = BitVec.ofNat 8 (ofBytes bs / 2 ^ (8 * i)) := by
  induction bs generalizing i with
  | nil => simp [nth, ofBytes]
  | cons b r ih =>
    cases i with
    | zero =>
      apply BitVec.eq_of_toNat_eq
      have byte : b.toNat % 256 = b.toNat := Nat.mod_eq_of_lt b.isLt
      simp [nth, ofBytes, byte]
    | succ i =>
      have rest : ofBytes (b :: r) / 2 ^ (8 * (i + 1)) = ofBytes r / 2 ^ (8 * i) := by
        have whole : ofBytes (b :: r) = b.toNat + 256 * ofBytes r := rfl
        rw [whole, show 2 ^ (8 * (i + 1)) = 256 * 2 ^ (8 * i) by rw [Nat.mul_add, Nat.pow_add]; omega, ← Nat.div_div_eq_div_mul]
        congr 1
        omega
      rw [rest]
      exact ih i

theorem ofBytes_lt (bs : List Byte) : ofBytes bs < 2 ^ (8 * bs.length) := by
  induction bs with
  | nil => exact Nat.one_pos
  | cons b r ih =>
    have whole : ofBytes (b :: r) = b.toNat + 256 * ofBytes r := rfl
    rw [whole, List.length_cons, show 2 ^ (8 * (r.length + 1)) = 256 * 2 ^ (8 * r.length) by rw [Nat.mul_add, Nat.pow_add]; omega]
    omega

@[simp] theorem State.bytesFrom_length (s : State) (pa n : Nat) : (s.bytesFrom pa n).length = n := by simp [State.bytesFrom]

theorem State.nth_bytesFrom {s : State} {pa n i : Nat} (h : i < n) : nth 0 (s.bytesFrom pa n) i = s.byteAt (pa + i) := by
  simp [nth, State.bytesFrom, h]

/-- What the Larder answers depends on its own bytes, on memory and on the functions. -/
theorem State.byteAt_congr {s t : State} (larder : t.larder = s.larder) (mem : t.mem = s.mem) (fns : t.fns = s.fns) (p : Nat) : t.byteAt p = s.byteAt p := by
  simp only [State.byteAt, State.memByte, State.fnAt, larder, mem, fns]

theorem larderPut_get (m : SMap (Option Byte)) (pa : Nat) (bs : List Byte) (p : Nat) :
    SMap.get none (larderPut m pa bs) p = if pa ≤ p ∧ p < pa + bs.length then some (nth 0 bs (p - pa)) else SMap.get none m p := by
  induction bs generalizing m pa with
  | nil => exact (if_neg (by rw [List.length_nil]; omega)).symm
  | cons b r ih =>
    rw [larderPut, ih, SMap.get_set, List.length_cons]
    by_cases first : p = pa
    · subst first
      rw [if_neg (by omega), if_pos rfl, if_pos (by omega), Nat.sub_self]
      rfl
    · by_cases later : pa + 1 ≤ p ∧ p < pa + 1 + r.length
      · rw [if_pos later, if_pos (by omega)]
        obtain ⟨i, rfl⟩ := Nat.exists_eq_add_of_le later.1
        rw [show pa + 1 + i - pa = i + 1 by omega, Nat.add_sub_cancel_left]
        rfl
      · rw [if_neg later, if_neg (Ne.symm first), if_neg (by omega)]

/-- Bytes put into the Larder are read there, and every other byte is as before. -/
theorem State.byteAt_larderPut {s t : State} {pa : Nat} {bs : List Byte} (larder : t.larder = larderPut s.larder pa bs) (mem : t.mem = s.mem)
    (fns : t.fns = s.fns) (p : Nat) : t.byteAt p = if pa ≤ p ∧ p < pa + bs.length then nth 0 bs (p - pa) else s.byteAt p := by
  have behind : t.memByte p = s.memByte p := by simp only [State.memByte, State.fnAt, mem, fns]
  simp only [State.byteAt, larder, larderPut_get, behind]
  by_cases here : pa ≤ p ∧ p < pa + bs.length
  · rw [if_pos here, if_pos here]
  · rw [if_neg here, if_neg here]

/-! Plain lines (R155 to R157) -/

/-- Every core that is asked for is one that the state holds, or one at reset. -/
theorem State.coreAt_mem (s : State) (n : Nat) : s.coreAt n ∈ s.cores ∨ s.coreAt n = Core.reset n := by
  unfold State.coreAt State.cores
  split
  · exact .inl List.mem_cons_self
  · exact (SMap.get_default_or_mem _ s.parked n).symm.imp_left (List.mem_cons_of_mem _)

section
variable {s : State} {line : Nat} (h : s.plain line)
include h

theorem State.mergeOf_plain (n : Nat) : s.mergeOf n line = s := by
  have absent : (s.coreAt n).upd.find? (fun u => u.line == line) = none := by
    rw [List.find?_eq_none]
    intro u hu
    rcases s.coreAt_mem n with held | reset
    · simpa using h.2 _ held u hu
    · rw [reset] at hu
      cases hu
  simp only [State.mergeOf, absent]

theorem State.recall_plain : s.recall line = s := by
  have each : ∀ l : List Core, l.foldl (fun s c => s.mergeOf c.id line) s = s := by
    intro l
    induction l with
    | nil => rfl
    | cons c r ih => rw [List.foldl_cons, State.mergeOf_plain h, ih]
  exact each s.cores

theorem State.resolve_plain : s.resolve line = s := by
  have absent : s.reduce.find? (fun r => r.line == line) = none := by
    rw [List.find?_eq_none]
    exact fun r hr => by simpa using h.1 r hr
  simp only [State.resolve, absent]

theorem State.settle_plain : s.settle line = s := by rw [State.settle, State.recall_plain h, State.resolve_plain h]

end

theorem State.settleAll_plain {s : State} {lines : List Nat} (h : ∀ l ∈ lines, s.plain l) : lines.foldl State.settle s = s := by
  induction lines with
  | nil => rfl
  | cons l r ih =>
    rw [List.foldl_cons, State.settle_plain (h l List.mem_cons_self)]
    exact ih fun k hk => h k (List.mem_cons_of_mem l hk)

theorem State.larderRead_plain {s : State} {pa n : Nat} (h : s.plainRange pa n) : s.larderRead pa n = (s.bytesFrom pa n, s) := by
  simp only [State.larderRead, State.settleAll_plain h]

/-! What a write leaves of the core in focus -/

/-- Two cores differ in what a write at the Larder may change of one: its control registers and events, where its watch is hit, and its L1
(R135, R154). -/
def Core.Stirred (c d : Core) : Prop := ∃ r e l, d = { c with cr := r, events := e, l1 := l }

theorem Core.Stirred.refl (c : Core) : c.Stirred c := ⟨_, _, _, rfl⟩

theorem Core.Stirred.trans {c d e : Core} (h : c.Stirred d) (g : d.Stirred e) : c.Stirred e := by
  obtain ⟨_, _, _, rfl⟩ := h
  obtain ⟨_, _, _, rfl⟩ := g
  exact ⟨_, _, _, rfl⟩

theorem Core.Stirred.upd {c d : Core} (h : c.Stirred d) : d.upd = c.upd := by obtain ⟨_, _, _, rfl⟩ := h; rfl
theorem Core.Stirred.cell {c d : Core} (h : c.Stirred d) (n : Nat) : d.cell n = c.cell n := by obtain ⟨_, _, _, rfl⟩ := h; rfl

theorem Core.l1Drop_stirred (c : Core) (line : Nat) : c.Stirred (c.l1Drop line) := ⟨_, _, _, rfl⟩

theorem Core.post_stirred (c : Core) (b v : Nat) : c.Stirred (c.post b v) := by
  unfold Core.post
  dsimp only
  split <;> exact ⟨_, _, _, rfl⟩

theorem State.modCore_stirred {g : Core → Core} (h : ∀ c, Core.Stirred c (g c)) (s : State) (n : Nat) : s.core.Stirred (s.modCore n g).core := by
  unfold State.modCore
  split
  · exact h s.core
  · exact .refl s.core

theorem State.foldl_stirred {α : Type} {g : State → α → State} (h : ∀ (s : State) (a : α), s.core.Stirred (g s a).core) (l : List α) (s : State) :
    s.core.Stirred (l.foldl g s).core := by
  induction l generalizing s with
  | nil => exact .refl s.core
  | cons a r ih => exact (h s a).trans (ih _)

theorem State.hitWatch_stirred (s : State) (line : Nat) : s.core.Stirred (s.hitWatch line).core := by
  refine State.foldl_stirred (fun s c => ?_) s.cores s
  split
  · exact State.modCore_stirred (fun c => Core.Stirred.trans ⟨_, _, _, rfl⟩ (Core.post_stirred _ 2 0)) s c.id
  · exact .refl s.core

theorem State.hitWatch_coresOnly (s : State) (line : Nat) : s.CoresOnly (s.hitWatch line) := by
  refine State.foldl_coresOnly (fun s c => ?_) s.cores s
  split
  · exact s.modCore_coresOnly c.id _
  · exact .refl s

theorem State.spoilSpills_keeps_lines (s : State) (pa n : Nat) : (s.spoilSpills pa n).core = s.core ∧ (s.spoilSpills pa n).fns = s.fns ∧
    (s.spoilSpills pa n).reduce = s.reduce := by
  unfold State.spoilSpills
  split <;> exact ⟨rfl, rfl, rfl⟩

section
variable {s : State} {pa : Nat} {bs : List Byte} (h : s.plainRange pa bs.length)
include h

/-- A write of plain lines puts its bytes and hits watches, and spilled records that it meets are spoiled. -/
theorem State.larderWrite_plain (nonempty : bs ≠ []) : s.larderWrite pa bs =
    (linesOf pa bs.length).foldl State.hitWatch { s.spoilSpills pa bs.length with larder := larderPut s.larder pa bs } := by
  have full : bs.isEmpty = false := by simpa using nonempty
  rw [State.larderWrite, full, if_neg Bool.false_ne_true]
  simp only [State.settleAll_plain h, (spoilSpills_stores s pa bs.length).2.2]

/-- After a write of plain lines its bytes stand at the Larder, and every other byte is as before. -/
theorem State.byteAt_larderWrite (p : Nat) :
    (s.larderWrite pa bs).byteAt p = if pa ≤ p ∧ p < pa + bs.length then nth 0 bs (p - pa) else s.byteAt p := by
  by_cases empty : bs = []
  · subst empty
    rw [if_neg (by simp)]
    rfl
  · rw [State.larderWrite_plain h empty]
    have watched := State.foldl_coresOnly State.hitWatch_coresOnly (linesOf pa bs.length)
      { s.spoilSpills pa bs.length with larder := larderPut s.larder pa bs }
    exact State.byteAt_larderPut watched.larder (watched.mem.trans (spoilSpills_stores s pa bs.length).1)
      (watched.fns.trans (s.spoilSpills_keeps_lines pa bs.length).2.1) p

theorem State.larderWrite_stirred : s.core.Stirred (s.larderWrite pa bs).core := by
  by_cases empty : bs = []
  · subst empty
    exact .refl s.core
  · rw [State.larderWrite_plain h empty]
    have watched := State.foldl_stirred State.hitWatch_stirred (linesOf pa bs.length)
      { s.spoilSpills pa bs.length with larder := larderPut s.larder pa bs }
    rwa [(s.spoilSpills_keeps_lines pa bs.length).1] at watched

end

end Machine
end Sys2Proof
end

section
/-!
Atomics of plain lines, and the result of an access in its register (R48, R178, R184, R281).
-/
namespace Sys2Proof.Machine

/-! Values of atomics (R48, R155, R281) -/

/-- A word of `w` bits as a signed number (R5). -/
theorem toInt_ofNat_of_lt {w x : Nat} (pos : 0 < w) (h : x < 2 ^ w) :
    (BitVec.ofNat w x).toInt = if x < 2 ^ (w - 1) then (x : Int) else (x : Int) - 2 ^ w := by
  have twice : 2 ^ w = 2 * 2 ^ (w - 1) := by rw [← Nat.pow_succ', Nat.succ_eq_add_one, Nat.sub_add_cancel pos]
  rw [BitVec.toInt_eq_toNat_cond, BitVec.toNat_ofNat, Nat.mod_eq_of_lt h]
  push_cast
  congr 1
  rw [eq_iff_iff]
  omega

theorem atomicOp_eq_value {op w old b : Nat} (hop : op ≤ 8) (pos : 0 < w) (ho : old < 2 ^ w) (hb : b < 2 ^ w) :
    atomicOp op w old b = atomicValue op w old b := by
  have x : (BitVec.ofNat w old).toNat = old := (BitVec.toNat_ofNat old w).trans (Nat.mod_eq_of_lt ho)
  have y : (BitVec.ofNat w b).toNat = b := (BitVec.toNat_ofNat b w).trans (Nat.mod_eq_of_lt hb)
  have signed : (BitVec.ofNat w old).slt (BitVec.ofNat w b) = decide ((if old < 2 ^ (w - 1) then (old : Int) else (old : Int) - 2 ^ w) <
      if b < 2 ^ (w - 1) then (b : Int) else (b : Int) - 2 ^ w) := by
    rw [BitVec.slt_eq_decide, toInt_ofNat_of_lt pos ho, toInt_ofNat_of_lt pos hb]
  have unsigned : (BitVec.ofNat w old).ult (BitVec.ofNat w b) = decide (old < b) := by rw [BitVec.ult_eq_decide, x, y]
  have ops : op = 0 ∨ op = 1 ∨ op = 2 ∨ op = 3 ∨ op = 4 ∨ op = 5 ∨ op = 6 ∨ op = 7 ∨ op = 8 := by omega
  rcases ops with rfl | rfl | rfl | rfl | rfl | rfl | rfl | rfl | rfl <;>
    simp only [atomicOp, atomicValue, BitVec.toNat_add, BitVec.toNat_and, BitVec.toNat_or, BitVec.toNat_xor, x, y, signed, unsigned, decide_eq_true_eq]

/-- An atomic takes as much of its operand as its width holds. -/
theorem atomicOp_operand_mod (op w old b : Nat) : atomicOp op w old b = atomicOp op w old (b % 2 ^ w) := by
  have same : BitVec.ofNat w (b % 2 ^ w) = BitVec.ofNat w b := BitVec.eq_of_toNat_eq (by simp)
  simp only [atomicOp, same]

/-! Atomics at the Larder (R184) -/

/-- What an atomic reads: its bytes, or free ones in the own attic (R129). -/
def State.atomicReads (s : State) (a : Access) (n : Nat) : List Byte × State := s.atticBytes s.core.id a.va.toNat (s.bytesFrom a.pa n)

section
variable {s : State} {a : Access} {n : Nat} {new : Nat → Option (List Byte)} (h : s.plainRange a.pa n)

theorem State.atomicReads_fresh : ∃ f, (s.atomicReads a n).2 = { s with fresh := f } := ⟨_, (atticBytes_stores s _ _ _).2⟩

theorem State.atomicReads_clear (clear : s.core.meetsAttic a.va.toNat n = false) : s.atomicReads a n = (s.bytesFrom a.pa n, s) :=
  atticBytes_of_clear (by rwa [State.coreAt_focus, State.bytesFrom_length])

include h

theorem State.atomicAt_unwritten (unwritten : new (ofBytes (s.atomicReads a n).1) = none) : s.atomicAt a n new =
    ({ (s.atomicReads a n).2 with core := (s.atomicReads a n).2.core.l1Drop (a.pa / 128) }, ofBytes (s.atomicReads a n).1, false) := by
  unfold State.atomicReads at unwritten ⊢
  simp only [State.atomicAt, State.larderRead_plain h, unwritten]

theorem State.atomicAt_written {bs : List Byte} (written : new (ofBytes (s.atomicReads a n).1) = some bs) : s.atomicAt a n new =
    let w := (s.atomicReads a n).2.atticBytes (s.atomicReads a n).2.core.id a.va.toNat bs
    ({ w.2.larderWrite a.pa w.1 with core := (w.2.larderWrite a.pa w.1).core.l1Drop (a.pa / 128) }, ofBytes (s.atomicReads a n).1, true) := by
  unfold State.atomicReads at written ⊢
  simp only [State.atomicAt, State.larderRead_plain h, written]

/-- An atomic reads its old value, and leaves in its bytes what it writes, or their old values where it writes nothing; it changes no other byte. In the own
attic nothing is said of its bytes and its value (R129). -/
theorem State.atomicAt_leaves (len : ∀ old bs, new old = some bs → bs.length = n) :
    s.core.Stirred (s.atomicAt a n new).1.core ∧
    (∀ p, ¬ (a.pa ≤ p ∧ p < a.pa + n) → (s.atomicAt a n new).1.byteAt p = s.byteAt p) ∧
    (s.core.meetsAttic a.va.toNat n = false → (s.atomicAt a n new).2.1 = ofBytes (s.bytesFrom a.pa n) ∧
      ∀ p, a.pa ≤ p → p < a.pa + n → (s.atomicAt a n new).1.byteAt p =
        nth 0 ((new (ofBytes (s.bytesFrom a.pa n))).getD (s.bytesFrom a.pa n)) (p - a.pa)) := by
  obtain ⟨f, fresh⟩ := State.atomicReads_fresh (s := s) (a := a) (n := n)
  cases wrote : new (ofBytes (s.atomicReads a n).1) with
  | none =>
    rw [State.atomicAt_unwritten h wrote, fresh]
    refine ⟨Core.l1Drop_stirred _ _, fun _ _ => rfl, fun clear => ?_⟩
    rw [State.atomicReads_clear clear] at wrote
    rw [State.atomicReads_clear clear, wrote]
    refine ⟨rfl, fun p lo hi => ?_⟩
    rw [Option.getD_none, State.nth_bytesFrom (by omega), Nat.add_sub_cancel' lo]
    rfl
  | some bs =>
    rw [State.atomicAt_written h wrote, fresh]
    obtain ⟨length, free⟩ := atticBytes_stores { s with fresh := f } s.core.id a.va.toNat bs
    rw [len _ bs wrote] at length
    dsimp only
    rw [free]
    generalize hw : (State.atticBytes { s with fresh := f } s.core.id a.va.toNat bs) = w at length free ⊢
    have plain : State.plainRange { s with fresh := w.2.fresh } a.pa w.1.length := by rw [length]; exact h
    refine ⟨(State.larderWrite_stirred plain).trans (Core.l1Drop_stirred _ _), fun p out => ?_, fun clear => ?_⟩
    · exact (State.byteAt_larderWrite plain p).trans (if_neg (by rwa [length]))
    · have unchanged : w.1 = bs := by
        have whole : (State.coreAt { s with fresh := f } s.core.id).meetsAttic a.va.toNat bs.length = false := by
          rw [len _ bs wrote]
          exact (congrArg (fun c : Core => c.meetsAttic a.va.toNat n) (State.coreAt_focus { s with fresh := f })).trans clear
        rw [← hw, atticBytes_of_clear whole]
      rw [State.atomicReads_clear clear] at wrote
      rw [State.atomicReads_clear clear, wrote]
      refine ⟨rfl, fun p lo hi => ?_⟩
      rw [Option.getD_some, ← unchanged]
      exact (State.byteAt_larderWrite plain p).trans (if_pos ⟨lo, by rwa [length]⟩)

end

/-! The result of an access (R174, R178) -/

theorem Core.land_single {c : Core} {a : Access} {k : Nat} (dsts : a.dsts = [k]) (single : a.kind ≠ .cas2) (v : Nat) :
    ∃ taint dm, c.land a v = c.landCell k { val := BitVec.ofNat 2048 v, taint := taint, dm := dm } := by
  unfold Core.land
  rw [dsts]
  dsimp only
  split
  · exact absurd ‹a.kind = .cas2› single
  · rename_i single_ _
    obtain ⟨rfl, -⟩ := List.cons.inj single_
    split <;> exact ⟨_, _, rfl⟩
  · cases ‹[k] = []›

theorem Core.cell_landCell (c : Core) (k n : Nat) (r : RegCell) : (c.landCell k r).cell n = if k = n then r else c.cell n := c.cell_setCell k n r

/-- A register without a tag that was freed (R178). -/
def RegCell.untag (t : Nat) (r : RegCell) : RegCell :=
  if r.taint.getLsbD t then { r with taint := r.taint &&& ~~~ (BitVec.ofNat 16 (2 ^ t)), dm := true } else r

theorem RegCell.untag_zero (t : Nat) : RegCell.zero.untag t = RegCell.zero := by simp [RegCell.untag, RegCell.zero]

/-- A freed tag leaves taints, and no value changes (R178). -/
theorem Core.val_freeTag (c : Core) (t n : Nat) : ((c.freeTag t).cell n).val = (c.cell n).val := by
  unfold Core.freeTag
  split
  · rfl
  · show (SMap.get RegCell.zero (c.regs.map (fun p => (p.1, p.2.untag t))) n).val = _
    rw [SMap.get_map (RegCell.untag_zero t)]
    unfold RegCell.untag
    split <;> rfl

@[simp] theorem Core.upd_freeTag (c : Core) (t : Nat) : (c.freeTag t).upd = c.upd := by
  unfold Core.freeTag
  split <;> rfl

/-- Access `id` has left the order, and no access and no entry waits for it (R165). -/
def Core.performed (c : Core) (id : Nat) : Core :=
  { c with
    order := c.order.done id,
    queues := c.queues.map (fun (q : Queue) => { q with entries := q.entries.map (fun e => { e with after := e.after.filter (fun i => i != id) }) }) }

/-- The access has returned its value, and its tag is free (R178). -/
def Core.returned (c : Core) (id : Nat) (a : Access) (v : Nat) : Core :=
  let c := (c.performed id).land a v
  match a.tag with | some t => c.freeTag t | none => c

section
variable {a : Access} {k : Nat} (dsts : a.dsts = [k]) (single : a.kind ≠ .cas2)
include dsts single

theorem Core.val_returned (c : Core) (id v n : Nat) : ((c.returned id a v).cell n).val = if k = n then BitVec.ofNat 2048 v else (c.cell n).val := by
  obtain ⟨taint, dm, landed⟩ := Core.land_single (c := c.performed id) dsts single v
  have value : (((c.performed id).land a v).cell n).val = if k = n then BitVec.ofNat 2048 v else (c.cell n).val := by
    rw [landed, Core.cell_landCell]
    split <;> rfl
  unfold Core.returned
  dsimp only
  split
  · rw [Core.val_freeTag, value]
  · exact value

theorem Core.upd_returned (c : Core) (id v : Nat) : (c.returned id a v).upd = c.upd := by
  obtain ⟨taint, dm, landed⟩ := Core.land_single (c := c.performed id) dsts single v
  have held : ((c.performed id).land a v).upd = c.upd := (congrArg Core.upd landed).trans rfl
  unfold Core.returned
  dsimp only
  split
  · rw [Core.upd_freeTag, held]
  · exact held

end

/-- With no update-only line held there is none to merge (R156). -/
theorem State.mergeClasses_of_no_upd {s : State} (h : s.core.upd = []) (mb : BitVec 16) : s.mergeClasses mb = s := by
  simp only [State.mergeClasses, h]
  rfl

/-- Ended holds then drop L1 lines at most (R154, R182). -/
theorem State.endHolds_of_no_upd {s : State} (h : s.core.upd = []) (hs : List Hold) : ∃ l, s.endHolds hs = { s with core := { s.core with l1 := l } } := by
  unfold State.endHolds
  split
  · exact ⟨s.core.l1, rfl⟩
  · refine ⟨_, State.mergeClasses_of_no_upd ?_ _⟩
    exact h

section
variable {s : State} {id k : Nat} {a : Access} (found : s.core.order.acc.find? (fun x => x.id == id) = some a) (upd : s.core.upd = [])
  (plain : (s.performAt a).2.2 = false)
include found upd plain

theorem State.perform_eq : ∃ ended, s.perform id =
    ({ (s.performAt a).1 with core := (s.performAt a).1.core.returned id a (s.performAt a).2.1 } : State).endHolds ended := by
  simp only [State.perform, found, State.mergeClasses_of_no_upd upd, plain, Bool.false_eq_true, if_false]
  exact ⟨_, rfl⟩

/-- An access of one register that is no acquire: its value is in the register, no other register's value changes, and memory is as the access leaves
it (R165, R178). -/
theorem State.perform_single (dsts : a.dsts = [k]) (single : a.kind ≠ .cas2) (stirred : s.core.Stirred (s.performAt a).1.core) :
    ((s.perform id).core.cell k).val = BitVec.ofNat 2048 (s.performAt a).2.1 ∧
    (∀ n, n ≠ k → ((s.perform id).core.cell n).val = (s.core.cell n).val) ∧
    ∀ p, (s.perform id).byteAt p = (s.performAt a).1.byteAt p := by
  obtain ⟨ended, performed⟩ := State.perform_eq found upd plain
  rw [performed]
  generalize s.performAt a = u at stirred
  have unheld : (u.1.core.returned id a u.2.1).upd = [] := by rw [Core.upd_returned dsts single, stirred.upd, upd]
  obtain ⟨l, held⟩ := State.endHolds_of_no_upd (s := { u.1 with core := u.1.core.returned id a u.2.1 }) unheld ended
  rw [held]
  have value (n : Nat) := Core.val_returned dsts single u.1.core id u.2.1 n
  refine ⟨(value k).trans (if_pos rfl), fun n ne => ?_, fun _ => rfl⟩
  exact ((value n).trans (if_neg (Ne.symm ne))).trans (congrArg RegCell.val (stirred.cell n))

end

/-! The return of an atomic (R178, R184) -/

theorem State.plainRange_begun {s : State} {pa n : Nat} (h : s.plainRange pa n) : s.begun.plainRange pa n := by
  intro l hl
  obtain ⟨shadows, holders⟩ := h l hl
  refine ⟨shadows, fun c hc => ?_⟩
  rcases List.mem_cons.mp hc with rfl | hc
  · exact holders s.core List.mem_cons_self
  · exact holders c (List.mem_cons_of_mem _ hc)

/-- A returning access that may be performed is. -/
theorem exec_loadReturn {s : State} {id : Nat} {a : Access} (may : s.mayPerform id a) (returns : a.kind.returns = true) :
    exec (.loadReturn id) s = .next (s.begun.perform id) := by
  obtain ⟨found, ready⟩ := may
  have asked : s.begun.core.performable.any (fun a => a.id == id && a.kind.returns == true) = true :=
    List.any_eq_true.mpr ⟨a, ready, by rw [returns]; simpa using List.find?_some found⟩
  exact congrArg Host.Outcome.next (if_pos asked)

/-- A returning atomic of plain lines that is no acquire is one step: its register has the old value, its bytes are those that it writes, and no other
register's value and no other byte changes. In the own attic nothing is said of its bytes and its value (R129). -/
theorem loadReturn_atomic {s : State} {id k : Nat} {a : Access} {new : Nat → Option (List Byte)} (may : s.mayPerform id a) (returns : a.kind.returns = true)
    (single : a.kind ≠ .cas2) (dsts : a.dsts = [k]) (upd : s.core.upd = []) (plain : s.plainRange a.pa a.len)
    (len : ∀ old bs, new old = some bs → bs.length = a.len)
    (atomic : s.begun.performAt a = ((s.begun.atomicAt a a.len new).1, (s.begun.atomicAt a a.len new).2.1, false)) :
    ∃ t, exec (.loadReturn id) s = .next t ∧
      (s.core.meetsAttic a.va.toNat a.len = false → (t.core.cell k).val = BitVec.ofNat 2048 (ofBytes (s.bytesFrom a.pa a.len)) ∧
        ∀ p, a.pa ≤ p → p < a.pa + a.len → t.byteAt p =
          nth 0 ((new (ofBytes (s.bytesFrom a.pa a.len))).getD (s.bytesFrom a.pa a.len)) (p - a.pa)) ∧
      (∀ p, ¬ (a.pa ≤ p ∧ p < a.pa + a.len) → t.byteAt p = s.byteAt p) ∧
      ∀ n, n ≠ k → (t.core.cell n).val = (s.core.cell n).val := by
  obtain ⟨stirred, outside, clear⟩ := State.atomicAt_leaves (State.plainRange_begun plain) len
  have done := State.perform_single (s := s.begun) (id := id) may.1 upd (congrArg (fun r => r.2.2) atomic) dsts single (by rw [atomic]; exact stirred)
  rw [atomic] at done
  obtain ⟨value, others, bytes⟩ := done
  refine ⟨_, exec_loadReturn may returns, fun attic => ?_, fun p out => (bytes p).trans (outside p out), others⟩
  obtain ⟨old, written⟩ := clear attic
  exact ⟨value.trans (congrArg (BitVec.ofNat 2048) old), fun p lo hi => (bytes p).trans (written p lo hi)⟩

end Sys2Proof.Machine
end

section
/-!
O24: exact additions to words of plain lines (R157 to R159), and the obligation.
-/
namespace Sys2Proof.Machine

/-! Words of a line -/

theorem flatMap_range_length {g : Nat → List Byte} {k : Nat} (h : ∀ i, (g i).length = k) (n : Nat) : ((List.range n).flatMap g).length = k * n := by
  induction n with
  | zero => rfl
  | succ n ih => rw [List.range_succ, List.flatMap_append, List.length_append, ih, List.flatMap_singleton, h, Nat.mul_succ]

/-- A byte of pieces of `k` bytes each is one of its piece. -/
theorem nth_flatMap_range {g : Nat → List Byte} {k : Nat} (pos : 0 < k) (h : ∀ i, (g i).length = k) {n j : Nat} (lt : j < k * n) :
    nth 0 ((List.range n).flatMap g) j = nth 0 (g (j / k)) (j % k) := by
  induction n with
  | zero => exact absurd lt (Nat.not_lt_zero j)
  | succ n ih =>
    have front := flatMap_range_length h n
    rw [List.range_succ, List.flatMap_append, List.flatMap_singleton]
    rw [nth, List.getD_eq_getElem?_getD]
    by_cases here : j < k * n
    · rw [List.getElem?_append_left (by rwa [front])]
      exact ih here
    · rw [List.getElem?_append_right (by rw [front]; omega), front]
      obtain ⟨i, rfl⟩ := Nat.exists_eq_add_of_le (Nat.not_lt.mp here)
      have small : i < k := by rw [Nat.mul_succ] at lt; omega
      rw [Nat.add_sub_cancel_left, Nat.mul_add_div pos, Nat.div_eq_of_lt small, Nat.mul_add_mod, Nat.mod_eq_of_lt small, Nat.add_zero]
      exact List.getD_eq_getElem?_getD.symm

/-! Exact additions (R157 to R159) -/

/-- The shadow of word `i` of the line of `pa`, once `x` has been added to the word at `pa` (R158). -/
def State.shadowWord (s : State) (pa x i : Nat) : Exact :=
  let w := Exact.ofFp32 (ofBytes (s.bytesFrom (pa / 128 * 128 + 4 * i) 4))
  if i = pa % 128 / 4 then w.add xsForm (fpDecode fp32 x) else w

/-- Only a word that was added to counts more than its own value (R158). -/
theorem State.shadowWord_count (s : State) (pa x i : Nat) : (s.shadowWord pa x i).count ≤ 1 ↔ i ≠ pa % 128 / 4 := by
  unfold State.shadowWord
  dsimp only
  split
  · exact ⟨fun h => absurd h (by simp [Exact.add, Exact.ofFp32, Exact.empty, xsForm]), fun h => absurd ‹_› h⟩
  · exact ⟨fun _ => ‹_›, fun _ => by simp [Exact.add, Exact.ofFp32, Exact.empty, xsForm]⟩

/-- Making room among shadows moves lines and names none anew (R159). -/
theorem State.roomOnChip_keeps (s : State) (line : Nat) : (s.roomOnChip line).fns = s.fns ∧
    ∀ r ∈ (s.roomOnChip line).reduce, ∃ q ∈ s.reduce, r.line = q.line := by
  have same : ∀ r ∈ s.reduce, ∃ q ∈ s.reduce, r.line = q.line := fun r hr => ⟨r, hr, rfl⟩
  simp only [State.roomOnChip]
  split
  · split
    · exact ⟨rfl, same⟩
    · refine ⟨rfl, fun r hr => ?_⟩
      obtain ⟨q, hq, rfl⟩ := List.mem_map.mp hr
      refine ⟨q, hq, ?_⟩
      split <;> rfl
  · exact ⟨rfl, same⟩

/-- The shadows with which the line of `pa` enters REDUCE (R158). -/
def State.entering (s : State) (f pa : Nat) : RedLine :=
  { line := pa / 128, fn := f, away := false,
    words := (List.range 32).map (fun i => Exact.ofFp32 (ofBytes (s.bytesFrom (pa / 128 * 128 + 4 * i) 4))) }

/-- A line's shadows once `x` has been added to the word at `pa` (R158). -/
def RedLine.added (r : RedLine) (f pa x : Nat) : RedLine :=
  let first := pa % 128 / 4
  { r with fn := f, words := (List.range 32).map (fun i =>
    let w := nth Exact.empty r.words i
    if first ≤ i ∧ i < first + [x].length then w.add xsForm (fpDecode fp32 (nth 0 [x] (i - first))) else w) }

/-- A line enters REDUCE with one exact addition (R158). -/
def State.withShadows (s : State) (f pa x : Nat) : State :=
  { s with reduce := (s.reduce ++ [s.entering f pa]).map (fun r => if r.line = pa / 128 then r.added f pa x else r) }

theorem State.entering_added (s : State) (f pa x : Nat) : ((s.entering f pa).added f pa x).words = (List.range 32).map (s.shadowWord pa x) := by
  refine List.map_congr_left fun i hi => ?_
  have word : nth Exact.empty (s.entering f pa).words i = Exact.ofFp32 (ofBytes (s.bytesFrom (pa / 128 * 128 + 4 * i) 4)) := by
    simp [nth, State.entering, List.mem_range.mp hi]
  unfold State.shadowWord
  rw [word, List.length_singleton]
  by_cases here : i = pa % 128 / 4
  · subst here
    rw [if_pos ⟨Nat.le_refl _, Nat.lt_succ_self _⟩, if_pos rfl, Nat.sub_self]
    rfl
  · rw [if_neg (by omega), if_neg here]

theorem State.find_withShadows {s : State} {f pa x : Nat} (h : ∀ r ∈ s.reduce, r.line ≠ pa / 128) :
    (s.withShadows f pa x).reduce.find? (fun r => r.line == pa / 128) = some ((s.entering f pa).added f pa x) := by
  have others : (s.reduce.map (fun r => if r.line = pa / 128 then r.added f pa x else r)).find? (fun r => r.line == pa / 128) = none := by
    rw [List.find?_eq_none]
    intro r hr
    obtain ⟨q, hq, rfl⟩ := List.mem_map.mp hr
    simp [h q hq]
  have own : (s.entering f pa).line = pa / 128 := rfl
  have added : ((s.entering f pa).added f pa x).line = pa / 128 := rfl
  simp only [State.withShadows, List.map_append, List.find?_append, others, List.map_singleton, own, if_true, List.find?_singleton, added,
    beq_self_eq_true, Option.none_or]

section
variable {s t : State} {f pa x : Nat} (h : s.plain (pa / 128))
include h

/-- The first exact addition to a plain line: its shadows come on chip, and its watches are hit (R157 to R159). -/
theorem State.exactAdd_eq (e : s.exactAdd f pa [x] = some t) :
    t = (((s.spoilSpills pa 4).roomOnChip (pa / 128)).withShadows f pa x).hitWatch (pa / 128) := by
  have unknown : (s.spoilSpills pa (4 * [x].length)).reduce.any (fun r => r.line == pa / 128) = false := by
    rw [(s.spoilSpills_keeps_lines pa _).2.2, List.any_eq_false]
    exact fun r hr => by simpa using h.1 r hr
  simp only [State.exactAdd, State.recall_plain h, unknown, Bool.false_eq_true, if_false] at e
  split at e
  · cases e
  · exact (Option.some.inj e).symm

/-- It changes no byte, and leaves the line with its words' shadows. -/
theorem State.exactAdd_leaves (e : s.exactAdd f pa [x] = some t) : (∀ p, t.byteAt p = s.byteAt p) ∧
    ∃ r, t.reduce.find? (fun r => r.line == pa / 128) = some r ∧ r.words = (List.range 32).map (s.shadowWord pa x) := by
  obtain ⟨-, spoilFns, spoilReduce⟩ := s.spoilSpills_keeps_lines pa 4
  obtain ⟨spoilMem, -, spoilLarder⟩ := spoilSpills_stores s pa 4
  rw [State.exactAdd_eq h e]
  generalize s.spoilSpills pa 4 = u at *
  obtain ⟨roomFns, roomReduce⟩ := u.roomOnChip_keeps (pa / 128)
  obtain ⟨roomMem, -, roomLarder⟩ := roomOnChip_stores u (pa / 128)
  generalize u.roomOnChip (pa / 128) = z at *
  have bytes (p : Nat) : z.byteAt p = s.byteAt p :=
    State.byteAt_congr (roomLarder.trans spoilLarder) (roomMem.trans spoilMem) (roomFns.trans spoilFns) p
  have words : z.shadowWord pa x = s.shadowWord pa x := by
    funext i
    simp only [State.shadowWord, State.bytesFrom, bytes]
  have lines : ∀ r ∈ z.reduce, r.line ≠ pa / 128 := by
    intro r hr
    obtain ⟨q, hq, same⟩ := roomReduce r hr
    rw [same]
    exact h.1 q (spoilReduce ▸ hq)
  obtain ⟨c, p, watched⟩ := State.hitWatch_coresOnly (z.withShadows f pa x) (pa / 128)
  rw [watched]
  exact ⟨bytes, _, State.find_withShadows lines, by rw [State.entering_added, words]⟩

end

/-- What word `i` of a line of REDUCE resolves to (R158). -/
def State.wordResolved (s : State) (line : Nat) (w : Nat → Exact) (i : Nat) : List Byte :=
  if (w i).count ≤ 1 then s.bytesFrom (line * 128 + 4 * i) 4 else toBytes 4 (w i).toFp32

theorem State.wordResolved_length (s : State) (line : Nat) (w : Nat → Exact) (i : Nat) : (s.wordResolved line w i).length = 4 := by
  unfold State.wordResolved
  split
  · exact s.bytesFrom_length _ 4
  · exact toBytes_length 4 _

section
variable {s : State} {line : Nat} {r : RedLine} {w : Nat → Exact} (found : s.reduce.find? (fun r => r.line == line) = some r)
  (words : r.words = (List.range 32).map w)
include found words

theorem State.resolve_larder : (s.resolve line).larder = larderPut s.larder (line * 128) ((List.range 32).flatMap (s.wordResolved line w)) := by
  have numbered : r.words.zipIdx = (List.range 32).map (fun i => (w i, i)) := by
    rw [words]
    apply List.ext_getElem
    · simp
    · intro i _ _
      simp
  simp only [State.resolve, found, numbered, List.flatMap_map]
  rfl

/-- A line resolves: its words that were added to are rounded once, and every other byte is as before (R158). -/
theorem State.byteAt_resolve (p : Nat) : (s.resolve line).byteAt p =
    if p / 128 = line then nth 0 (s.wordResolved line w (p % 128 / 4)) (p % 4) else s.byteAt p := by
  have length := flatMap_range_length (s.wordResolved_length line w) 32
  rw [State.byteAt_larderPut (State.resolve_larder found words) (by simp only [State.resolve, found]) (by simp only [State.resolve, found]), length]
  by_cases here : p / 128 = line
  · have offset : p - line * 128 = p % 128 := by omega
    rw [if_pos here, if_pos (by omega), offset, nth_flatMap_range (by decide) (s.wordResolved_length line w) (by omega),
      Nat.mod_mod_of_dvd p (by decide)]
  · rw [if_neg here, if_neg (by omega)]

end

/-- A word that was not added to keeps its bytes. -/
theorem State.nth_wordResolved_kept {s : State} {w : Nat → Exact} {p : Nat} (h : (w (p % 128 / 4)).count ≤ 1) :
    nth 0 (s.wordResolved (p / 128) w (p % 128 / 4)) (p % 4) = s.byteAt p := by
  rw [State.wordResolved, if_pos h, State.nth_bytesFrom (Nat.mod_lt p (by decide))]
  congr 1
  omega

/-- An addition resolves to the exact sum with its word, rounded once; every other word resolves to its own value (R158). -/
theorem State.exactAdd_resolves {s t : State} {f pa x : Nat} (aligned : pa % 4 = 0) (h : s.plain (pa / 128)) (e : s.exactAdd f pa [x] = some t) :
    ofBytes ((t.resolve (pa / 128)).bytesFrom pa 4) =
      ((Exact.ofFp32 (ofBytes (s.bytesFrom pa 4))).add xsForm (fpDecode fp32 x)).toFp32 % 2 ^ 32 ∧
    ∀ p, p / 4 ≠ pa / 4 → (t.resolve (pa / 128)).byteAt p = s.byteAt p := by
  obtain ⟨bytes, r, found, words⟩ := State.exactAdd_leaves h e
  have resolved := State.byteAt_resolve found words
  constructor
  · have sum : s.shadowWord pa x (pa % 128 / 4) = (Exact.ofFp32 (ofBytes (s.bytesFrom pa 4))).add xsForm (fpDecode fp32 x) := by
      have word : pa / 128 * 128 + 4 * (pa % 128 / 4) = pa := by omega
      rw [State.shadowWord, if_pos rfl, word]
    have rounded : (t.resolve (pa / 128)).bytesFrom pa 4 = toBytes 4 (s.shadowWord pa x (pa % 128 / 4)).toFp32 := by
      refine List.ext_getElem (by simp [toBytes_length]) fun i hi hj => ?_
      have small : i < 4 := by simpa using hi
      have added : ¬ (s.shadowWord pa x (pa % 128 / 4)).count ≤ 1 := by simp [State.shadowWord_count]
      rw [← nth_of_lt (d := 0) hi, ← nth_of_lt (d := 0) hj, State.nth_bytesFrom small, resolved, if_pos (by omega),
        show (pa + i) % 128 / 4 = pa % 128 / 4 by omega, show (pa + i) % 4 = i by omega, State.wordResolved, if_neg added]
    rw [rounded, sum]
    exact ofBytes_toBytes 4 _
  · intro p other
    rw [resolved]
    by_cases line : p / 128 = pa / 128
    · rw [if_pos line, ← line, State.nth_wordResolved_kept ((State.shadowWord_count s pa x _).mpr (by omega)), bytes]
    · rw [if_neg line, bytes]

/-! The obligation -/

/-- Settles O24: an atomic of plain lines by what it writes, and an exact addition by the shadows that it leaves. -/
theorem atomicsArePerformed : Obligations.AtomicsArePerformed := by
  unfold Obligations.AtomicsArePerformed
  refine ⟨⟨?_, fun op w old b => atomicOp_eq_value⟩, ?_, ?_⟩
  · intro s id k tg a may dsts _ _ size _ acq fail upd plain old leaves
    have old_lt : old < 2 ^ (8 * a.len) := by simpa [old] using ofBytes_lt (s.bytesFrom a.pa a.len)
    constructor
    · intro op kind le
      obtain ⟨t, done, clear, outside, others⟩ := loadReturn_atomic (new := fun o => some (toBytes a.len (atomicOp op (8 * a.len) o a.operand.toNat)))
        may (by rw [kind]; rfl) (by simp [kind]) dsts upd plain (fun _ _ h => by rw [← Option.some.inj h, toBytes_length])
        (by simp only [State.performAt, kind, acq])
      refine ⟨t, done, fun attic => ?_, outside, others⟩
      obtain ⟨value, bytes⟩ := clear attic
      refine ⟨value, fun p lo hi => ?_⟩
      have operand : a.operand.toNat % 2 ^ (8 * a.len) < 2 ^ (8 * a.len) := Nat.mod_lt _ (Nat.two_pow_pos _)
      rw [bytes p lo hi, Option.getD_some, nth_toBytes (by omega), atomicOp_operand_mod,
        atomicOp_eq_value le (by omega) old_lt operand]
    · intro kind
      obtain ⟨t, done, clear, outside, others⟩ := loadReturn_atomic
        (new := fun o => if o == a.expect.toNat % 2 ^ (8 * a.len) then some (toBytes a.len a.operand.toNat) else none)
        may (by rw [kind]; rfl) (by simp [kind]) dsts upd plain
        (fun o bs h => by
          split at h
          · rw [← Option.some.inj h, toBytes_length]
          · cases h)
        (by simp only [State.performAt, kind, acq, fail, ite_self])
      refine ⟨t, done, fun attic => ?_, outside, others⟩
      obtain ⟨value, bytes⟩ := clear attic
      refine ⟨value, fun p lo hi => ?_⟩
      rw [bytes p lo hi]
      by_cases expected : old = a.expect.toNat % 2 ^ (8 * a.len)
      · rw [if_pos (beq_iff_eq.mpr expected), if_pos expected, Option.getD_some, nth_toBytes (by omega)]
      · rw [if_neg (mt beq_iff_eq.mp expected), if_neg expected, Option.getD_none, nth_ofBytes]
  · intro s t f pa x aligned plain added
    exact ⟨(State.exactAdd_leaves plain added).1, State.exactAdd_resolves aligned plain added⟩
  · decide +kernel

end Sys2Proof.Machine
end

section
/-!
A plain access at the Larder is blind to the mark of the core in focus, so what a step of the device reads is what its state shows (R157).
-/
namespace Sys2Proof.Machine

/-! Changes of the state that the mark has no part in -/

/-- A core as a meaning starts with it. -/
def Core.begun (c : Core) : Core := { c with mark := .done }

/-- A change of the state that leaves the same whether a meaning starts before it or after it. -/
def MarkBlind (g : State → State) : Prop := ∀ s, g s.begun = (g s).begun

section
variable {g h : State → State}

theorem MarkBlind.comp (first : MarkBlind g) (second : MarkBlind h) : MarkBlind (fun s => h (g s)) :=
  fun s => (congrArg h (first s)).trans (second (g s))

theorem MarkBlind.foldl {α : Type} {g : State → α → State} (each : ∀ a, MarkBlind (fun s => g s a)) (l : List α) : MarkBlind (fun s => l.foldl g s) := by
  induction l with
  | nil => exact fun _ => rfl
  | cons a r ih => exact (each a).comp ih

/-- A walk over the cores that a state holds. -/
theorem MarkBlind.cores {g : State → Core → State} (each : ∀ c, MarkBlind (fun s => g s c)) (same : ∀ s c, g s c.begun = g s c) :
    MarkBlind (fun s => s.cores.foldl g s) := by
  intro s
  have focus : g s.begun s.core.begun = (g s s.core).begun := (same s.begun s.core).trans (each s.core s)
  calc s.begun.cores.foldl g s.begun
      = (s.parked.map Prod.snd).foldl g (g s.begun s.core.begun) := rfl
    _ = (s.parked.map Prod.snd).foldl g (g s s.core).begun := by rw [focus]
    _ = (s.cores.foldl g s).begun := MarkBlind.foldl each (s.parked.map Prod.snd) (g s s.core)

end

theorem State.begun_coreAt (s : State) (n : Nat) : s.begun.coreAt n = if n = s.core.id then s.core.begun else s.coreAt n := by
  by_cases focus : n = s.core.id
  · rw [if_pos focus]; exact if_pos focus
  · rw [if_neg focus, State.coreAt, State.coreAt, if_neg focus]; exact if_neg focus

theorem State.begun_coreAt_upd (s : State) (n : Nat) : (s.begun.coreAt n).upd = (s.coreAt n).upd := by
  rw [State.begun_coreAt]
  split
  · rename_i focus
    rw [focus, State.coreAt_focus]; rfl
  · rfl

theorem modCore_markBlind {g : Core → Core} (h : ∀ c, g c.begun = (g c).begun) (n : Nat) : MarkBlind (fun s => s.modCore n g) := by
  intro s
  by_cases focus : n = s.core.id
  · subst focus
    have own : s.begun.modCore s.core.id g = { s.begun with core := g s.core.begun } := s.begun.modCore_focus g
    dsimp only
    rw [own, State.modCore_focus, h]; rfl
  · have other : s.begun.coreAt n = s.coreAt n := by rw [State.begun_coreAt, if_neg focus]
    have parked : s.begun.modCore n g = { s.begun with parked := SMap.set (Core.reset n) s.parked n (g (s.begun.coreAt n)) } := if_neg focus
    dsimp only
    rw [parked, other, State.modCore, if_neg focus]; rfl

/-! The Larder's operations (R135, R156 to R158) -/

theorem Core.post_begun (c : Core) (b v : Nat) : c.begun.post b v = (c.post b v).begun := by
  by_cases enabled : ((c.setCtl 0x26 1).ctl 0x22).getLsbD b = true
  · rw [show c.post b v = _ from if_pos enabled]; exact if_pos enabled
  · rw [show c.post b v = _ from if_neg enabled]; exact if_neg enabled

theorem hitWatch_markBlind (line : Nat) : MarkBlind (fun s => s.hitWatch line) := by
  refine MarkBlind.cores (fun c s => ?_) (fun s c => rfl)
  dsimp only
  split
  · exact modCore_markBlind (fun c => Core.post_begun (c.setCtl 0x27 (c.ctl 0x27 &&& ~~~ 1)) 2 0) c.id s
  · rfl

theorem spoilSpills_markBlind (pa n : Nat) : MarkBlind (fun s => s.spoilSpills pa n) := by
  intro s
  dsimp only
  by_cases unspilled : s.sessions.all (fun x => x.recs.all (fun r => !r.spilled)) = true
  · rw [show s.spoilSpills pa n = s from if_pos unspilled]; exact if_pos unspilled
  · rw [show s.spoilSpills pa n = _ from if_neg unspilled]; exact if_neg unspilled

theorem applyDeltas_markBlind (u : UpdLine) : MarkBlind (fun s => s.applyDeltas u) := MarkBlind.foldl (fun _ _ => rfl) u.deltas

theorem mergeOf_markBlind (n line : Nat) : MarkBlind (fun s => s.mergeOf n line) := by
  intro s
  simp only [State.mergeOf, State.begun_coreAt_upd]
  cases (s.coreAt n).upd.find? (fun u => u.line == line) with
  | none => rfl
  | some u =>
    have forgets := modCore_markBlind (g := fun c => { c with upd := c.upd.filter (fun u => u.line != line) }) (fun _ => rfl) n
    exact (((spoilSpills_markBlind (line * 128) 128).comp (applyDeltas_markBlind u)).comp (forgets.comp (hitWatch_markBlind line))) s

theorem resolve_markBlind (line : Nat) : MarkBlind (fun s => s.resolve line) := by
  intro s
  unfold State.resolve
  cases found : s.reduce.find? (fun r => r.line == line) with
  | none => simp only [State.begun_reduce, found]
  | some r => simp only [State.begun_reduce, found]; rfl

theorem settle_markBlind (line : Nat) : MarkBlind (fun s => s.settle line) :=
  MarkBlind.comp (MarkBlind.cores (fun c => mergeOf_markBlind c.id line) (fun _ _ => rfl)) (resolve_markBlind line)

/-- A plain read leaves the same state, but for the mark, and so it finds the same bytes (R157). -/
theorem State.larderRead_begun (s : State) (pa n : Nat) : s.begun.larderRead pa n = ((s.larderRead pa n).1, (s.larderRead pa n).2.begun) := by
  have settled := MarkBlind.foldl settle_markBlind (linesOf pa n) s
  simp only [State.larderRead] at settled ⊢
  rw [settled]; rfl

theorem State.imageBytes_begun (s : State) (pa n : Nat) : s.begun.imageBytes pa n = s.imageBytes pa n := by
  rw [State.imageBytes, State.larderRead_begun]
  rfl

end Sys2Proof.Machine
end

section
/-!
Resets, job control, MSI-X vectors, BAR 0 registers and the BAR 2 window: O57 (R54, R55, R57, R60, R62, R69, R86).
-/
namespace Sys2Proof

/-- A put keeps what holds of all values, where it holds of the value put as of the one that stood there, and of the default. -/
theorem SMap.all_put {α : Type} {P : α → Bool} {d v : α} {m : SMap α} {k : Nat} (unlisted : P d = true) (same : P v = P (SMap.get d m k)) :
    (SMap.put m k v).all (fun p => P p.2) = m.all (fun p => P p.2) := by
  induction m with
  | nil => simp [SMap.put, same, SMap.get, unlisted]
  | cons c r ih =>
    have listed : (P v && (c :: r).all (fun p => P p.2)) = (c :: r).all (fun p => P p.2) := by
      rcases SMap.get_default_or_mem d (c :: r) k with e | there
      · rw [same, e, unlisted, Bool.true_and]
      · rw [same, Bool.and_eq_right_iff_imp, List.all_eq_true]
        obtain ⟨p, hp, e⟩ := List.mem_map.mp there
        exact fun all => e ▸ all p hp
    simp only [SMap.put]
    split
    · exact listed
    · split
      · rename_i here
        rw [List.all_cons, List.all_cons, same, SMap.get, if_pos here.symm]
      · rename_i elsewhere
        rw [SMap.get, if_neg (Ne.symm elsewhere)] at same
        rw [List.all_cons, List.all_cons, ih same]

namespace Machine

/-! Resets (R54, R60, R69) -/

theorem Ladders.take_errata (l : Ladders) (r : TuneRes) (n : Nat) : (l.take r n).errata = l.errata := by
  cases r with
  | engine c => rfl
  | bank c b => rfl
  | channel i => rfl
  | rotation c => rw [Ladders.take_rotation]; obtain ⟨_, e⟩ := l.lowered_frame c 0x2F n; rw [e]
  | drain c => rw [Ladders.take_drain]; obtain ⟨_, e⟩ := l.lowered_frame c 0x1F n; rw [e]

/-- Once what is held has taken effect, the errata are those in force and those that were held (R69). -/
theorem Ladders.settled_errata (l : Ladders) : l.settled.errata = l.errata ++ l.errataHeld := by
  have each (ps : List (TuneRes × BitVec 2)) (m : Ladders) : (ps.foldl (fun l p => l.take p.1 p.2.toNat) m).errata = m.errata := by
    induction ps generalizing m with
    | nil => rfl
    | cons p r ih => exact (ih _).trans (m.take_errata p.1 p.2.toNat)
  exact each l.held _

/-- Ladders with nothing held are as they will be. -/
theorem Ladders.settled_unheld {l : Ladders} (held : l.held = []) (errata : l.errataHeld = []) : l.settled = l := by
  cases l
  subst held errata
  simp [Ladders.settled]

/-- A device reset, with what outlasts it (R25, R54, R66, R69). -/
theorem exec_deviceReset (s : State) : exec .deviceReset s = .next { State.reset with
    ladders := { s.ladders.settled with held := [], passes := [], bundles := [], loaded := [] },
    mem := s.mem, larder := s.larder, pantry := s.pantry, inputs := s.inputs, fresh := s.fresh } := rfl

/-- What a change of one function makes of them all depends on the functions alone. -/
theorem State.modFn_fns_congr {s t : State} (h : t.fns = s.fns) (n : Nat) (g : Fn → Fn) : (t.modFn n g).fns = (s.modFn n g).fns := by
  rw [State.modFn, State.modFn, State.fnAt_congr h, h]

/-- A function as a Function Level Reset leaves it (R54, R60). -/
def Fn.levelReset (x : Fn) : Fn := { x with job := none, st := 0, meas3 := 0, barLog := 30 }

theorem State.functionReset_fns (s : State) (f : Nat) : (s.functionReset f).fns = (s.modFn f Fn.levelReset).fns := by
  have dropped : (if (s.jobAt f).isSome then s.dropWork f else s).fns = s.fns := by
    split
    · exact (s.dropWork_host f).1
    · rfl
  rw [State.functionReset, State.applyHeld_fns]
  exact State.modFn_fns_congr dropped f Fn.levelReset

theorem functionLevelReset_resets {s : State} {f : Fin 9} (len : s.fns.length = 9) : ∃ t, exec (.functionLevelReset f) s = .next t ∧
    (t.fnAt f.val).job = none ∧ (t.fnAt f.val).st = 0 ∧ (t.fnAt f.val).barLog = 30 ∧ ∀ n, n ≠ f.val → t.fnAt n = s.fnAt n := by
  have fnAt (n : Nat) : (s.begun.functionReset f.val).fnAt n = (s.begun.modFn f.val Fn.levelReset).fnAt n :=
    State.fnAt_congr (s.begun.functionReset_fns f.val) n
  have own := (fnAt f.val).trans (State.fnAt_modFn_same (s := s.begun) (Nat.lt_of_lt_of_eq f.isLt len.symm))
  refine ⟨_, rfl, ?_, ?_, ?_, fun n other => (fnAt n).trans (State.fnAt_modFn_ne other)⟩
  all_goals rw [own]; rfl

/-! JOBGO (R55, R57, R60, R86) -/

@[simp] theorem Fn.raised_err (v : Nat) (x : Fn) : (x.raised v).err = x.err := by obtain ⟨_, _, e⟩ := x.raised_frame v; rw [e]

section
variable {s : State} {f : Fin 9}

theorem jobgoStart_idle (st : (s.fnAt f.val).st = 0) (k : BitVec 32) : exec (.jobgoStart f k) s =
    .next (s.begun.modFn f.val (fun x => { x with st := 1, err := 0, token := k, latched := x.jobaddr })) := congrArg Host.Outcome.next (if_pos st)

theorem jobgoStart_busy (st : (s.fnAt f.val).st ≠ 0) (k : BitVec 32) : exec (.jobgoStart f k) s =
    .next (s.begun.modFn f.val (fun x => { x with err := 1 })) := congrArg Host.Outcome.next (if_neg st)

theorem exec_jobgoCancel : exec (.jobgoCancel f) s = .next (s.begun.jobCancel f.val) := rfl

/-- A cancel of a validation tells its function; the status word that it may write first changes no function (R60). -/
theorem State.jobCancel_validating_fns {s : State} {f : Nat} (st : (s.fnAt f).st = 1) :
    (s.jobCancel f).fns = ((s.modFn f (fun x => { x with st := 0, err := 0, cause := 2 })).msix f 0).fns := by
  have status (b : Bool) (pa : Nat) (bs : List Byte) : (if b then s.larderWrite pa bs else s).fns = s.fns := by
    split
    · exact (s.larderWrite_larderStep pa bs).fns
    · rfl
  unfold State.jobCancel
  rw [st]
  exact State.modFn_fns_congr (State.modFn_fns_congr (status _ _ _) f _) f (Fn.raised 0)

theorem jobgoCancel_validating (len : s.fns.length = 9) (st : (s.fnAt f.val).st = 1) : ∃ t, exec (.jobgoCancel f) s = .next t ∧
    (t.fnAt f.val).st = 0 ∧ (t.fnAt f.val).cause = 2 ∧ (t.fnAt f.val).err = 0 := by
  have inside : f.val < s.begun.fns.length := Nat.lt_of_lt_of_eq f.isLt len.symm
  have own : (s.begun.jobCancel f.val).fnAt f.val = Fn.raised 0 { s.fnAt f.val with st := 0, err := 0, cause := 2 } := by
    rw [State.fnAt_congr (State.jobCancel_validating_fns (s := s.begun) st), State.msix_eq, State.fnAt_modFn_same (by rwa [State.modFn_length]),
      State.fnAt_modFn_same inside]
    rfl
  refine ⟨_, exec_jobgoCancel, ?_⟩
  rw [own, Fn.raised_st, Fn.raised_cause, Fn.raised_err]
  exact ⟨rfl, rfl, rfl⟩

theorem jobgoCancel_live (st : (s.fnAt f.val).st = 2 ∨ (s.fnAt f.val).st = 5 ∨ (s.fnAt f.val).st = 6) : exec (.jobgoCancel f) s =
    .next ((s.begun.modFn f.val (fun x => { x with err := 0 })).cancelJob f.val) := by
  have st : (s.begun.fnAt f.val).st = 2 ∨ (s.begun.fnAt f.val).st = 5 ∨ (s.begun.fnAt f.val).st = 6 := st
  rw [exec_jobgoCancel, State.jobCancel]
  rcases st with e | e | e <;> rw [e] <;> rfl

theorem jobgoCancel_other (h1 : (s.fnAt f.val).st ≠ 1) (h2 : (s.fnAt f.val).st ≠ 2) (h5 : (s.fnAt f.val).st ≠ 5) (h6 : (s.fnAt f.val).st ≠ 6) :
    exec (.jobgoCancel f) s = .next (s.begun.modFn f.val (fun x => { x with err := 3 })) := by
  rw [exec_jobgoCancel, State.jobCancel]
  split
  case h_1 e => exact absurd e h1
  case h_2 e => exact absurd e h2
  case h_3 e => exact absurd e h5
  case h_4 e => exact absurd e h6
  case h_5 => rfl

theorem jobgoResume_suspended (st : (s.fnAt f.val).st = 6) : exec (.jobgoResume f) s =
    .next (s.begun.modFn f.val (fun x => { x with st := 2, err := 0 })) := congrArg Host.Outcome.next (if_pos st)

theorem jobgoResume_other (st : (s.fnAt f.val).st ≠ 6) : exec (.jobgoResume f) s =
    .next (s.begun.modFn f.val (fun x => { x with err := 3 })) := congrArg Host.Outcome.next (if_neg st)

theorem jobgoSuspend_other (st : (s.fnAt f.val).st ≠ 2) : exec (.jobgoSuspend f) s =
    .next (s.begun.modFn f.val (fun x => { x with err := 3 })) := congrArg Host.Outcome.next (if_neg st)

end

/-! Suspension (R86) -/

/-- A core with a pre-emption request (R86). -/
def Core.preempted (c : Core) : Core := { c with preempt := 1 }

/-- A core whose task of function `f` takes a pre-emption request now (R86). -/
def Core.takesPreempt (f : Nat) (c : Core) : Bool := decide ((c.run = .running ∨ c.run = .leaving) ∧ c.task.fn = f ∧ c.preempt = 0)

/-- A core without a task of function `f`. -/
def Core.withoutTask (f : Nat) (c : Core) : Bool := c.run == .idle || c.task.fn != f

/-- Where no core has a task of a function, none has one once a pre-emption request is made, and the other way round. -/
theorem State.withoutTask_modCore (s : State) (f n : Nat) : (s.modCore n Core.preempted).cores.all (Core.withoutTask f) = s.cores.all (Core.withoutTask f) := by
  have kept : (s.coreAt n).preempted ≠ Core.reset n := fun e => Nat.one_ne_zero (congrArg Core.preempt e)
  unfold State.modCore
  split
  · rfl
  · rename_i focus
    have parked := SMap.all_put (P := Core.withoutTask f) (d := Core.reset n) (v := (s.coreAt n).preempted) (m := s.parked) (k := n) rfl
      (by rw [State.coreAt, if_neg focus]; rfl)
    simp only [State.cores, List.all_cons, List.all_map, SMap.set, if_neg kept]
    exact congrArg (Core.withoutTask f s.core && ·) parked

/-- Every running task of a function gets a pre-emption request (R86). -/
def State.preempted (s : State) (f : Nat) : State :=
  s.cores.foldl (fun s c => if Core.takesPreempt f c then s.modCore c.id Core.preempted else s) s

theorem State.preempted_coresOnly (s : State) (f : Nat) : s.CoresOnly (s.preempted f) := by
  refine State.foldl_coresOnly (fun s c => ?_) s.cores s
  split
  · exact s.modCore_coresOnly c.id _
  · exact .refl s

theorem State.withoutTask_preempted (s : State) (f : Nat) : (s.preempted f).cores.all (Core.withoutTask f) = s.cores.all (Core.withoutTask f) := by
  have each (l : List Core) (t : State) :
      (l.foldl (fun s c => if Core.takesPreempt f c then s.modCore c.id Core.preempted else s) t).cores.all (Core.withoutTask f) =
        t.cores.all (Core.withoutTask f) := by
    induction l generalizing t with
    | nil => rfl
    | cons c r ih =>
      rw [List.foldl_cons, ih]
      split
      · exact t.withoutTask_modCore f c.id
      · rfl
  exact each s.cores s

/-- The core in focus has its request, and is otherwise as before. -/
theorem State.preempted_core (s : State) (f : Nat) : ((s.preempted f).core = s.core ∨ (s.preempted f).core = s.core.preempted) ∧
    (Core.takesPreempt f s.core = true → (s.preempted f).core = s.core.preempted) := by
  have focus : (s.preempted f).core.id = s.core.id := State.modCores_core_id (g := Core.preempted) (fun _ => rfl) (Core.takesPreempt f) s.cores s
  have asked : (s.preempted f).coreAt s.core.id = _ :=
    State.coreAt_modCores (g := Core.preempted) (fun _ => rfl) (fun _ => rfl) (Core.takesPreempt f) s.cores s s.core.id
  rw [← focus, State.coreAt_focus, focus, State.coreAt_focus] at asked
  rw [asked]
  refine ⟨?_, fun takes => if_pos ?_⟩
  · split
    · exact .inr rfl
    · exact .inl rfl
  · simp [State.cores, takes]

/-- A function that a suspension begins on (R86). -/
def Fn.suspending (x : Fn) : Fn := { x with st := 5, err := 0 }

theorem State.jobSuspend_running {s : State} {f : Nat} (st : (s.fnAt f).st = 2) :
    s.jobSuspend f = ((s.modFn f Fn.suspending).preempted f).settleSuspension f := by
  rw [State.jobSuspend, if_pos st]
  simp only [State.preempted, Core.takesPreempt, decide_eq_true_eq]
  rfl

/-- A suspending function is suspended at once where no core has a task of it (R86). -/
theorem State.settleSuspension_shows {s : State} {f : Nat} (inside : f < s.fns.length) (st : (s.fnAt f).st = 5) :
    (((s.settleSuspension f).fnAt f).st = if s.cores.all (Core.withoutTask f) then 6 else 5) ∧ ((s.settleSuspension f).fnAt f).err = (s.fnAt f).err ∧
    (s.settleSuspension f).core = s.core ∧ (s.settleSuspension f).mem = s.mem := by
  have settled : s.settleSuspension f = if s.cores.all (Core.withoutTask f) then s.modFn f (fun x => { x with st := 6 }) else s := by
    simp only [State.settleSuspension, st, true_and]
    rfl
  rw [settled]
  split
  · rw [State.fnAt_modFn_same inside]
    exact ⟨rfl, rfl, rfl, rfl⟩
  · exact ⟨st, rfl, rfl, rfl⟩

theorem jobgoSuspend_running {s : State} {f : Fin 9} (len : s.fns.length = 9) (st : (s.fnAt f.val).st = 2) :
    ∃ t, exec (.jobgoSuspend f) s = .next t ∧ (t.fnAt f.val).err = 0 ∧
      (t.fnAt f.val).st = (if s.cores.all (Core.withoutTask f.val) then 6 else 5) ∧
      (Core.takesPreempt f.val s.core = true → t.core.preempt = 1) ∧ t.core.regs = s.core.regs ∧ t.mem = s.mem := by
  have run : exec (.jobgoSuspend f) s = .next (s.begun.jobSuspend f.val) := rfl
  rw [State.jobSuspend_running (s := s.begun) st] at run
  have inside : f.val < s.begun.fns.length := Nat.lt_of_lt_of_eq f.isLt len.symm
  have own : (s.begun.modFn f.val Fn.suspending).fnAt f.val = (s.fnAt f.val).suspending := State.fnAt_modFn_same inside
  have only := (s.begun.modFn f.val Fn.suspending).preempted_coresOnly f.val
  have free := (s.begun.modFn f.val Fn.suspending).withoutTask_preempted f.val
  obtain ⟨either, asked⟩ := (s.begun.modFn f.val Fn.suspending).preempted_core f.val
  generalize (s.begun.modFn f.val Fn.suspending).preempted f.val = u at run only free either asked
  have uOwn : u.fnAt f.val = (s.fnAt f.val).suspending := (State.fnAt_congr only.fns _).trans own
  have uInside : f.val < u.fns.length := by rwa [only.fns, State.modFn_length]
  obtain ⟨tSt, tErr, tCore, tMem⟩ := State.settleSuspension_shows uInside (congrArg Fn.st uOwn)
  refine ⟨_, run, tErr.trans (congrArg Fn.err uOwn), ?_, fun takes => ?_, ?_, tMem.trans only.mem⟩
  · rw [tSt, free]; rfl
  · rw [tCore, asked takes]; rfl
  · rw [tCore]
    rcases either with e | e <;> rw [e] <;> rfl

/-! BAR 0 (R54, R55) -/

section
variable {s : State} {f : Fin 9} {v : BitVec 64}

theorem registerWrite_jobaddr : exec (.registerWrite f 0x1000 8 v) s =
    .next (s.begun.modFn f.val (fun x => { x with jobaddr := v.toNat / 2 ^ 16 % 2 ^ 32 * 2 ^ 16 })) := rfl

theorem registerWrite_winbase : exec (.registerWrite f 0x1018 8 v) s =
    .next (s.begun.modFn f.val (fun x => { x with winbase := v.toNat % 2 ^ 48 })) := by
  have whole : bits v.toNat 0 48 = v.toNat % 2 ^ 48 := by simp [bits]
  rw [← whole]
  rfl

theorem registerWrite_jobstat : exec (.registerWrite f 0x1010 8 v) s = .next s.begun := by
  have stored : s.begun.registerWrite f.val 0x1010 8 v = s.begun := by simp [State.registerWrite, State.storeRegister]
  exact congrArg Host.Outcome.next stored

/-- A write of JOBGO is the command that its low word names (R55). -/
theorem registerWrite_jobgo {cmd : Nat} (low : v.toNat % 2 ^ 32 = cmd) :
    exec (.registerWrite f 0x1008 8 v) s = if cmd = 1 then exec (.jobgoStart f (v.extractLsb' 32 32)) s else if cmd = 2 then exec (.jobgoCancel f) s
      else if cmd = 3 then exec (.jobgoSuspend f) s else if cmd = 4 then exec (.jobgoResume f) s else exec (.jobgoRefused f) s := by
  have low : bits v.toNat 0 32 = cmd := by simpa [bits] using low
  have command : exec (.registerWrite f 0x1008 8 v) s = .next (s.begun.jobgo f.val v) := rfl
  rw [command, State.jobgo, low]
  split
  case h_1 => rfl
  case h_2 => rfl
  case h_3 => rfl
  case h_4 => rfl
  case h_5 h1 h2 h3 h4 => rw [if_neg h1, if_neg h2, if_neg h3, if_neg h4]; rfl

end

/-! Vectors (R62) -/

/-- A function with a vector unmasked (R62). -/
def Fn.unmasked (v : Nat) (x : Fn) : Fn := { x with
  msixMask := x.msixMask.filter (fun y => y != v), msixPend := x.msixPend.filter (fun y => y != v),
  msixSent := if x.msixPend.contains v then x.msixSent ++ [v] else x.msixSent }

theorem msixUnmask_unmasks {s : State} {f : Fin 9} (len : s.fns.length = 9) (v : Fin 16) :
    let x := s.fnAt f.val
    ∃ t, exec (.msixUnmask f v) s = .next t ∧ v.val ∉ (t.fnAt f.val).msixMask ∧ v.val ∉ (t.fnAt f.val).msixPend ∧
      (t.fnAt f.val).msixSent = (if x.msixPend.contains v.val then x.msixSent ++ [v.val] else x.msixSent) ∧
      (∀ u, u ≠ v.val → (u ∈ (t.fnAt f.val).msixMask ↔ u ∈ x.msixMask) ∧ (u ∈ (t.fnAt f.val).msixPend ↔ u ∈ x.msixPend)) ∧ t.core = s.begun.core := by
  have own : (s.begun.unmask f.val v.val).fnAt f.val = (s.fnAt f.val).unmasked v.val :=
    State.fnAt_modFn_same (s := s.begun) (Nat.lt_of_lt_of_eq f.isLt len.symm)
  refine ⟨_, rfl, ?_⟩
  rw [own]
  refine ⟨by simp [Fn.unmasked], by simp [Fn.unmasked], rfl, fun u other => ?_, rfl⟩
  simp [Fn.unmasked, other]

/-! The BAR 2 window (R54, R61) -/

/-- The physical address that an offset in a function's BAR 2 stands for (R54). -/
def Fn.windowAt (x : Fn) (off : Nat) : Nat := x.winbase / 2 ^ x.barLog * 2 ^ x.barLog + off

/-- An access that the window performs: in BAR 2, in the function's share and outside the checkpoint regions (R12, R54). -/
def Fn.WindowOpen (x : Fn) (off n : Nat) : Prop :=
  off + n ≤ 2 ^ x.barLog ∧ x.owns (x.windowAt off) n = true ∧ overlaps (x.windowAt off) n 0x140000000000 0x40000000000 = false

section
variable {s : State} {f off n : Nat}

theorem State.bar2Addr_open (h : (s.fnAt f).WindowOpen off n) : s.bar2Addr f off n = some ((s.fnAt f).windowAt off) := if_pos h

theorem State.bar2Addr_closed (h : ¬ (s.fnAt f).WindowOpen off n) : s.bar2Addr f off n = none := if_neg h

theorem State.unreadSlots_begun : s.begun.unreadSlots f = s.unreadSlots f := by
  simp only [State.unreadSlots, State.imageBytes_begun]
  rfl

end

/-- A state with a message slot filled with free bytes (R8, R61). -/
def State.spoilSlot (s : State) (a : Nat) : State := { (s.freeBytes 64).2 with larder := larderPut (s.freeBytes 64).2.larder a (s.freeBytes 64).1 }

theorem State.spoilSlot_eq (s : State) (a : Nat) : ∃ n bs, bs.length = 64 ∧ s.spoilSlot a = { s with fresh := n, larder := larderPut s.larder a bs } :=
  ⟨_, (s.freeBytes 64).1, by simp [State.freeBytes], rfl⟩

theorem State.spoilSlot_keeps (s : State) (a : Nat) : (s.spoilSlot a).core = s.core ∧
    ∀ p, p < a ∨ a + 64 ≤ p → (s.spoilSlot a).byteAt p = s.byteAt p := by
  obtain ⟨n, bs, length, e⟩ := s.spoilSlot_eq a
  rw [e]
  refine ⟨rfl, fun p outside => ?_⟩
  have put := State.byteAt_larderPut (s := s) (t := { s with fresh := n, larder := larderPut s.larder a bs }) rfl rfl rfl p
  rw [put, length, if_neg (by omega)]

theorem State.spoilSlots_eq (s : State) (slots : List Nat) : s.spoilSlots slots = slots.foldl State.spoilSlot s := rfl

/-- Spoiled slots are spoiled one after the other: bytes outside them all stay, and so does the core in focus. -/
theorem State.spoilSlots_keeps (slots : List Nat) (s : State) : (s.spoilSlots slots).core = s.core ∧
    ∀ p, (∀ a ∈ slots, p < a ∨ a + 64 ≤ p) → (s.spoilSlots slots).byteAt p = s.byteAt p := by
  induction slots generalizing s with
  | nil => exact ⟨rfl, fun _ _ => rfl⟩
  | cons a r ih =>
    rw [State.spoilSlots_eq, List.foldl_cons, ← State.spoilSlots_eq]
    obtain ⟨core, bytes⟩ := s.spoilSlot_keeps a
    obtain ⟨restCore, restBytes⟩ := ih (s.spoilSlot a)
    refine ⟨restCore.trans core, fun p outside => ?_⟩
    have rest := restBytes p fun b hb => outside b (List.mem_cons_of_mem a hb)
    exact rest.trans (bytes p (outside a List.mem_cons_self))

section
variable {s : State} {f : Fin 9} {off : Nat}

/-- An access that the window does not perform is counted (R54). -/
theorem bar2Write_closed {bs : List Byte} (h : ¬ (s.fnAt f.val).WindowOpen off bs.length) : exec (.bar2Write f off bs) s =
    .next { s.begun with service := { s.service with unsupported := s.service.unsupported + 1 } } := by
  have closed : s.begun.bar2Addr f.val off bs.length = none := State.bar2Addr_closed h
  have counted : s.begun.bar2Write f.val off bs = s.begun.unsupportedAccess := by rw [State.bar2Write, closed]
  exact congrArg Host.Outcome.next counted

theorem bar2Write_open {bs : List Byte} (h : (s.fnAt f.val).WindowOpen off bs.length) : exec (.bar2Write f off bs) s =
    .next ((s.begun.larderWrite ((s.fnAt f.val).windowAt off) bs).spoilSlots
      ((s.unreadSlots f.val).filter (fun a => overlaps a 64 ((s.fnAt f.val).windowAt off) bs.length))) := by
  have opened : s.begun.bar2Addr f.val off bs.length = some ((s.fnAt f.val).windowAt off) := State.bar2Addr_open h
  have written : s.begun.bar2Write f.val off bs = (s.begun.larderWrite ((s.fnAt f.val).windowAt off) bs).spoilSlots
      ((s.unreadSlots f.val).filter (fun a => overlaps a 64 ((s.fnAt f.val).windowAt off) bs.length)) := by
    rw [State.bar2Write, opened, State.unreadSlots_begun]
  exact congrArg Host.Outcome.next written

theorem bar2Read_open {n : Nat} (h : (s.fnAt f.val).WindowOpen off n) : ∃ t, exec (.bar2Read f off n) s = .next t ∧
    t.bar2Out = some (s.larderRead ((s.fnAt f.val).windowAt off) n).1 ∧ t.mem = (s.larderRead ((s.fnAt f.val).windowAt off) n).2.mem := by
  have opened : s.begun.bar2Addr f.val off n = some ((s.fnAt f.val).windowAt off) := State.bar2Addr_open h
  have read : s.begun.bar2Read f.val off n = { (s.larderRead ((s.fnAt f.val).windowAt off) n).2.begun with
      bar2Out := some (s.larderRead ((s.fnAt f.val).windowAt off) n).1 } := by
    rw [State.bar2Read, opened]
    simp only [State.larderRead_begun]
  exact ⟨_, congrArg Host.Outcome.next read, rfl, rfl⟩

theorem bar2Read_closed {n : Nat} (h : ¬ (s.fnAt f.val).WindowOpen off n) : ∃ t, exec (.bar2Read f off n) s = .next t ∧
    t.bar2Out = none ∧ t.service.unsupported = s.service.unsupported + 1 ∧ t.mem = s.mem := by
  have closed : s.begun.bar2Addr f.val off n = none := State.bar2Addr_closed h
  have counted : s.begun.bar2Read f.val off n = { s.begun.unsupportedAccess with bar2Out := none } := by rw [State.bar2Read, closed]
  exact ⟨_, congrArg Host.Outcome.next counted, rfl, rfl, rfl⟩

theorem bar2Resize_supported {n : Nat} (lo : 30 ≤ n) (hi : n ≤ 43) : exec (.bar2Resize f n) s =
    .next (s.begun.modFn f.val (fun x => { x with barLog := n })) := congrArg Host.Outcome.next (if_pos ⟨lo, hi⟩)

theorem bar2Resize_unsupported {n : Nat} (h : n < 30 ∨ 43 < n) : exec (.bar2Resize f n) s = .next s.begun :=
  congrArg Host.Outcome.next (if_neg (by omega))

end

/-! The obligation -/

/-- Settles O57: the device reset, and then of one function its reset, JOBGO's commands state by state, its registers, its vectors and its window. -/
theorem hostControl : Obligations.HostControl := by
  refine ⟨fun s => ?device, fun s f len => ⟨functionLevelReset_resets len, fun k => ⟨fun st => jobgoStart_idle st k, fun st => jobgoStart_busy st k⟩,
    jobgoCancel_validating len, jobgoCancel_live, jobgoCancel_other, fun st => ?suspend, jobgoSuspend_other, jobgoResume_suspended, jobgoResume_other, rfl,
    fun v => ⟨registerWrite_jobaddr, registerWrite_winbase, registerWrite_jobstat, registerWrite_jobgo rfl⟩, msixUnmask_unmasks len,
    fun off bs => ⟨fun opened => ?write, bar2Write_closed, fun n => ⟨bar2Read_open, bar2Read_closed⟩⟩,
    fun n => ⟨bar2Resize_supported, bar2Resize_unsupported⟩⟩⟩
  case device =>
    refine ⟨_, exec_deviceReset s, rfl, rfl, rfl, rfl, rfl, rfl, rfl, rfl, rfl, rfl, rfl, s.ladders.settled_errata, fun held errata => ?_⟩
    simp only [Ladders.settled_unheld held errata, held]
  case suspend =>
    obtain ⟨t, run, err, state, asked, kept⟩ := jobgoSuspend_running len st
    exact ⟨t, run, err, state, fun live fn none_ => asked (decide_eq_true ⟨live, fn, none_⟩), kept⟩
  case write =>
    intro hit
    have written := bar2Write_open opened
    refine ⟨fun none_ => written.trans (congrArg (fun l => Host.Outcome.next (State.spoilSlots _ l)) none_), _, written, ?_⟩
    exact State.spoilSlots_keeps hit (s.begun.larderWrite _ bs)

end Machine
end Sys2Proof
end
